-- ==== Sys2Proof/Word.lean ====
section
/-! DEFINITION. Words, bytes and their plainest arithmetic, and the records that carry what the outside world
hands to the device (a host request, a mailbox request, the outcome of the boot tests, the place of a memory
error). -/

namespace Sys2Proof

/-- A 64-bit register value, address or doubleword. -/
abbrev Word := BitVec 64

/-- One byte of a memory. -/
abbrev Byte := BitVec 8

/-- The 256 bytes of a vector register or a queue entry (R261). -/
abbrev Vec := BitVec 2048

/-- Bits hi..lo of a natural number, read as a natural number (R2). -/
def bitsOf (x hi lo : Nat) : Nat := x / 2 ^ lo % 2 ^ (hi + 1 - lo)

/-- Bit n of a natural number. -/
def bitAt (x n : Nat) : Bool := x.testBit n

/-- sext of R6: the two's-complement reading of the low n bits of x. -/
def signedOf (n x : Nat) : Int := if bitAt x (n - 1) then (x % 2 ^ n : Nat) - (2 ^ n : Nat) else (x % 2 ^ n : Nat)

/-- The n low bits of an exact integer (R6: a value assigned to an n-bit destination keeps its low n bits). -/
def lowBits (n : Nat) (x : Int) : Nat := (x % (2 ^ n : Nat)).toNat

/-- A request of the host that reaches a bridge (R419): a read of `len` bytes or a write of `data` at a
host-physical address of a range that an HDM decoder maps (R418), or else at a device-physical one. -/
structure HostAccess where
  addr  : Nat
  write : Bool
  data  : List Byte
  len   : Nat
deriving DecidableEq, Repr

/-- A request of the host to firmware through the management controller's mailbox: an owner for a queue (R420), the
host-physical ranges of one bridge (R419), or the LOCK of a queue cleared (R420). -/
inductive MailboxRequest where
  | assignQueue (q : Nat) (key : BitVec 8) (asid : BitVec 12) (enable : Bool)
  | hostRanges (bridge : Nat) (ranges : List (Nat × Nat))
  | unlockQueue (q : Nat)
deriving DecidableEq, Repr

/-- Where a memory error strikes (R158, R283): an 8-byte LM word, a 2-byte tile-store slice or a 128-byte line
of global memory. -/
inductive EccPlace where
  | lmWord (dt word : Nat)
  | tsSlice (dt slice : Nat)
  | line (n : Nat)
deriving DecidableEq, Repr

/-- What the boot steps of R430 find, which only the hardware at hand decides: the stored images with which the management
controller's check passes (from 0 the first, from 1 the second, from 2 neither), whether the I/O dies come up, the dies whose
HBM trains at 6.4 Gb/s only and those where it does not train, the dies whose firmware does not load, the PTs that fail the
self-test of a full boot (R432), the ports that train at 112 Gb/s and those excluded, whether the CXL link comes up, if only
narrow or slow, whether the panel joins its domain (0), boots as a domain of its own instead (1) or fails to do that too (2),
and the PTs that firmware binds to VT 0, 1, ... (R17 leaves the binding to firmware). -/
structure BootReport where
  image     : Nat
  ioDies    : Bool
  hbmSlow   : List Nat
  excluded  : List Nat
  unloaded  : List Nat
  failed    : List Nat
  portsSlow : List Nat
  portsOut  : List Nat
  cxl       : Bool
  cxlSlow   : Bool
  join      : Nat
  binding   : List Nat
deriving DecidableEq, Repr

end Sys2Proof
end

