-- ==== Sys2Proof/Syntax.lean ====
section
/-! DEFINITION. The steps of the machine: ONE constructor per row of spec/opcode_table.json, in the table's order. The first
321 rows are instruction words (R36 to R43): their operands are the raw fields of the encoding, named as the table names them;
the register classes and the illegal combinations of R33 are checked by Sys2Proof/WellFormed.lean. The other 76 rows are the
device's events (spec/95_what_each_step_holds.md): they have no encoding, and their operands name which pending item, tile,
die, panel or host request the step takes. -/

namespace Sys2Proof

/-- One step of the machine (spec/opcode_table.json; the rule of each row stands at its constructor). -/
inductive Instr where
  /-- R69. Unconditional PC-relative branch to PC + 2 × sext(imm24). -/
  | br (imm : BitVec 24)
  /-- R69. PC-relative call that pushes PC + 4 onto the shadow stack and into w31. -/
  | call (imm : BitVec 24)
  /-- R70. Branches when wa = wb. -/
  | beq (a : BitVec 5) (b : BitVec 5) (off : BitVec 10)
  /-- R70. Branches when wa ≠ wb. -/
  | bne (a : BitVec 5) (b : BitVec 5) (off : BitVec 10)
  /-- R70. Branches when wa < wb, signed. -/
  | blt (a : BitVec 5) (b : BitVec 5) (off : BitVec 10)
  /-- R70. Branches when wa ≥ wb, signed. -/
  | bge (a : BitVec 5) (b : BitVec 5) (off : BitVec 10)
  /-- R70. Branches when wa < wb, unsigned. -/
  | bltu (a : BitVec 5) (b : BitVec 5) (off : BitVec 10)
  /-- R70. Branches when wa ≥ wb, unsigned. -/
  | bgeu (a : BitVec 5) (b : BitVec 5) (off : BitVec 10)
  /-- R70. Branches when bit wb[5..0] of wa is set. -/
  | bbs (a : BitVec 5) (b : BitVec 5) (off : BitVec 10)
  /-- R70. Branches when bit wb[5..0] of wa is clear. -/
  | bbc (a : BitVec 5) (b : BitVec 5) (off : BitVec 10)
  /-- R73. Jumps through a bounded table to an lpad carrying the table's label. -/
  | jt (a : BitVec 5) (imm : BitVec 14)
  /-- R72. Marks a permitted jt target and has no effect when executed. -/
  | lpad (lab : BitVec 16)
  /-- R71. Returns through the shadow stack after checking the top entry against w31. -/
  | ret
  /-- R74. Waits for all earlier work, frees the slot and passes the activation to the graph engine for commit. -/
  | nend
  /-- R75. Ends the activation with the aborting fault ABORT, fault value wa. -/
  | nabort (a : BitVec 5)
  /-- R76. Opens a masked window in a normal activation. -/
  | maskw
  /-- R76. Closes the masked window after all earlier instructions complete. -/
  | unmaskw
  /-- R83. Repeats the next n 32-bit instructions N times with staggered register fields through the repetition buffer. -/
  | rep (cnt : BitVec 5) (len : BitVec 3) (d : BitVec 4) (a : BitVec 4) (b : BitVec 4)
  /-- R90. wd := A + B. -/
  | add (d : BitVec 5) (a : BitVec 5) (b : BitVec 5) (w : Bool)
  /-- R90. wd := A − B. -/
  | sub (d : BitVec 5) (a : BitVec 5) (b : BitVec 5) (w : Bool)
  /-- R90. wd := A AND B. -/
  | and (d : BitVec 5) (a : BitVec 5) (b : BitVec 5) (w : Bool)
  /-- R90. wd := A OR B. -/
  | or (d : BitVec 5) (a : BitVec 5) (b : BitVec 5) (w : Bool)
  /-- R90. wd := A XOR B. -/
  | xor (d : BitVec 5) (a : BitVec 5) (b : BitVec 5) (w : Bool)
  /-- R90. wd := A AND NOT B. -/
  | andn (d : BitVec 5) (a : BitVec 5) (b : BitVec 5) (w : Bool)
  /-- R90. Shifts A left by the low bits of B. -/
  | shl (d : BitVec 5) (a : BitVec 5) (b : BitVec 5) (w : Bool)
  /-- R90. Shifts A right logically. -/
  | shr (d : BitVec 5) (a : BitVec 5) (b : BitVec 5) (w : Bool)
  /-- R90. Shifts A right arithmetically. -/
  | sha (d : BitVec 5) (a : BitVec 5) (b : BitVec 5) (w : Bool)
  /-- R90. Rotates A right within N bits. -/
  | ror (d : BitVec 5) (a : BitVec 5) (b : BitVec 5) (w : Bool)
  /-- R90. wd := low N bits of A × B. -/
  | mul (d : BitVec 5) (a : BitVec 5) (b : BitVec 5) (w : Bool)
  /-- R90. High half of the signed product. -/
  | mulh (d : BitVec 5) (a : BitVec 5) (b : BitVec 5) (w : Bool)
  /-- R90. High half of the unsigned product. -/
  | mulhu (d : BitVec 5) (a : BitVec 5) (b : BitVec 5) (w : Bool)
  /-- R91. Signed quotient rounded toward zero, with fixed results for zero divisor and overflow. -/
  | div (d : BitVec 5) (a : BitVec 5) (b : BitVec 5) (w : Bool)
  /-- R91. Unsigned quotient. -/
  | divu (d : BitVec 5) (a : BitVec 5) (b : BitVec 5) (w : Bool)
  /-- R91. Signed remainder with the sign of the dividend. -/
  | rem (d : BitVec 5) (a : BitVec 5) (b : BitVec 5) (w : Bool)
  /-- R91. Unsigned remainder. -/
  | remu (d : BitVec 5) (a : BitVec 5) (b : BitVec 5) (w : Bool)
  /-- R90. Signed minimum. -/
  | min (d : BitVec 5) (a : BitVec 5) (b : BitVec 5) (w : Bool)
  /-- R90. Signed maximum. -/
  | max (d : BitVec 5) (a : BitVec 5) (b : BitVec 5) (w : Bool)
  /-- R90. Unsigned minimum. -/
  | minu (d : BitVec 5) (a : BitVec 5) (b : BitVec 5) (w : Bool)
  /-- R90. Unsigned maximum. -/
  | maxu (d : BitVec 5) (a : BitVec 5) (b : BitVec 5) (w : Bool)
  /-- R90. 1 if A < B signed, else 0. -/
  | slt (d : BitVec 5) (a : BitVec 5) (b : BitVec 5) (w : Bool)
  /-- R90. 1 if A < B unsigned, else 0. -/
  | sltu (d : BitVec 5) (a : BitVec 5) (b : BitVec 5) (w : Bool)
  /-- R90. 1 if A = B, else 0. -/
  | seq (d : BitVec 5) (a : BitVec 5) (b : BitVec 5) (w : Bool)
  /-- R90. Counts leading zero bits of A. -/
  | clz (d : BitVec 5) (a : BitVec 5) (w : Bool)
  /-- R90. Counts trailing zero bits of A. -/
  | ctz (d : BitVec 5) (a : BitVec 5) (w : Bool)
  /-- R90. Counts set bits of A. -/
  | popc (d : BitVec 5) (a : BitVec 5) (w : Bool)
  /-- R90. Reverses the bits of A. -/
  | brev (d : BitVec 5) (a : BitVec 5) (w : Bool)
  /-- R90. Reverses the bytes of A. -/
  | bswap (d : BitVec 5) (a : BitVec 5) (w : Bool)
  /-- R90. Sign-extends the low 8, 16 or 32 bits of wa. -/
  | sext (d : BitVec 5) (a : BitVec 5) (b : BitVec 5)
  /-- R90. Zero-extends the low 8, 16 or 32 bits of wa. -/
  | zext (d : BitVec 5) (a : BitVec 5) (b : BitVec 5)
  /-- R90. wd := A + 2B. -/
  | adds1 (d : BitVec 5) (a : BitVec 5) (b : BitVec 5) (w : Bool)
  /-- R90. wd := A + 4B. -/
  | adds2 (d : BitVec 5) (a : BitVec 5) (b : BitVec 5) (w : Bool)
  /-- R90. wd := A + 8B. -/
  | adds3 (d : BitVec 5) (a : BitVec 5) (b : BitVec 5) (w : Bool)
  /-- R92. Builds a tile-window address from a DT and an offset. -/
  | vta (d : BitVec 5) (a : BitVec 5) (b : BitVec 5)
  /-- R90. wd := wa if wd ≠ 0, else wb. -/
  | sel (d : BitVec 5) (a : BitVec 5) (b : BitVec 5)
  /-- R93. Adds a sign-extended 14-bit immediate. -/
  | addi (d : BitVec 5) (a : BitVec 5) (imm : BitVec 14)
  /-- R93. ANDs a zero-extended 14-bit immediate. -/
  | andi (d : BitVec 5) (a : BitVec 5) (imm : BitVec 14)
  /-- R93. ORs a zero-extended 14-bit immediate. -/
  | ori (d : BitVec 5) (a : BitVec 5) (imm : BitVec 14)
  /-- R93. XORs a zero-extended 14-bit immediate. -/
  | xori (d : BitVec 5) (a : BitVec 5) (imm : BitVec 14)
  /-- R95. wd := sext(imm19) << 14. -/
  | lih (d : BitVec 5) (imm : BitVec 19)
  /-- R94. Shifts left by an immediate amount. -/
  | shli (d : BitVec 5) (a : BitVec 5) (w : Bool) (amt : BitVec 6)
  /-- R94. Shifts right logically by an immediate amount. -/
  | shri (d : BitVec 5) (a : BitVec 5) (w : Bool) (amt : BitVec 6)
  /-- R94. Shifts right arithmetically by an immediate amount. -/
  | shai (d : BitVec 5) (a : BitVec 5) (w : Bool) (amt : BitVec 6)
  /-- R94. Rotates right by an immediate amount. -/
  | rori (d : BitVec 5) (a : BitVec 5) (w : Bool) (amt : BitVec 6)
  /-- R96. wd := PC + 2 × sext(imm19). -/
  | addpc (d : BitVec 5) (imm : BitVec 19)
  /-- R104. Reads an identity register into wd. -/
  | mfi (d : BitVec 5) (b : BitVec 5)
  /-- R105. wd := extension register eN. -/
  | mfe (d : BitVec 5) (b : BitVec 5)
  /-- R105. Extension register eN := wa. -/
  | mte (d : BitVec 5) (a : BitVec 5)
  /-- R105. wd := mask mN. -/
  | mfm (d : BitVec 5) (b : BitVec 5)
  /-- R105. Mask mN := wa for N 1–7. -/
  | mtm (d : BitVec 5) (a : BitVec 5)
  /-- R109. Reads the number of entries of a queue as the issuing core sees them. -/
  | mfqc (d : BitVec 5) (b : BitVec 5)
  /-- R105. wd := WP. -/
  | wsa (d : BitVec 5)
  /-- R106. Loads an extension register from LM. -/
  | lde (d : BitVec 5) (a : BitVec 5) (imm : BitVec 14)
  /-- R121. Captures the next len words as a recompute recipe. -/
  | rcpDef (d : BitVec 5) (b : BitVec 5)
  /-- R122. Tags a w register with a recipe and marks it dropped. -/
  | rcpTagW (d : BitVec 5) (a : BitVec 5)
  /-- R122. Tags a vector register with a recipe and marks it dropped. -/
  | rcpTagV (d : BitVec 5) (a : BitVec 5)
  /-- R123. Removes a register's tag, replaying it first if dropped. -/
  | rcpUntag (d : BitVec 5) (b : BitVec 5)
  /-- R123. Drops a tagged present register. -/
  | rcpDrop (d : BitVec 5) (b : BitVec 5)
  /-- R123. Replays a dropped tagged register, keeping its tag. -/
  | rcpMat (d : BitVec 5) (b : BitVec 5)
  /-- R124. Materialises and untags every register of a recipe and frees it. -/
  | rcpClr (d : BitVec 5)
  /-- R141. Loads from the tile's own LM, zero-extending. -/
  | ldL (t : BitVec 5) (a : BitVec 5) (ord : BitVec 2) (sz : BitVec 2) (off : BitVec 10)
  /-- R141. Stores to the tile's own LM. -/
  | stL (t : BitVec 5) (a : BitVec 5) (ord : BitVec 2) (sz : BitVec 2) (off : BitVec 10)
  /-- R141. Loads from translated global memory. -/
  | ldG (t : BitVec 5) (a : BitVec 5) (ord : BitVec 2) (sz : BitVec 2) (off : BitVec 10)
  /-- R141. Stores to translated global memory. -/
  | stG (t : BitVec 5) (a : BitVec 5) (ord : BitVec 2) (sz : BitVec 2) (off : BitVec 10)
  /-- R141. Loads through a tile-window address. -/
  | ldT (t : BitVec 5) (a : BitVec 5) (ord : BitVec 2) (sz : BitVec 2) (off : BitVec 10)
  /-- R141. Stores through a tile-window address. -/
  | stT (t : BitVec 5) (a : BitVec 5) (ord : BitVec 2) (sz : BitVec 2) (off : BitVec 10)
  /-- R143. Contiguous vector load from own LM. -/
  | vldL (d : BitVec 5) (a : BitVec 5) (m : BitVec 3) (esz : BitVec 2)
  /-- R143. Contiguous vector load from global memory. -/
  | vldG (d : BitVec 5) (a : BitVec 5) (m : BitVec 3) (esz : BitVec 2)
  /-- R146. Contiguous vector load through the tile window. -/
  | vldT (d : BitVec 5) (a : BitVec 5) (m : BitVec 3) (esz : BitVec 2)
  /-- R143. Strided vector load from own LM. -/
  | vldsL (d : BitVec 5) (a : BitVec 5) (b : BitVec 5) (m : BitVec 3) (esz : BitVec 2)
  /-- R143. Strided vector load from global memory. -/
  | vldsG (d : BitVec 5) (a : BitVec 5) (b : BitVec 5) (m : BitVec 3) (esz : BitVec 2)
  /-- R143. Indexed vector load from own LM. -/
  | vldxL (d : BitVec 5) (a : BitVec 5) (b : BitVec 5) (m : BitVec 3) (esz : BitVec 2)
  /-- R143. Indexed vector load from global memory. -/
  | vldxG (d : BitVec 5) (a : BitVec 5) (b : BitVec 5) (m : BitVec 3) (esz : BitVec 2)
  /-- R145. Contiguous vector store to own LM. -/
  | vstL (d : BitVec 5) (a : BitVec 5) (m : BitVec 3) (esz : BitVec 2)
  /-- R145. Contiguous vector store to global memory. -/
  | vstG (d : BitVec 5) (a : BitVec 5) (m : BitVec 3) (esz : BitVec 2)
  /-- R146. Contiguous vector store through the tile window. -/
  | vstT (d : BitVec 5) (a : BitVec 5) (m : BitVec 3) (esz : BitVec 2)
  /-- R145. Strided vector store to own LM. -/
  | vstsL (d : BitVec 5) (a : BitVec 5) (b : BitVec 5) (m : BitVec 3) (esz : BitVec 2)
  /-- R145. Strided vector store to global memory. -/
  | vstsG (d : BitVec 5) (a : BitVec 5) (b : BitVec 5) (m : BitVec 3) (esz : BitVec 2)
  /-- R145. Indexed vector store to own LM. -/
  | vstxL (d : BitVec 5) (a : BitVec 5) (b : BitVec 5) (m : BitVec 3) (esz : BitVec 2)
  /-- R145. Indexed vector store to global memory. -/
  | vstxG (d : BitVec 5) (a : BitVec 5) (b : BitVec 5) (m : BitVec 3) (esz : BitVec 2)
  /-- R148. Takes a read lease on a global range, parking once for the translation service to record it. -/
  | tchR (d : BitVec 5) (a : BitVec 5) (b : BitVec 5)
  /-- R148. Takes a write lease on a global range. -/
  | tchW (d : BitVec 5) (a : BitVec 5) (b : BitVec 5)
  /-- R149. Ends a live lease of the activation. -/
  | trel (a : BitVec 5)
  /-- R152. Prefetches a global line into its slice and the L1 without faulting. -/
  | prefG (a : BitVec 5)
  /-- R173. Atomic add on own LM. -/
  | aaddL (d : BitVec 5) (a : BitVec 5) (b : BitVec 5) (ord : BitVec 2) (scope : BitVec 2) (sz64 : Bool)
  /-- R173. Atomic AND on own LM. -/
  | aandL (d : BitVec 5) (a : BitVec 5) (b : BitVec 5) (ord : BitVec 2) (scope : BitVec 2) (sz64 : Bool)
  /-- R173. Atomic OR on own LM. -/
  | aorL (d : BitVec 5) (a : BitVec 5) (b : BitVec 5) (ord : BitVec 2) (scope : BitVec 2) (sz64 : Bool)
  /-- R173. Atomic XOR on own LM. -/
  | axorL (d : BitVec 5) (a : BitVec 5) (b : BitVec 5) (ord : BitVec 2) (scope : BitVec 2) (sz64 : Bool)
  /-- R173. Atomic signed minimum on own LM. -/
  | aminL (d : BitVec 5) (a : BitVec 5) (b : BitVec 5) (ord : BitVec 2) (scope : BitVec 2) (sz64 : Bool)
  /-- R173. Atomic signed maximum on own LM. -/
  | amaxL (d : BitVec 5) (a : BitVec 5) (b : BitVec 5) (ord : BitVec 2) (scope : BitVec 2) (sz64 : Bool)
  /-- R173. Atomic unsigned minimum on own LM. -/
  | aminuL (d : BitVec 5) (a : BitVec 5) (b : BitVec 5) (ord : BitVec 2) (scope : BitVec 2) (sz64 : Bool)
  /-- R173. Atomic unsigned maximum on own LM. -/
  | amaxuL (d : BitVec 5) (a : BitVec 5) (b : BitVec 5) (ord : BitVec 2) (scope : BitVec 2) (sz64 : Bool)
  /-- R173. Atomic swap on own LM. -/
  | aswpL (d : BitVec 5) (a : BitVec 5) (b : BitVec 5) (ord : BitVec 2) (scope : BitVec 2) (sz64 : Bool)
  /-- R173. Atomic compare-and-swap on own LM. -/
  | acasL (d : BitVec 5) (a : BitVec 5) (b : BitVec 5) (ord : BitVec 2) (scope : BitVec 2) (sz64 : Bool)
  /-- R173. Atomic floating-point add on own LM. -/
  | afaddL (d : BitVec 5) (a : BitVec 5) (b : BitVec 5) (ord : BitVec 2) (scope : BitVec 2) (sz64 : Bool)
  /-- R177. Commit-deferred add on own LM. -/
  | aaddKL (d : BitVec 5) (a : BitVec 5) (b : BitVec 5) (scope : BitVec 2) (sz64 : Bool)
  /-- R173. Atomic add through the tile window. -/
  | aaddT (d : BitVec 5) (a : BitVec 5) (b : BitVec 5) (ord : BitVec 2) (scope : BitVec 2) (sz64 : Bool)
  /-- R173. Atomic AND through the tile window. -/
  | aandT (d : BitVec 5) (a : BitVec 5) (b : BitVec 5) (ord : BitVec 2) (scope : BitVec 2) (sz64 : Bool)
  /-- R173. Atomic OR through the tile window. -/
  | aorT (d : BitVec 5) (a : BitVec 5) (b : BitVec 5) (ord : BitVec 2) (scope : BitVec 2) (sz64 : Bool)
  /-- R173. Atomic XOR through the tile window. -/
  | axorT (d : BitVec 5) (a : BitVec 5) (b : BitVec 5) (ord : BitVec 2) (scope : BitVec 2) (sz64 : Bool)
  /-- R173. Atomic signed minimum through the tile window. -/
  | aminT (d : BitVec 5) (a : BitVec 5) (b : BitVec 5) (ord : BitVec 2) (scope : BitVec 2) (sz64 : Bool)
  /-- R173. Atomic signed maximum through the tile window. -/
  | amaxT (d : BitVec 5) (a : BitVec 5) (b : BitVec 5) (ord : BitVec 2) (scope : BitVec 2) (sz64 : Bool)
  /-- R173. Atomic unsigned minimum through the tile window. -/
  | aminuT (d : BitVec 5) (a : BitVec 5) (b : BitVec 5) (ord : BitVec 2) (scope : BitVec 2) (sz64 : Bool)
  /-- R173. Atomic unsigned maximum through the tile window. -/
  | amaxuT (d : BitVec 5) (a : BitVec 5) (b : BitVec 5) (ord : BitVec 2) (scope : BitVec 2) (sz64 : Bool)
  /-- R173. Atomic swap through the tile window. -/
  | aswpT (d : BitVec 5) (a : BitVec 5) (b : BitVec 5) (ord : BitVec 2) (scope : BitVec 2) (sz64 : Bool)
  /-- R173. Atomic compare-and-swap through the tile window. -/
  | acasT (d : BitVec 5) (a : BitVec 5) (b : BitVec 5) (ord : BitVec 2) (scope : BitVec 2) (sz64 : Bool)
  /-- R173. Atomic floating-point add through the tile window. -/
  | afaddT (d : BitVec 5) (a : BitVec 5) (b : BitVec 5) (ord : BitVec 2) (scope : BitVec 2) (sz64 : Bool)
  /-- R177. Commit-deferred add through the tile window. -/
  | aaddKT (d : BitVec 5) (a : BitVec 5) (b : BitVec 5) (scope : BitVec 2) (sz64 : Bool)
  /-- R173. Atomic add on global memory. -/
  | aaddG (d : BitVec 5) (a : BitVec 5) (b : BitVec 5) (ord : BitVec 2) (scope : BitVec 2) (sz64 : Bool)
  /-- R173. Atomic AND on global memory. -/
  | aandG (d : BitVec 5) (a : BitVec 5) (b : BitVec 5) (ord : BitVec 2) (scope : BitVec 2) (sz64 : Bool)
  /-- R173. Atomic OR on global memory. -/
  | aorG (d : BitVec 5) (a : BitVec 5) (b : BitVec 5) (ord : BitVec 2) (scope : BitVec 2) (sz64 : Bool)
  /-- R173. Atomic XOR on global memory. -/
  | axorG (d : BitVec 5) (a : BitVec 5) (b : BitVec 5) (ord : BitVec 2) (scope : BitVec 2) (sz64 : Bool)
  /-- R173. Atomic signed minimum on global memory. -/
  | aminG (d : BitVec 5) (a : BitVec 5) (b : BitVec 5) (ord : BitVec 2) (scope : BitVec 2) (sz64 : Bool)
  /-- R173. Atomic signed maximum on global memory. -/
  | amaxG (d : BitVec 5) (a : BitVec 5) (b : BitVec 5) (ord : BitVec 2) (scope : BitVec 2) (sz64 : Bool)
  /-- R173. Atomic unsigned minimum on global memory. -/
  | aminuG (d : BitVec 5) (a : BitVec 5) (b : BitVec 5) (ord : BitVec 2) (scope : BitVec 2) (sz64 : Bool)
  /-- R173. Atomic unsigned maximum on global memory. -/
  | amaxuG (d : BitVec 5) (a : BitVec 5) (b : BitVec 5) (ord : BitVec 2) (scope : BitVec 2) (sz64 : Bool)
  /-- R173. Atomic swap on global memory. -/
  | aswpG (d : BitVec 5) (a : BitVec 5) (b : BitVec 5) (ord : BitVec 2) (scope : BitVec 2) (sz64 : Bool)
  /-- R173. Atomic compare-and-swap on global memory. -/
  | acasG (d : BitVec 5) (a : BitVec 5) (b : BitVec 5) (ord : BitVec 2) (scope : BitVec 2) (sz64 : Bool)
  /-- R173. Atomic floating-point add on global memory. -/
  | afaddG (d : BitVec 5) (a : BitVec 5) (b : BitVec 5) (ord : BitVec 2) (scope : BitVec 2) (sz64 : Bool)
  /-- R177. Commit-deferred add on global memory. -/
  | aaddKG (d : BitVec 5) (a : BitVec 5) (b : BitVec 5) (scope : BitVec 2) (sz64 : Bool)
  /-- R178. Multicast store that writes every replica of a replicated page. -/
  | stM (t : BitVec 5) (a : BitVec 5) (ord : BitVec 2) (sz : BitVec 2) (off : BitVec 10)
  /-- R185. Adds wa to a rod's COUNT. -/
  | radd (a : BitVec 5) (rod : BitVec 7)
  /-- R185. Sets a rod's COUNT and clears OVF. -/
  | rset (a : BitVec 5) (rod : BitVec 7)
  /-- R185. Reads a rod's COUNT. -/
  | rget (d : BitVec 5) (rod : BitVec 7)
  /-- R185. Sets a rod's threshold. -/
  | rarm (a : BitVec 5) (rod : BitVec 7)
  /-- R183. Waits until the rod is satisfied, then acquires. -/
  | rwait (rod : BitVec 7)
  /-- R185. Returns 1 if the rod is satisfied, acquiring when it does. -/
  | rtest (d : BitVec 5) (rod : BitVec 7)
  /-- R186. Arrives at a rod barrier, stepping BGEN when the threshold is met. -/
  | barr (rod : BitVec 7)
  /-- R186. Waits until BGEN moves past the activation's rod arrival. -/
  | bwait (rod : BitVec 7)
  /-- R188. Adds to a rod anywhere in the domain immediately. -/
  | rrmt (a : BitVec 5) (b : BitVec 5)
  /-- R188. Defers a remote rod add to commit. -/
  | rrmtK (a : BitVec 5) (b : BitVec 5)
  /-- R188. Adds wa to own rod number wb. -/
  | raddX (a : BitVec 5) (b : BitVec 5)
  /-- R190. Waits until any of up to four rods, the inbox or watched queues holds. -/
  | waitm (d : BitVec 5) (b : BitVec 5)
  /-- R198. Joins or updates membership of a beam group. -/
  | bmjoin (a : BitVec 5) (b : BitVec 5)
  /-- R198. Arrives at a beam group phase. -/
  | bmarr (a : BitVec 5)
  /-- R198. Waits for the release of the phase of the activation's arrival. -/
  | bmwait (a : BitVec 5)
  /-- R198. Reads the leaf state of own VT in a group. -/
  | bmq (d : BitVec 5) (a : BitVec 5)
  /-- R198. Leaves a beam group. -/
  | bmleave (a : BitVec 5)
  /-- R230. Records a plain token for an edge slot, deferred to commit. -/
  | tok (a : BitVec 5)
  /-- R230. Records a payload token with 256 bytes for an edge slot. -/
  | tokv (d : BitVec 5) (a : BitVec 5) (b : BitVec 5)
  /-- R230. Records a PRUNE cancel token for an edge slot. -/
  | ncan (a : BitVec 5)
  /-- R231. Arms a node of the issuing graph, moving one bead to it. -/
  | narm (d : BitVec 5) (a : BitVec 5)
  /-- R235. Defines and binds a node dynamically from an LM template. -/
  | ndef (d : BitVec 5) (a : BitVec 5) (b : BitVec 5)
  /-- R234. Reads the state of a node slot. -/
  | nqry (d : BitVec 5) (a : BitVec 5)
  /-- R236. Binds a watchpoint or counter event source to a node. -/
  | evb (d : BitVec 5) (a : BitVec 5) (b : BitVec 5)
  /-- R237. Unbinds an event binding, sending its bead as a PRUNE cancel. -/
  | evu (d : BitVec 5) (a : BitVec 5)
  /-- R267. Integer vector add. -/
  | vaddVv (d : BitVec 5) (a : BitVec 5) (b : BitVec 5) (m : BitVec 3) (esz : BitVec 2)
  /-- R267. Integer vector subtract. -/
  | vsubVv (d : BitVec 5) (a : BitVec 5) (b : BitVec 5) (m : BitVec 3) (esz : BitVec 2)
  /-- R267. Integer vector multiply. -/
  | vmulVv (d : BitVec 5) (a : BitVec 5) (b : BitVec 5) (m : BitVec 3) (esz : BitVec 2)
  /-- R267. Integer vector signed high multiply. -/
  | vmulhVv (d : BitVec 5) (a : BitVec 5) (b : BitVec 5) (m : BitVec 3) (esz : BitVec 2)
  /-- R267. Integer vector signed minimum. -/
  | vminVv (d : BitVec 5) (a : BitVec 5) (b : BitVec 5) (m : BitVec 3) (esz : BitVec 2)
  /-- R267. Integer vector signed maximum. -/
  | vmaxVv (d : BitVec 5) (a : BitVec 5) (b : BitVec 5) (m : BitVec 3) (esz : BitVec 2)
  /-- R267. Integer vector unsigned minimum. -/
  | vminuVv (d : BitVec 5) (a : BitVec 5) (b : BitVec 5) (m : BitVec 3) (esz : BitVec 2)
  /-- R267. Integer vector unsigned maximum. -/
  | vmaxuVv (d : BitVec 5) (a : BitVec 5) (b : BitVec 5) (m : BitVec 3) (esz : BitVec 2)
  /-- R267. Integer vector AND. -/
  | vandVv (d : BitVec 5) (a : BitVec 5) (b : BitVec 5) (m : BitVec 3) (esz : BitVec 2)
  /-- R267. Integer vector OR. -/
  | vorVv (d : BitVec 5) (a : BitVec 5) (b : BitVec 5) (m : BitVec 3) (esz : BitVec 2)
  /-- R267. Integer vector XOR. -/
  | vxorVv (d : BitVec 5) (a : BitVec 5) (b : BitVec 5) (m : BitVec 3) (esz : BitVec 2)
  /-- R267. Integer vector shift left. -/
  | vshlVv (d : BitVec 5) (a : BitVec 5) (b : BitVec 5) (m : BitVec 3) (esz : BitVec 2)
  /-- R267. Integer vector logical shift right. -/
  | vshrVv (d : BitVec 5) (a : BitVec 5) (b : BitVec 5) (m : BitVec 3) (esz : BitVec 2)
  /-- R267. Integer vector arithmetic shift right. -/
  | vshaVv (d : BitVec 5) (a : BitVec 5) (b : BitVec 5) (m : BitVec 3) (esz : BitVec 2)
  /-- R267. Integer vector saturating add. -/
  | vaddsatVv (d : BitVec 5) (a : BitVec 5) (b : BitVec 5) (m : BitVec 3) (esz : BitVec 2)
  /-- R267. Integer vector saturating subtract. -/
  | vsubsatVv (d : BitVec 5) (a : BitVec 5) (b : BitVec 5) (m : BitVec 3) (esz : BitVec 2)
  /-- R267. Integer vector–scalar add. -/
  | vaddVs (d : BitVec 5) (a : BitVec 5) (b : BitVec 5) (m : BitVec 3) (esz : BitVec 2)
  /-- R267. Integer vector–scalar subtract. -/
  | vsubVs (d : BitVec 5) (a : BitVec 5) (b : BitVec 5) (m : BitVec 3) (esz : BitVec 2)
  /-- R267. Integer vector–scalar multiply. -/
  | vmulVs (d : BitVec 5) (a : BitVec 5) (b : BitVec 5) (m : BitVec 3) (esz : BitVec 2)
  /-- R267. Integer vector–scalar signed high multiply. -/
  | vmulhVs (d : BitVec 5) (a : BitVec 5) (b : BitVec 5) (m : BitVec 3) (esz : BitVec 2)
  /-- R267. Integer vector–scalar signed minimum. -/
  | vminVs (d : BitVec 5) (a : BitVec 5) (b : BitVec 5) (m : BitVec 3) (esz : BitVec 2)
  /-- R267. Integer vector–scalar signed maximum. -/
  | vmaxVs (d : BitVec 5) (a : BitVec 5) (b : BitVec 5) (m : BitVec 3) (esz : BitVec 2)
  /-- R267. Integer vector–scalar unsigned minimum. -/
  | vminuVs (d : BitVec 5) (a : BitVec 5) (b : BitVec 5) (m : BitVec 3) (esz : BitVec 2)
  /-- R267. Integer vector–scalar unsigned maximum. -/
  | vmaxuVs (d : BitVec 5) (a : BitVec 5) (b : BitVec 5) (m : BitVec 3) (esz : BitVec 2)
  /-- R267. Integer vector–scalar AND. -/
  | vandVs (d : BitVec 5) (a : BitVec 5) (b : BitVec 5) (m : BitVec 3) (esz : BitVec 2)
  /-- R267. Integer vector–scalar OR. -/
  | vorVs (d : BitVec 5) (a : BitVec 5) (b : BitVec 5) (m : BitVec 3) (esz : BitVec 2)
  /-- R267. Integer vector–scalar XOR. -/
  | vxorVs (d : BitVec 5) (a : BitVec 5) (b : BitVec 5) (m : BitVec 3) (esz : BitVec 2)
  /-- R267. Integer vector–scalar shift left. -/
  | vshlVs (d : BitVec 5) (a : BitVec 5) (b : BitVec 5) (m : BitVec 3) (esz : BitVec 2)
  /-- R267. Integer vector–scalar logical shift right. -/
  | vshrVs (d : BitVec 5) (a : BitVec 5) (b : BitVec 5) (m : BitVec 3) (esz : BitVec 2)
  /-- R267. Integer vector–scalar arithmetic shift right. -/
  | vshaVs (d : BitVec 5) (a : BitVec 5) (b : BitVec 5) (m : BitVec 3) (esz : BitVec 2)
  /-- R267. Integer vector–scalar saturating add. -/
  | vaddsatVs (d : BitVec 5) (a : BitVec 5) (b : BitVec 5) (m : BitVec 3) (esz : BitVec 2)
  /-- R267. Integer vector–scalar saturating subtract. -/
  | vsubsatVs (d : BitVec 5) (a : BitVec 5) (b : BitVec 5) (m : BitVec 3) (esz : BitVec 2)
  /-- R270. Floating-point vector add, RNE. -/
  | vfaddVv (d : BitVec 5) (a : BitVec 5) (b : BitVec 5) (m : BitVec 3) (esz : BitVec 2)
  /-- R270. Floating-point vector subtract. -/
  | vfsubVv (d : BitVec 5) (a : BitVec 5) (b : BitVec 5) (m : BitVec 3) (esz : BitVec 2)
  /-- R270. Floating-point vector multiply. -/
  | vfmulVv (d : BitVec 5) (a : BitVec 5) (b : BitVec 5) (m : BitVec 3) (esz : BitVec 2)
  /-- R270. Fused D + A × B. -/
  | vfmaVv (d : BitVec 5) (a : BitVec 5) (b : BitVec 5) (m : BitVec 3) (esz : BitVec 2)
  /-- R270. Fused D − A × B. -/
  | vfmsVv (d : BitVec 5) (a : BitVec 5) (b : BitVec 5) (m : BitVec 3) (esz : BitVec 2)
  /-- R270. Fused A × B − D. -/
  | vfnmaVv (d : BitVec 5) (a : BitVec 5) (b : BitVec 5) (m : BitVec 3) (esz : BitVec 2)
  /-- R271. IEEE minimumNumber per element. -/
  | vfminVv (d : BitVec 5) (a : BitVec 5) (b : BitVec 5) (m : BitVec 3) (esz : BitVec 2)
  /-- R271. IEEE maximumNumber per element. -/
  | vfmaxVv (d : BitVec 5) (a : BitVec 5) (b : BitVec 5) (m : BitVec 3) (esz : BitVec 2)
  /-- R270. Floating-point vector divide. -/
  | vfdivVv (d : BitVec 5) (a : BitVec 5) (b : BitVec 5) (m : BitVec 3) (esz : BitVec 2)
  /-- R270. Floating-point vector square root. -/
  | vfsqrt (d : BitVec 5) (a : BitVec 5) (m : BitVec 3) (esz : BitVec 2)
  /-- R273. Bit-exact reciprocal square-root estimate. -/
  | vfrsqe (d : BitVec 5) (a : BitVec 5) (m : BitVec 3) (esz : BitVec 2)
  /-- R274. Bit-exact reciprocal estimate. -/
  | vfrcpe (d : BitVec 5) (a : BitVec 5) (m : BitVec 3) (esz : BitVec 2)
  /-- R271. Clears the sign bit of each element. -/
  | vfabs (d : BitVec 5) (a : BitVec 5) (m : BitVec 3) (esz : BitVec 2)
  /-- R271. Inverts the sign bit of each element. -/
  | vfneg (d : BitVec 5) (a : BitVec 5) (m : BitVec 3) (esz : BitVec 2)
  /-- R271. Copies the sign of B onto A. -/
  | vfcpysVv (d : BitVec 5) (a : BitVec 5) (b : BitVec 5) (m : BitVec 3) (esz : BitVec 2)
  /-- R272. Writes a one-hot class code per element. -/
  | vfclass (d : BitVec 5) (a : BitVec 5) (m : BitVec 3) (esz : BitVec 2)
  /-- R270. Floating-point vector–scalar add. -/
  | vfaddVs (d : BitVec 5) (a : BitVec 5) (b : BitVec 5) (m : BitVec 3) (esz : BitVec 2)
  /-- R270. Floating-point vector–scalar subtract. -/
  | vfsubVs (d : BitVec 5) (a : BitVec 5) (b : BitVec 5) (m : BitVec 3) (esz : BitVec 2)
  /-- R270. Floating-point vector–scalar multiply. -/
  | vfmulVs (d : BitVec 5) (a : BitVec 5) (b : BitVec 5) (m : BitVec 3) (esz : BitVec 2)
  /-- R270. Fused D + A × scalar. -/
  | vfmaVs (d : BitVec 5) (a : BitVec 5) (b : BitVec 5) (m : BitVec 3) (esz : BitVec 2)
  /-- R270. Fused D − A × scalar. -/
  | vfmsVs (d : BitVec 5) (a : BitVec 5) (b : BitVec 5) (m : BitVec 3) (esz : BitVec 2)
  /-- R270. Fused A × scalar − D. -/
  | vfnmaVs (d : BitVec 5) (a : BitVec 5) (b : BitVec 5) (m : BitVec 3) (esz : BitVec 2)
  /-- R271. minimumNumber with a scalar. -/
  | vfminVs (d : BitVec 5) (a : BitVec 5) (b : BitVec 5) (m : BitVec 3) (esz : BitVec 2)
  /-- R271. maximumNumber with a scalar. -/
  | vfmaxVs (d : BitVec 5) (a : BitVec 5) (b : BitVec 5) (m : BitVec 3) (esz : BitVec 2)
  /-- R270. Floating-point vector–scalar divide. -/
  | vfdivVs (d : BitVec 5) (a : BitVec 5) (b : BitVec 5) (m : BitVec 3) (esz : BitVec 2)
  /-- R271. Copies the sign of a scalar onto each element. -/
  | vfcpysVs (d : BitVec 5) (a : BitVec 5) (b : BitVec 5) (m : BitVec 3) (esz : BitVec 2)
  /-- R275. Vector move. -/
  | vmov (d : BitVec 5) (a : BitVec 5) (m : BitVec 3) (esz : BitVec 2)
  /-- R275. Broadcasts wb to every element. -/
  | vbcst (d : BitVec 5) (b : BitVec 5) (m : BitVec 3) (esz : BitVec 2)
  /-- R276. Extracts element wb into wd. -/
  | vext (d : BitVec 5) (a : BitVec 5) (b : BitVec 5) (esz : BitVec 2)
  /-- R276. Inserts wa into element wb of vd. -/
  | vins (d : BitVec 5) (a : BitVec 5) (b : BitVec 5) (esz : BitVec 2)
  /-- R275. Selects a or b elements by mask. -/
  | vsel (d : BitVec 5) (a : BitVec 5) (b : BitVec 5) (m : BitVec 3) (esz : BitVec 2)
  /-- R275. Permutes by index vector. -/
  | vperm (d : BitVec 5) (a : BitVec 5) (b : BitVec 5) (m : BitVec 3) (esz : BitVec 2)
  /-- R275. Rotates elements by wb. -/
  | vrot (d : BitVec 5) (a : BitVec 5) (b : BitVec 5) (m : BitVec 3) (esz : BitVec 2)
  /-- R275. Interleaves the low halves of va and vb. -/
  | vzip (d : BitVec 5) (a : BitVec 5) (b : BitVec 5) (m : BitVec 3) (esz : BitVec 2)
  /-- R275. Keeps the even elements of va then vb. -/
  | vunzip (d : BitVec 5) (a : BitVec 5) (b : BitVec 5) (m : BitVec 3) (esz : BitVec 2)
  /-- R275. Writes each element index. -/
  | viota (d : BitVec 5) (m : BitVec 3) (esz : BitVec 2)
  /-- R277. Integer sum reduction. -/
  | vradd (d : BitVec 5) (a : BitVec 5) (m : BitVec 3) (esz : BitVec 2)
  /-- R277. Signed maximum reduction. -/
  | vrmax (d : BitVec 5) (a : BitVec 5) (m : BitVec 3) (esz : BitVec 2)
  /-- R277. Signed minimum reduction. -/
  | vrmin (d : BitVec 5) (a : BitVec 5) (m : BitVec 3) (esz : BitVec 2)
  /-- R277. Unsigned maximum reduction. -/
  | vrmaxu (d : BitVec 5) (a : BitVec 5) (m : BitVec 3) (esz : BitVec 2)
  /-- R277. Unsigned minimum reduction. -/
  | vrminu (d : BitVec 5) (a : BitVec 5) (m : BitVec 3) (esz : BitVec 2)
  /-- R278. Floating-point sum over a fixed pairwise tree. -/
  | vrfadd (d : BitVec 5) (a : BitVec 5) (m : BitVec 3) (esz : BitVec 2)
  /-- R278. Floating-point maximum reduction. -/
  | vrfmax (d : BitVec 5) (a : BitVec 5) (m : BitVec 3) (esz : BitVec 2)
  /-- R278. Floating-point minimum reduction. -/
  | vrfmin (d : BitVec 5) (a : BitVec 5) (m : BitVec 3) (esz : BitVec 2)
  /-- R277. Counts set bits of active elements. -/
  | vpopc (d : BitVec 5) (a : BitVec 5) (m : BitVec 3) (esz : BitVec 2)
  /-- R277. Lowest index of an active non-zero element. -/
  | vfirst (d : BitVec 5) (a : BitVec 5) (m : BitVec 3) (esz : BitVec 2)
  /-- R279. Integer equal compare into a mask. -/
  | vcmpEq (d : BitVec 5) (a : BitVec 5) (b : BitVec 5) (m : BitVec 3) (esz : BitVec 2)
  /-- R279. Integer not-equal compare into a mask. -/
  | vcmpNe (d : BitVec 5) (a : BitVec 5) (b : BitVec 5) (m : BitVec 3) (esz : BitVec 2)
  /-- R279. Signed less-than compare. -/
  | vcmpLt (d : BitVec 5) (a : BitVec 5) (b : BitVec 5) (m : BitVec 3) (esz : BitVec 2)
  /-- R279. Signed less-or-equal compare. -/
  | vcmpLe (d : BitVec 5) (a : BitVec 5) (b : BitVec 5) (m : BitVec 3) (esz : BitVec 2)
  /-- R279. Unsigned less-than compare. -/
  | vcmpLtu (d : BitVec 5) (a : BitVec 5) (b : BitVec 5) (m : BitVec 3) (esz : BitVec 2)
  /-- R279. Unsigned less-or-equal compare. -/
  | vcmpLeu (d : BitVec 5) (a : BitVec 5) (b : BitVec 5) (m : BitVec 3) (esz : BitVec 2)
  /-- R279. Floating-point equal compare. -/
  | vcmpFeq (d : BitVec 5) (a : BitVec 5) (b : BitVec 5) (m : BitVec 3) (esz : BitVec 2)
  /-- R279. Floating-point less-than compare. -/
  | vcmpFlt (d : BitVec 5) (a : BitVec 5) (b : BitVec 5) (m : BitVec 3) (esz : BitVec 2)
  /-- R279. Floating-point less-or-equal compare. -/
  | vcmpFle (d : BitVec 5) (a : BitVec 5) (b : BitVec 5) (m : BitVec 3) (esz : BitVec 2)
  /-- R279. Floating-point unordered compare. -/
  | vcmpFun (d : BitVec 5) (a : BitVec 5) (b : BitVec 5) (m : BitVec 3) (esz : BitVec 2)
  /-- R280. md := ma AND mb. -/
  | mand (d : BitVec 5) (a : BitVec 5) (b : BitVec 5)
  /-- R280. md := ma OR mb. -/
  | mor (d : BitVec 5) (a : BitVec 5) (b : BitVec 5)
  /-- R280. md := ma XOR mb. -/
  | mxor (d : BitVec 5) (a : BitVec 5) (b : BitVec 5)
  /-- R280. md := ma AND NOT mb. -/
  | mandn (d : BitVec 5) (a : BitVec 5) (b : BitVec 5)
  /-- R280. md := NOT ma. -/
  | mnot (d : BitVec 5) (a : BitVec 5)
  /-- R280. md := the lowest min(wa, 64) bits set. -/
  | mfirstn (d : BitVec 5) (a : BitVec 5)
  /-- R280. wd := number of set bits of ma. -/
  | mcnt (d : BitVec 5) (a : BitVec 5)
  /-- R255. Converts vector elements between formats with a rounding mode and saturation. -/
  | vcvt (d : BitVec 5) (a : BitVec 5) (rm : BitVec 3) (dst : BitVec 4) (src : BitVec 4) (sat : Bool)
  /-- R258. Quantises 64 FP32 lanes into two blocks and their scales. -/
  | qnt (d : BitVec 5) (a : BitVec 5) (b : BitVec 5) (tgt : BitVec 3) (rm : BitVec 3) (sat : Bool)
  /-- R259. Dequantises two blocks to FP32. -/
  | dqt (d : BitVec 5) (a : BitVec 5) (b : BitVec 5) (tgt : BitVec 3)
  /-- R257. Finds the largest magnitude of each 32-lane block. -/
  | bamax (d : BitVec 5) (a : BitVec 5)
  /-- R257. Derives block scale codes from two block maxima. -/
  | scld (d : BitVec 5) (a : BitVec 5) (tgt : BitVec 3)
  /-- R296. Takes the tile's matrix claim, waiting if another holds it. -/
  | macq
  /-- R296. Closes open groups and releases the matrix claim. -/
  | mrel
  /-- R296. Closes the open group and zeroes an accumulator. -/
  | mzero (a : BitVec 5)
  /-- R296. Closes the open group and reads an accumulator row into a vector. -/
  | mrd (d : BitVec 5) (a : BitVec 5) (b : BitVec 5)
  /-- R296. Closes the open group and writes an accumulator row from a vector. -/
  | mwr (d : BitVec 5) (a : BitVec 5) (b : BitVec 5)
  /-- R296. Writes an accumulator's B-scale register. -/
  | mscl (d : BitVec 5) (a : BitVec 5)
  /-- R297. Reads an accumulator's rerun and group summary. -/
  | mchk (d : BitVec 5) (a : BitVec 5)
  /-- R296. Sets the skip pointer e6. -/
  | sset (a : BitVec 5)
  /-- R299. Multiplies A by tile-store B rows into an accumulator's exact K-group. -/
  | mma (d : BitVec 5) (a : BitVec 5) (b : BitVec 5) (fmt : BitVec 4) (inc : Bool) (sp : Bool) (init : Bool)
  /-- R300. Loads two tile-store rows into a vector. -/
  | tsld (d : BitVec 5)
  /-- R300. Stores a vector into two tile-store rows. -/
  | tsst (a : BitVec 5)
  /-- R300. Fills wb row pairs of the tile store with a vector. -/
  | tsfill (a : BitVec 5) (b : BitVec 5)
  /-- R314. Issues a box copy. -/
  | cpy
  /-- R315. Issues a copy that deals blocks to several target VTs. -/
  | cpyd
  /-- R316. Issues a gather copy through an index list. -/
  | cpyx
  /-- R317. Issues a copy into a tile store. -/
  | cpyts
  /-- R318. Issues an FP32 reduce-add copy. -/
  | cpyr
  /-- R319. Issues a copy that pushes its stream into a queue of the issuing tile. -/
  | cpyq (d : BitVec 5)
  /-- R367. Declares or releases a mirrored region. -/
  | ckdecl (d : BitVec 5) (a : BitVec 5) (b : BitVec 5)
  /-- R368. Declares or releases a sourced region. -/
  | srcdecl (d : BitVec 5) (a : BitVec 5) (b : BitVec 5)
  /-- R369. Folds a value into the screening signature. -/
  | sgadd (a : BitVec 5)
  /-- R369. Reads the screening signature. -/
  | sgqry (d : BitVec 5)
  /-- R370. Reads an ageing counter. -/
  | agerd (d : BitVec 5) (a : BitVec 5)
  /-- R370. Reads a power item. -/
  | pwrrd (d : BitVec 5) (a : BitVec 5)
  /-- R371. Writes the tile's throttle. -/
  | pwrw (a : BitVec 5) (b : BitVec 5)
  /-- R370. Reads a rotation item. -/
  | rtqry (d : BitVec 5) (a : BitVec 5)
  /-- R376. Reads a CSR. -/
  | csrr (d : BitVec 5) (csr : BitVec 12)
  /-- R376. Writes a CSR. -/
  | csrw (a : BitVec 5) (csr : BitVec 12)
  /-- R376. Sets CSR bits, returning the old value. -/
  | csrs (d : BitVec 5) (a : BitVec 5) (csr : BitVec 12)
  /-- R376. Clears CSR bits, returning the old value. -/
  | csrc (d : BitVec 5) (a : BitVec 5) (csr : BitVec 12)
  /-- R384. Resumes a parked activation named by its handle. -/
  | tresume (d : BitVec 5) (a : BitVec 5) (b : BitVec 5)
  /-- R384. Aborts a parked activation with an A-class cause. -/
  | tabort (d : BitVec 5) (a : BitVec 5) (b : BitVec 5)
  /-- R388. Installs a TLB entry image in the die cache and an L1 or distributor TLB. -/
  | tlbfill (d : BitVec 5) (a : BitVec 5) (b : BitVec 5)
  /-- R389. Invalidates matching translation entries within its reach. -/
  | tlbinv (a : BitVec 5) (b : BitVec 5)
  /-- R391. Switches a firmware core's context to another workspace. -/
  | wssw (a : BitVec 5)
  /-- R385. Parks the activation with cause SVC. -/
  | svc (a : BitVec 5)
  /-- R385. Parks with cause BREAK and may trigger a halt group. -/
  | brk
  /-- R395. Triggers or releases a halt group. -/
  | halt (a : BitVec 5) (b : BitVec 5)
  /-- R392. Stops a firmware core's issue until a trap record or halt release. -/
  | idle
  /-- R393. Firmware control of beam leaf excuse, membership and group assignment. -/
  | bmmask (a : BitVec 5) (b : BitVec 5)
  /-- R35. Permanently undefined word that traps ILLEGAL. -/
  | udf (x : BitVec 24)
  /-- R35. Halfword 0x0000 that traps ILLEGAL. -/
  | ill
  /-- R43. Compact no-operation. -/
  | cNop
  /-- R43. Compact nend. -/
  | cNend
  /-- R43. Compact ret. -/
  | cRet
  /-- R97. wd := wa for w0–w15. -/
  | cMov (d : BitVec 4) (a : BitVec 4)
  /-- R97. Adds a signed 8-bit immediate. -/
  | cAddi (d : BitVec 4) (imm : BitVec 8)
  /-- R97. Loads a signed 8-bit immediate. -/
  | cLi (d : BitVec 4) (imm : BitVec 8)
  /-- R97. Compact add. -/
  | cAdd (d : BitVec 4) (a : BitVec 4) (b : BitVec 4)
  /-- R97. Compact subtract. -/
  | cSub (d : BitVec 4) (a : BitVec 4) (b : BitVec 4)
  /-- R43. Compact 64-bit LM load. -/
  | cLdw (d : BitVec 4) (a : BitVec 4) (off : BitVec 4)
  /-- R43. Compact 64-bit LM store. -/
  | cStw (t : BitVec 4) (a : BitVec 4) (off : BitVec 4)
  /-- R43. Branches when wa = 0. -/
  | cBeqz (a : BitVec 4) (off : BitVec 8)
  /-- R43. Branches when wa ≠ 0. -/
  | cBnez (a : BitVec 4) (off : BitVec 8)
  /-- R43. Compact unconditional branch. -/
  | cBr (off : BitVec 12)
  /-- R97. Compact shift left by an immediate. -/
  | cShli (d : BitVec 4) (amt : BitVec 6)
  /-- R421. A host write to SQTAIL makes submission records pending or marks the queue disabled or overrun. -/
  | sqtailNotify (p : Nat) (q : Nat) (v : BitVec 32)
  /-- R422. The queue mapper maps a waiting queue into a freed active slot. -/
  | queueSlotMap (p : Nat)
  /-- R203. The launch unit takes a LAUNCH record, checks and installs the graph, arms every node and fires the roots. -/
  | launchRecord (p : Nat)
  /-- R211. A HALT record stops READY nodes of a graph from starting. -/
  | haltRecord (p : Nat)
  /-- R211. A RESUME record lifts a HALT. -/
  | resumeRecord (p : Nat)
  /-- R211. A CANCEL record cancels the graph's unfired nodes with HOST origin and unbinds its events. -/
  | cancelRecord (p : Nat)
  /-- R423. A host write to CQHEAD frees completion ring space, letting a held completion record be written. -/
  | cqhead (p : Nat) (q : Nat) (v : BitVec 32)
  /-- R223. The issue selector starts a READY node in a free slot, allocating and zeroing its workspace. -/
  | nodeStart (dt : Nat) (stg : Bool)
  /-- R79. A ready urgent node starts, taking a free slot or displacing a normal activation. -/
  | urgentStart (dt : Nat) (stg : Bool)
  /-- R224. Once the release is performed and acknowledged, the graph engine prepares outgoing items and the bead split. -/
  | commit (key : Nat)
  /-- R225. An acknowledged borrow raises G0 by 2^32 and lets the stalled commit continue. -/
  | borrow (key : Nat)
  /-- R341. The partner's epoch acknowledgement lets the commit's tokens leave and its deferred adds be performed. -/
  | epochAck (dt : Nat)
  /-- R217. A plain, payload or cancel token is delivered at its target slot as one indivisible step. -/
  | token (n : Nat)
  /-- R350. A restore item from a refired REPRODUCE producer arrives at a restored consumer. -/
  | restoreItem (n : Nat)
  /-- R208. Returned beads are added to G1 at the graph record's home and reported to the launch unit. -/
  | beadReturn (n : Nat)
  /-- R326. A FAULTED node returns to READY once every copy of the aborted attempt has ended. -/
  | nodeRetry (key : Nat)
  /-- R67. The activation's cycle count reaches its budget and it takes BUDGET. -/
  | budgetExpiry (key : Nat)
  /-- R131. A response to an outstanding load, atomic or write arrives, writing its destination or delivering a
  completion-time fault. -/
  | accessResponse (n : Nat)
  /-- R380. A trap message is written into a firmware core's trap ring once there is room. -/
  | trapMessage (n : Nat)
  /-- R188. A remote rod add reaches its target rod and is performed there. -/
  | remoteRodAdd (n : Nat)
  /-- R310. A copy's expected byte count is posted to a rod's hidden pending count. -/
  | copyPost (c : Nat)
  /-- R304. A segment arrives as an active message at its source engine, which reads and sends the bytes. -/
  | copySegment (c : Nat)
  /-- R310. Copied bytes are performed at their destination and credited to the rod. -/
  | segmentDelivery (c : Nat) (k : Nat)
  /-- R319. A cpyq engine pushes a 256-byte entry once the queue has room. -/
  | copyQueuePush (c : Nat)
  /-- R320. A copy ends, its undelivered bytes leave P and its completion record is written or its failure aborts the issuer. -/
  | copyEnd (c : Nat)
  /-- R195. A leaf's raise of UP reaches the panel root of its group. -/
  | beamRaise (p : Nat) (g : Nat) (vt : Nat)
  /-- R194. A release reaches a leaf, setting GEN and clearing ARR and UP of members. -/
  | beamRelease (p : Nat) (g : Nat) (vt : Nat)
  /-- R196. A router of a die segment dies and the beam starts re-combining around it. -/
  | routerDeath (p : Nat) (pt : Nat)
  /-- R196. The re-combined segment resumes passing held raises and releases. -/
  | beamRecombine (p : Nat) (die : Nat)
  /-- R329. A GO to ROTCMD starts a planned rotation, or is refused. -/
  | rotcmdGo (p : Nat) (die : Nat) (v : BitVec 64)
  /-- R332. A GO with EMERG = 1 starts an emergency rotation or a restore after loss. -/
  | rotcmdEmerg (p : Nat) (die : Nat) (v : BitVec 64)
  /-- R331. No activation is running or committing and every copy has ended, so the state copy begins. -/
  | drainEnd (p : Nat) (die : Nat)
  /-- R332. The drain limit expires and running activations are suspended. -/
  | drainLimitExpiry (p : Nat) (die : Nat)
  /-- R335. The state copy ends and the map generation rises at the outgoing and incoming routers. -/
  | remap (p : Nat) (die : Nat)
  /-- R335. A router applies the new map generation and sends its marker to the outgoing PT. -/
  | mapGenerationApply (p : Nat) (r : Nat)
  /-- R335. A router's marker is forwarded to the incoming router, releasing that router's held messages. -/
  | marker (p : Nat) (r : Nat)
  /-- R356. A PT's self-test ends and it becomes Spare or Retired. -/
  | selfTestDone (p : Nat) (pt : Nat) (pass : Bool) (vmin : BitVec 64)
  /-- R340. A change not yet in any epoch is sent in an epoch within 2,400 router cycles. -/
  | epochTimer (dt : Nat)
  /-- R341. The partner applies a wholly received epoch and sends the acknowledgements. -/
  | epochApply (dt : Nat)
  /-- R342. A durability acknowledgement frees the sender's retention record. -/
  | durableAck (n : Nat)
  /-- R346. A tile takes an uncorrectable logic failure and its VT is lost. -/
  | tileLoss (p : Nat) (pt : Nat)
  /-- R347. A restore notice makes a tile resend its unacknowledged requests to the VT. -/
  | restoreNotice (dt : Nat) (lost : Nat)
  /-- R347. 48,000 router cycles after the notice, the spare resends its retention records and resumes. -/
  | restoreResend (dt : Nat)
  /-- R355. When both original and replica reach nend, their signatures are compared. -/
  | screenCompare (key : Nat)
  /-- R359. 240,000 counted silent router cycles send a probe to the tile. -/
  | silenceProbe (p : Nat) (pt : Nat)
  /-- R359. A tile answers its probe and goes to targeted self-test. -/
  | probeAnswer (p : Nat) (pt : Nat)
  /-- R359. A probe unanswered within 24,000 router cycles makes the VT lost. -/
  | probeTimeout (p : Nat) (pt : Nat)
  /-- R362. The die power controller grants quanta to a tile's reserve. -/
  | quantaGrant (dt : Nat)
  /-- R362. A tile above HIGH passes its excess to the neighbour with the lowest reserve. -/
  | reserveShare (dt : Nat)
  /-- R153. A GO to MIGDST starts migrating the page MIGSRC names, or is refused. -/
  | migrationGo (p : Nat) (die : Nat) (v : BitVec 64)
  /-- R153. A migration round ends and the page switches, freezes, recopies or pauses under a lease. -/
  | migrationRoundEnd (p : Nat) (die : Nat)
  /-- R377. PTCMD op 1 assigns a Spare PT the Replica role for a VT. -/
  | ptcmdSpareToReplica (p : Nat) (die : Nat) (v : BitVec 64)
  /-- R377. PTCMD op 2 returns a Replica PT to Spare. -/
  | ptcmdReplicaToSpare (p : Nat) (die : Nat) (v : BitVec 64)
  /-- R377. PTCMD op 3 sends a Spare PT to self-test. -/
  | ptcmdSpareToSelfTest (p : Nat) (die : Nat) (v : BitVec 64)
  /-- R363. A write to L2GATE gates L2 ways after writing back their dirty lines. -/
  | l2gate (p : Nat) (die : Nat) (v : BitVec 64)
  /-- R248. A write to SEED sets the rounding stream state, zero giving 1. -/
  | seedWrite (v : BitVec 64)
  /-- R236. A bound performance or power counter reaches its threshold and a token is sent. -/
  | counterEvent (dt : Nat) (b : Nat)
  /-- R392. An idle firmware core resumes issue on a trap record or halt release. -/
  | idleWake (fw : Nat)
  /-- R394. The debugger triggers or releases a halt group through the management controller. -/
  | debuggerTrigger (p : Nat) (g : Nat) (rel : Bool)
  /-- R435. The management controller resets a stopped firmware core and reloads its image. -/
  | firmwareCoreReset (fw : Nat)
  /-- R424. A fabric flit is received and accepted, discarded or acknowledged. -/
  | flit (p : Nat) (port : Nat) (seq : BitVec 16) (ack : BitVec 16) (crcOk : Bool) (room : Bool) (lane : Nat)
  /-- R424. A replay request makes the sender replay from the expected sequence number. -/
  | replayRequest (p : Nat) (port : Nat) (e : BitVec 16)
  /-- R424. An idle flit carrying the acknowledgement is sent at least every 256 router cycles. -/
  | idleFlit (p : Nat) (port : Nat)
  /-- R425. A retrain ends and held flits are replayed, or the port goes down. -/
  | retrainEnd (p : Nat) (port : Nat) (good : Nat)
  /-- R427. The management controllers shrink a panel out of the domain before tray removal. -/
  | panelShrink (p : Nat)
  /-- R430. The management controller runs the boot steps in order. -/
  | boot (p : Nat) (rep : BootReport)
  /-- R429. A write to CAPW sets the module power cap. -/
  | capw (p : Nat) (v : BitVec 16)
  /-- R429. A write to SWBRAKE applies or removes the emergency brake. -/
  | swbrake (p : Nat) (on : Bool)
  /-- R429. A change of the brake input applies or removes the brake when PINEN is 1. -/
  | brkpin (p : Nat) (on : Bool)
  /-- R436. An SPDM request over the DOE mailbox returns a signed attestation report. -/
  | attestationRequest (p : Nat) (nonce : BitVec 256)
  /-- R419. A host CXL request is passed to its bridge and performed in arrival order. -/
  | hostRequest (p : Nat) (req : HostAccess)
  /-- R420. The host asks firmware through the mailbox to assign a queue owner or host ranges. -/
  | mailboxRequest (p : Nat) (req : MailboxRequest)
  /-- R158. A memory error is corrected and counted or poisons its word, line or slice. -/
  | eccError (place : EccPlace) (correctable : Bool)
  /-- R5. A write to a register with no behaviour of its own sets its writable fields. -/
  | registerWrite (p : Nat) (off : Nat) (v : BitVec 64)
  /-- R427. After a new tray has booted, the management controllers run the shrink steps in reverse to bring its panel back
  into the domain. -/
  | trayAddBack (p : Nat)
  /-- R427. Power is removed from a tray whose status shows SAFE. -/
  | powerRemoval (p : Nat)
deriving DecidableEq, Repr

end Sys2Proof
end

