-- ==== Sys2Proof/WellFormed.lean ====
section
/-! DEFINITION. The register classes and the combinations of fields that R33 makes illegal, beyond an opcode
that no table assigns and a must-be-zero field that is not zero (those two Sys2Proof/Decode.lean refuses, since
an Instr has no place for them). A word whose Instr fails WellFormed takes the ILLEGAL trap. -/

namespace Sys2Proof.WellFormed

/-- A field that names one of eight extension registers, masks or queues (R33: 8-31 illegal). -/
def low8 (x : BitVec 5) : Bool := x.ult 8

/-- A field that names `v0`-`v15`, a recipe 0-15, or a destination that may not be a queue (R108, R120, R143). -/
def low16 (x : BitVec 5) : Bool := x.ult 16

/-- A vector field: `v0`-`v15` or `q0`-`q7`; 24-31 are illegal (R32). -/
def vecField (x : BitVec 5) : Bool := x.ult 24

/-- A vector destination under a governing mask: a queue only when `m0` governs (R143, R262). -/
def vecDest (d : BitVec 5) (m : BitVec 3) : Bool := d.ult 16 || (d.ult 24 && m == 0)

/-- A `w` register code for `sext` and `zext`: width codes 0-2 (R37). -/
def widthCode (b : BitVec 5) : Bool := b.ult 3

/-- An immediate shift: W = 1 with an amount of 32-63 is illegal (R94). -/
def shiftAmount (w : Bool) (amt : BitVec 6) : Bool := !w || amt.ult 32

/-- A written mask: `m1`-`m7` (R33). -/
def writtenMask (d : BitVec 5) : Bool := d.ult 8 && d != 0

/-- The length of a recipe: 1-4 words (R120). -/
def recipeLen (b : BitVec 5) : Bool := b.ult 5 && b != 0

/-- A register of class 0 (`w16`-`w31`) or 1 (`v0`-`v15`) (R120). -/
def taggable (d b : BitVec 5) : Bool := (b == 0 && !d.ult 16) || (b == 1 && d.ult 16)

/-- Strided and indexed vector accesses have elements of 4 or 8 bytes (R143). -/
def wideElement (esz : BitVec 2) : Bool := !esz.ult 2

/-- A rod field: `k0`-`k95` (R185). -/
def rodField (k : BitVec 7) : Bool := k.ult 96

/-- Rounding codes 0-4 (R42). -/
def rounding (rm : BitVec 3) : Bool := rm.ult 5

/-- Format codes 0-10 of `vcvt` and `mma` (R42). -/
def formatCode (f : BitVec 4) : Bool := f.ult 11

/-- Target codes 0-5 (R42). -/
def target (t : BitVec 3) : Bool := t.ult 6

/-- The width in bits of a `vcvt` format code (R239, R241, R42). -/
def formatWidth (f : BitVec 4) : Nat :=
  match f.toNat with
  | 0 => 64 | 1 => 32 | 2 => 16 | 3 => 16 | 4 => 8 | 5 => 8 | 6 => 4 | 7 => 32 | 8 => 16 | _ => 8

/-- A `vcvt` destination: a narrowing conversion reads vd, which may then not be a queue (R254, R255). -/
def convDest (d : BitVec 5) (dst src : BitVec 4) : Bool :=
  d.ult 16 || (d.ult 24 && decide (formatWidth src ≤ formatWidth dst))

/-- An accumulator field: `a0`-`a3` (R33). -/
def accField (x : BitVec 5) : Bool := x.ult 4

/-- The b field of `mma`: a vector field for the block formats 6-10, else zero (R298). -/
def scaleField (fmt : BitVec 4) (b : BitVec 5) : Bool := if fmt.ult 6 then b == 0 else vecField b

/-- The d field of `cpyq`: a queue code 16-23 (R312). -/
def queueField (d : BitVec 5) : Bool := d.ult 24 && !d.ult 16

/-- The CSR numbers that the map assigns (R377). -/
def csrAssigned (c : BitVec 12) : Bool :=
  let n := c.toNat
  (1 ≤ n && n ≤ 5) || (0x400 ≤ n && n ≤ 0x404) || (0x410 ≤ n && n ≤ 0x414) || (0xC00 ≤ n && n ≤ 0xC07)
    || (0xF00 ≤ n && n ≤ 0xF02)

/-- The assigned CSRs whose access is not R (R376, R377): a write to any other traps ILLEGAL. -/
def csrWritable (c : BitVec 12) : Bool :=
  let n := c.toNat
  (1 ≤ n && n ≤ 4) || n == 0x400 || n == 0x401 || n == 0x403 || n == 0x404 || (0x410 ≤ n && n ≤ 0x414)

end Sys2Proof.WellFormed

namespace Sys2Proof

open WellFormed in
/-- The check of R33 on an instruction's fields. An event has no word, so nothing about it can be illegal. -/
def Instr.wellFormed : Instr → Bool
  | .br _ => true
  | .call _ => true
  | .beq _ _ _ => true
  | .bne _ _ _ => true
  | .blt _ _ _ => true
  | .bge _ _ _ => true
  | .bltu _ _ _ => true
  | .bgeu _ _ _ => true
  | .bbs _ _ _ => true
  | .bbc _ _ _ => true
  | .jt _ _ => true
  | .lpad _ => true
  | .ret => true
  | .nend => true
  | .nabort _ => true
  | .maskw => true
  | .unmaskw => true
  | .rep _ _ _ _ _ => true
  | .add _ _ _ _ => true
  | .sub _ _ _ _ => true
  | .and _ _ _ _ => true
  | .or _ _ _ _ => true
  | .xor _ _ _ _ => true
  | .andn _ _ _ _ => true
  | .shl _ _ _ _ => true
  | .shr _ _ _ _ => true
  | .sha _ _ _ _ => true
  | .ror _ _ _ _ => true
  | .mul _ _ _ _ => true
  | .mulh _ _ _ _ => true
  | .mulhu _ _ _ _ => true
  | .div _ _ _ _ => true
  | .divu _ _ _ _ => true
  | .rem _ _ _ _ => true
  | .remu _ _ _ _ => true
  | .min _ _ _ _ => true
  | .max _ _ _ _ => true
  | .minu _ _ _ _ => true
  | .maxu _ _ _ _ => true
  | .slt _ _ _ _ => true
  | .sltu _ _ _ _ => true
  | .seq _ _ _ _ => true
  | .clz _ _ _ => true
  | .ctz _ _ _ => true
  | .popc _ _ _ => true
  | .brev _ _ _ => true
  | .bswap _ _ _ => true
  | .sext _ _ b => widthCode b
  | .zext _ _ b => widthCode b
  | .adds1 _ _ _ _ => true
  | .adds2 _ _ _ _ => true
  | .adds3 _ _ _ _ => true
  | .vta _ _ _ => true
  | .sel _ _ _ => true
  | .addi _ _ _ => true
  | .andi _ _ _ => true
  | .ori _ _ _ => true
  | .xori _ _ _ => true
  | .lih _ _ => true
  | .shli _ _ w amt => shiftAmount w amt
  | .shri _ _ w amt => shiftAmount w amt
  | .shai _ _ w amt => shiftAmount w amt
  | .rori _ _ w amt => shiftAmount w amt
  | .addpc _ _ => true
  | .mfi _ _ => true
  | .mfe _ b => low8 b
  | .mte d _ => low8 d
  | .mfm _ b => low8 b
  | .mtm d _ => writtenMask d
  | .mfqc _ b => low8 b
  | .wsa _ => true
  | .lde d _ _ => low8 d
  | .rcpDef d b => low16 d && recipeLen b
  | .rcpTagW d a => !low16 d && low16 a
  | .rcpTagV d a => low16 d && low16 a
  | .rcpUntag d b => taggable d b
  | .rcpDrop d b => taggable d b
  | .rcpMat d b => taggable d b
  | .rcpClr d => low16 d
  | .ldL _ _ _ _ _ => true
  | .stL _ _ _ _ _ => true
  | .ldG _ _ _ _ _ => true
  | .stG _ _ _ _ _ => true
  | .ldT _ _ _ _ _ => true
  | .stT _ _ _ _ _ => true
  | .vldL d _ m _ => vecDest d m
  | .vldG d _ m _ => vecDest d m
  | .vldT d _ m _ => vecDest d m
  | .vldsL d _ _ m esz => vecDest d m && wideElement esz
  | .vldsG d _ _ m esz => vecDest d m && wideElement esz
  | .vldxL d _ b m esz => vecDest d m && wideElement esz && vecField b
  | .vldxG d _ b m esz => vecDest d m && wideElement esz && vecField b
  | .vstL d _ _ _ => low16 d
  | .vstG d _ _ _ => low16 d
  | .vstT d _ _ _ => low16 d
  | .vstsL d _ _ _ esz => low16 d && wideElement esz
  | .vstsG d _ _ _ esz => low16 d && wideElement esz
  | .vstxL d _ b _ esz => low16 d && wideElement esz && vecField b
  | .vstxG d _ b _ esz => low16 d && wideElement esz && vecField b
  | .tchR _ _ _ => true
  | .tchW _ _ _ => true
  | .trel _ => true
  | .prefG _ => true
  | .aaddL _ _ _ _ _ _ => true
  | .aandL _ _ _ _ _ _ => true
  | .aorL _ _ _ _ _ _ => true
  | .axorL _ _ _ _ _ _ => true
  | .aminL _ _ _ _ _ _ => true
  | .amaxL _ _ _ _ _ _ => true
  | .aminuL _ _ _ _ _ _ => true
  | .amaxuL _ _ _ _ _ _ => true
  | .aswpL _ _ _ _ _ _ => true
  | .acasL _ _ _ _ _ _ => true
  | .afaddL _ _ _ _ _ _ => true
  | .aaddKL _ _ _ _ _ => true
  | .aaddT _ _ _ _ _ _ => true
  | .aandT _ _ _ _ _ _ => true
  | .aorT _ _ _ _ _ _ => true
  | .axorT _ _ _ _ _ _ => true
  | .aminT _ _ _ _ _ _ => true
  | .amaxT _ _ _ _ _ _ => true
  | .aminuT _ _ _ _ _ _ => true
  | .amaxuT _ _ _ _ _ _ => true
  | .aswpT _ _ _ _ _ _ => true
  | .acasT _ _ _ _ _ _ => true
  | .afaddT _ _ _ _ _ _ => true
  | .aaddKT _ _ _ _ _ => true
  | .aaddG _ _ _ _ _ _ => true
  | .aandG _ _ _ _ _ _ => true
  | .aorG _ _ _ _ _ _ => true
  | .axorG _ _ _ _ _ _ => true
  | .aminG _ _ _ _ _ _ => true
  | .amaxG _ _ _ _ _ _ => true
  | .aminuG _ _ _ _ _ _ => true
  | .amaxuG _ _ _ _ _ _ => true
  | .aswpG _ _ _ _ _ _ => true
  | .acasG _ _ _ _ _ _ => true
  | .afaddG _ _ _ _ _ _ => true
  | .aaddKG _ _ _ _ _ => true
  | .stM _ _ _ _ _ => true
  | .radd _ rod => rodField rod
  | .rset _ rod => rodField rod
  | .rget _ rod => rodField rod
  | .rarm _ rod => rodField rod
  | .rwait rod => rodField rod
  | .rtest _ rod => rodField rod
  | .barr rod => rodField rod
  | .bwait rod => rodField rod
  | .rrmt _ _ => true
  | .rrmtK _ _ => true
  | .raddX _ _ => true
  | .waitm _ b => low8 b
  | .bmjoin _ _ => true
  | .bmarr _ => true
  | .bmwait _ => true
  | .bmq _ _ => true
  | .bmleave _ => true
  | .tok _ => true
  | .tokv _ _ b => vecField b
  | .ncan _ => true
  | .narm _ _ => true
  | .ndef _ _ _ => true
  | .nqry _ _ => true
  | .evb _ _ _ => true
  | .evu _ _ => true
  | .vaddVv d a b m _ => vecDest d m && vecField a && vecField b
  | .vsubVv d a b m _ => vecDest d m && vecField a && vecField b
  | .vmulVv d a b m _ => vecDest d m && vecField a && vecField b
  | .vmulhVv d a b m _ => vecDest d m && vecField a && vecField b
  | .vminVv d a b m _ => vecDest d m && vecField a && vecField b
  | .vmaxVv d a b m _ => vecDest d m && vecField a && vecField b
  | .vminuVv d a b m _ => vecDest d m && vecField a && vecField b
  | .vmaxuVv d a b m _ => vecDest d m && vecField a && vecField b
  | .vandVv d a b m _ => vecDest d m && vecField a && vecField b
  | .vorVv d a b m _ => vecDest d m && vecField a && vecField b
  | .vxorVv d a b m _ => vecDest d m && vecField a && vecField b
  | .vshlVv d a b m _ => vecDest d m && vecField a && vecField b
  | .vshrVv d a b m _ => vecDest d m && vecField a && vecField b
  | .vshaVv d a b m _ => vecDest d m && vecField a && vecField b
  | .vaddsatVv d a b m _ => vecDest d m && vecField a && vecField b
  | .vsubsatVv d a b m _ => vecDest d m && vecField a && vecField b
  | .vaddVs d a _ m _ => vecDest d m && vecField a
  | .vsubVs d a _ m _ => vecDest d m && vecField a
  | .vmulVs d a _ m _ => vecDest d m && vecField a
  | .vmulhVs d a _ m _ => vecDest d m && vecField a
  | .vminVs d a _ m _ => vecDest d m && vecField a
  | .vmaxVs d a _ m _ => vecDest d m && vecField a
  | .vminuVs d a _ m _ => vecDest d m && vecField a
  | .vmaxuVs d a _ m _ => vecDest d m && vecField a
  | .vandVs d a _ m _ => vecDest d m && vecField a
  | .vorVs d a _ m _ => vecDest d m && vecField a
  | .vxorVs d a _ m _ => vecDest d m && vecField a
  | .vshlVs d a _ m _ => vecDest d m && vecField a
  | .vshrVs d a _ m _ => vecDest d m && vecField a
  | .vshaVs d a _ m _ => vecDest d m && vecField a
  | .vaddsatVs d a _ m _ => vecDest d m && vecField a
  | .vsubsatVs d a _ m _ => vecDest d m && vecField a
  | .vfaddVv d a b m _ => vecDest d m && vecField a && vecField b
  | .vfsubVv d a b m _ => vecDest d m && vecField a && vecField b
  | .vfmulVv d a b m _ => vecDest d m && vecField a && vecField b
  | .vfmaVv d a b _ _ => low16 d && vecField a && vecField b
  | .vfmsVv d a b _ _ => low16 d && vecField a && vecField b
  | .vfnmaVv d a b _ _ => low16 d && vecField a && vecField b
  | .vfminVv d a b m _ => vecDest d m && vecField a && vecField b
  | .vfmaxVv d a b m _ => vecDest d m && vecField a && vecField b
  | .vfdivVv d a b m _ => vecDest d m && vecField a && vecField b
  | .vfsqrt d a m _ => vecDest d m && vecField a
  | .vfrsqe d a m _ => vecDest d m && vecField a
  | .vfrcpe d a m _ => vecDest d m && vecField a
  | .vfabs d a m _ => vecDest d m && vecField a
  | .vfneg d a m _ => vecDest d m && vecField a
  | .vfcpysVv d a b m _ => vecDest d m && vecField a && vecField b
  | .vfclass d a m _ => vecDest d m && vecField a
  | .vfaddVs d a _ m _ => vecDest d m && vecField a
  | .vfsubVs d a _ m _ => vecDest d m && vecField a
  | .vfmulVs d a _ m _ => vecDest d m && vecField a
  | .vfmaVs d a _ _ _ => low16 d && vecField a
  | .vfmsVs d a _ _ _ => low16 d && vecField a
  | .vfnmaVs d a _ _ _ => low16 d && vecField a
  | .vfminVs d a _ m _ => vecDest d m && vecField a
  | .vfmaxVs d a _ m _ => vecDest d m && vecField a
  | .vfdivVs d a _ m _ => vecDest d m && vecField a
  | .vfcpysVs d a _ m _ => vecDest d m && vecField a
  | .vmov d a m _ => vecDest d m && vecField a
  | .vbcst d _ m _ => vecDest d m
  | .vext _ a _ _ => vecField a
  | .vins d _ _ _ => low16 d
  | .vsel d a b _ _ => vecField d && vecField a && vecField b
  | .vperm d a b m _ => vecDest d m && vecField a && vecField b
  | .vrot d a _ m _ => vecDest d m && vecField a
  | .vzip d a b m _ => vecDest d m && vecField a && vecField b
  | .vunzip d a b m _ => vecDest d m && vecField a && vecField b
  | .viota d m _ => vecDest d m
  | .vradd _ a _ _ => vecField a
  | .vrmax _ a _ _ => vecField a
  | .vrmin _ a _ _ => vecField a
  | .vrmaxu _ a _ _ => vecField a
  | .vrminu _ a _ _ => vecField a
  | .vrfadd _ a _ _ => vecField a
  | .vrfmax _ a _ _ => vecField a
  | .vrfmin _ a _ _ => vecField a
  | .vpopc _ a _ _ => vecField a
  | .vfirst _ a _ _ => vecField a
  | .vcmpEq d a b _ _ => writtenMask d && vecField a && vecField b
  | .vcmpNe d a b _ _ => writtenMask d && vecField a && vecField b
  | .vcmpLt d a b _ _ => writtenMask d && vecField a && vecField b
  | .vcmpLe d a b _ _ => writtenMask d && vecField a && vecField b
  | .vcmpLtu d a b _ _ => writtenMask d && vecField a && vecField b
  | .vcmpLeu d a b _ _ => writtenMask d && vecField a && vecField b
  | .vcmpFeq d a b _ _ => writtenMask d && vecField a && vecField b
  | .vcmpFlt d a b _ _ => writtenMask d && vecField a && vecField b
  | .vcmpFle d a b _ _ => writtenMask d && vecField a && vecField b
  | .vcmpFun d a b _ _ => writtenMask d && vecField a && vecField b
  | .mand d a b => writtenMask d && low8 a && low8 b
  | .mor d a b => writtenMask d && low8 a && low8 b
  | .mxor d a b => writtenMask d && low8 a && low8 b
  | .mandn d a b => writtenMask d && low8 a && low8 b
  | .mnot d a => writtenMask d && low8 a
  | .mfirstn d _ => writtenMask d
  | .mcnt _ a => low8 a
  | .vcvt d a rm dst src _ => rounding rm && formatCode dst && formatCode src && convDest d dst src && vecField a
  | .qnt d a _ tgt rm _ => target tgt && rounding rm && low16 d && vecField a
  | .dqt d a _ tgt => target tgt && vecField d && vecField a
  | .bamax _ a => vecField a
  | .scld _ _ tgt => target tgt
  | .macq => true
  | .mrel => true
  | .mzero a => accField a
  | .mrd d a _ => vecField d && accField a
  | .mwr d a _ => accField d && vecField a
  | .mscl d a => accField d && vecField a
  | .mchk _ a => accField a
  | .sset _ => true
  | .mma d a b fmt _ _ _ => formatCode fmt && accField d && vecField a && scaleField fmt b
  | .tsld d => vecField d
  | .tsst a => vecField a
  | .tsfill a _ => vecField a
  | .cpy => true
  | .cpyd => true
  | .cpyx => true
  | .cpyts => true
  | .cpyr => true
  | .cpyq d => queueField d
  | .ckdecl _ _ _ => true
  | .srcdecl _ _ _ => true
  | .sgadd _ => true
  | .sgqry _ => true
  | .agerd _ _ => true
  | .pwrrd _ _ => true
  | .pwrw _ _ => true
  | .rtqry _ _ => true
  | .csrr _ csr => csrAssigned csr
  | .csrw _ csr => csrAssigned csr
  | .csrs _ _ csr => csrAssigned csr
  | .csrc _ _ csr => csrAssigned csr
  | .tresume _ _ _ => true
  | .tabort _ _ _ => true
  | .tlbfill _ _ _ => true
  | .tlbinv _ _ => true
  | .wssw _ => true
  | .svc _ => true
  | .brk => true
  | .halt _ _ => true
  | .idle => true
  | .bmmask _ _ => true
  | .udf _ => true
  | .ill => true
  | .cNop => true
  | .cNend => true
  | .cRet => true
  | .cMov _ _ => true
  | .cAddi _ _ => true
  | .cLi _ _ => true
  | .cAdd _ _ _ => true
  | .cSub _ _ _ => true
  | .cLdw _ _ _ => true
  | .cStw _ _ _ => true
  | .cBeqz _ _ => true
  | .cBnez _ _ => true
  | .cBr _ => true
  | .cShli _ _ => true
  | .sqtailNotify _ _ _ => true
  | .queueSlotMap _ => true
  | .launchRecord _ => true
  | .haltRecord _ => true
  | .resumeRecord _ => true
  | .cancelRecord _ => true
  | .cqhead _ _ _ => true
  | .nodeStart _ _ => true
  | .urgentStart _ _ => true
  | .commit _ => true
  | .borrow _ => true
  | .epochAck _ => true
  | .token _ => true
  | .restoreItem _ => true
  | .beadReturn _ => true
  | .nodeRetry _ => true
  | .budgetExpiry _ => true
  | .accessResponse _ => true
  | .trapMessage _ => true
  | .remoteRodAdd _ => true
  | .copyPost _ => true
  | .copySegment _ => true
  | .segmentDelivery _ _ => true
  | .copyQueuePush _ => true
  | .copyEnd _ => true
  | .beamRaise _ _ _ => true
  | .beamRelease _ _ _ => true
  | .routerDeath _ _ => true
  | .beamRecombine _ _ => true
  | .rotcmdGo _ _ _ => true
  | .rotcmdEmerg _ _ _ => true
  | .drainEnd _ _ => true
  | .drainLimitExpiry _ _ => true
  | .remap _ _ => true
  | .mapGenerationApply _ _ => true
  | .marker _ _ => true
  | .selfTestDone _ _ _ _ => true
  | .epochTimer _ => true
  | .epochApply _ => true
  | .durableAck _ => true
  | .tileLoss _ _ => true
  | .restoreNotice _ _ => true
  | .restoreResend _ => true
  | .screenCompare _ => true
  | .silenceProbe _ _ => true
  | .probeAnswer _ _ => true
  | .probeTimeout _ _ => true
  | .quantaGrant _ => true
  | .reserveShare _ => true
  | .migrationGo _ _ _ => true
  | .migrationRoundEnd _ _ => true
  | .ptcmdSpareToReplica _ _ _ => true
  | .ptcmdReplicaToSpare _ _ _ => true
  | .ptcmdSpareToSelfTest _ _ _ => true
  | .l2gate _ _ _ => true
  | .seedWrite _ => true
  | .counterEvent _ _ => true
  | .idleWake _ => true
  | .debuggerTrigger _ _ _ => true
  | .firmwareCoreReset _ => true
  | .flit _ _ _ _ _ _ _ => true
  | .replayRequest _ _ _ => true
  | .idleFlit _ _ => true
  | .retrainEnd _ _ _ => true
  | .panelShrink _ => true
  | .boot _ _ => true
  | .capw _ _ => true
  | .swbrake _ _ => true
  | .brkpin _ _ => true
  | .attestationRequest _ _ => true
  | .hostRequest _ _ => true
  | .mailboxRequest _ _ => true
  | .eccError _ _ => true
  | .registerWrite _ _ _ => true
  | .trayAddBack _ => true
  | .powerRemoval _ => true

end Sys2Proof
end

