-- ==== Sys2Proof/Decode.lean ====
section
/-! DEFINITION. From halfwords to instructions (R29 to R43) and back. `decodeHalves` reads the halfwords at a PC and is total:
it names why it refuses. `encode` lays a well-formed instruction out from the same tables. The fields are pulled out here,
once; a must-be-zero field that is not zero and an operation that no table assigns are refused here, the register classes of
R33 by Sys2Proof/WellFormed.lean. Lean's compiler gives a constructor a tag of at most 244, so the definitions that build a
later constructor of Instr are marked noncomputable: the kernel evaluates them all the same. -/

namespace Sys2Proof

/-- Why a halfword or word is no instruction. Each of the last three makes it illegal (R33), and the step then
takes the ILLEGAL trap; `needsMore` says that the second halfword of a 32-bit word is missing. -/
inductive DecodeError where
  | needsMore
  | unassigned32 (word : BitVec 32)
  | unassigned16 (half : BitVec 16)
  | illFormed (i : Instr)
deriving DecidableEq, Repr

namespace Decode

/-- Major 0x02 (R70): the operation is bits 23..20. -/
def major02 (w : BitVec 32) : Option Instr :=
  match (w.extractLsb' 20 4).toNat with
  | 0 => some (.beq (w.extractLsb' 15 5) (w.extractLsb' 10 5) (w.extractLsb' 0 10))
  | 1 => some (.bne (w.extractLsb' 15 5) (w.extractLsb' 10 5) (w.extractLsb' 0 10))
  | 2 => some (.blt (w.extractLsb' 15 5) (w.extractLsb' 10 5) (w.extractLsb' 0 10))
  | 3 => some (.bge (w.extractLsb' 15 5) (w.extractLsb' 10 5) (w.extractLsb' 0 10))
  | 4 => some (.bltu (w.extractLsb' 15 5) (w.extractLsb' 10 5) (w.extractLsb' 0 10))
  | 5 => some (.bgeu (w.extractLsb' 15 5) (w.extractLsb' 10 5) (w.extractLsb' 0 10))
  | 6 => some (.bbs (w.extractLsb' 15 5) (w.extractLsb' 10 5) (w.extractLsb' 0 10))
  | 7 => some (.bbc (w.extractLsb' 15 5) (w.extractLsb' 10 5) (w.extractLsb' 0 10))
  | _ => none

/-- Major 0x05 (R71, R74, R75, R76): the operation is bits 8..0. -/
def major05 (w : BitVec 32) : Option Instr :=
  match (w.extractLsb' 0 9).toNat with
  | 0 => if w.extractLsb' 9 15 == 0 then some .ret else none
  | 1 => if w.extractLsb' 9 15 == 0 then some .nend else none
  | 2 => if w.extractLsb' 19 5 == 0 && w.extractLsb' 9 5 == 0 then some (.nabort (w.extractLsb' 14 5)) else none
  | 3 => if w.extractLsb' 9 15 == 0 then some .maskw else none
  | 4 => if w.extractLsb' 9 15 == 0 then some .unmaskw else none
  | _ => none

/-- Major 0x08 (R90, R91, R92): the operation is bits 7..0. -/
def major08 (w : BitVec 32) : Option Instr :=
  match (w.extractLsb' 0 8).toNat with
  | 0 => some (.add (w.extractLsb' 19 5) (w.extractLsb' 14 5) (w.extractLsb' 9 5) (w.getLsbD 8))
  | 1 => some (.sub (w.extractLsb' 19 5) (w.extractLsb' 14 5) (w.extractLsb' 9 5) (w.getLsbD 8))
  | 2 => some (.and (w.extractLsb' 19 5) (w.extractLsb' 14 5) (w.extractLsb' 9 5) (w.getLsbD 8))
  | 3 => some (.or (w.extractLsb' 19 5) (w.extractLsb' 14 5) (w.extractLsb' 9 5) (w.getLsbD 8))
  | 4 => some (.xor (w.extractLsb' 19 5) (w.extractLsb' 14 5) (w.extractLsb' 9 5) (w.getLsbD 8))
  | 5 => some (.andn (w.extractLsb' 19 5) (w.extractLsb' 14 5) (w.extractLsb' 9 5) (w.getLsbD 8))
  | 6 => some (.shl (w.extractLsb' 19 5) (w.extractLsb' 14 5) (w.extractLsb' 9 5) (w.getLsbD 8))
  | 7 => some (.shr (w.extractLsb' 19 5) (w.extractLsb' 14 5) (w.extractLsb' 9 5) (w.getLsbD 8))
  | 8 => some (.sha (w.extractLsb' 19 5) (w.extractLsb' 14 5) (w.extractLsb' 9 5) (w.getLsbD 8))
  | 9 => some (.ror (w.extractLsb' 19 5) (w.extractLsb' 14 5) (w.extractLsb' 9 5) (w.getLsbD 8))
  | 10 => some (.mul (w.extractLsb' 19 5) (w.extractLsb' 14 5) (w.extractLsb' 9 5) (w.getLsbD 8))
  | 11 => some (.mulh (w.extractLsb' 19 5) (w.extractLsb' 14 5) (w.extractLsb' 9 5) (w.getLsbD 8))
  | 12 => some (.mulhu (w.extractLsb' 19 5) (w.extractLsb' 14 5) (w.extractLsb' 9 5) (w.getLsbD 8))
  | 13 => some (.div (w.extractLsb' 19 5) (w.extractLsb' 14 5) (w.extractLsb' 9 5) (w.getLsbD 8))
  | 14 => some (.divu (w.extractLsb' 19 5) (w.extractLsb' 14 5) (w.extractLsb' 9 5) (w.getLsbD 8))
  | 15 => some (.rem (w.extractLsb' 19 5) (w.extractLsb' 14 5) (w.extractLsb' 9 5) (w.getLsbD 8))
  | 16 => some (.remu (w.extractLsb' 19 5) (w.extractLsb' 14 5) (w.extractLsb' 9 5) (w.getLsbD 8))
  | 17 => some (.min (w.extractLsb' 19 5) (w.extractLsb' 14 5) (w.extractLsb' 9 5) (w.getLsbD 8))
  | 18 => some (.max (w.extractLsb' 19 5) (w.extractLsb' 14 5) (w.extractLsb' 9 5) (w.getLsbD 8))
  | 19 => some (.minu (w.extractLsb' 19 5) (w.extractLsb' 14 5) (w.extractLsb' 9 5) (w.getLsbD 8))
  | 20 => some (.maxu (w.extractLsb' 19 5) (w.extractLsb' 14 5) (w.extractLsb' 9 5) (w.getLsbD 8))
  | 21 => some (.slt (w.extractLsb' 19 5) (w.extractLsb' 14 5) (w.extractLsb' 9 5) (w.getLsbD 8))
  | 22 => some (.sltu (w.extractLsb' 19 5) (w.extractLsb' 14 5) (w.extractLsb' 9 5) (w.getLsbD 8))
  | 23 => some (.seq (w.extractLsb' 19 5) (w.extractLsb' 14 5) (w.extractLsb' 9 5) (w.getLsbD 8))
  | 24 => if w.extractLsb' 9 5 == 0 then some (.clz (w.extractLsb' 19 5) (w.extractLsb' 14 5) (w.getLsbD 8)) else none
  | 25 => if w.extractLsb' 9 5 == 0 then some (.ctz (w.extractLsb' 19 5) (w.extractLsb' 14 5) (w.getLsbD 8)) else none
  | 26 => if w.extractLsb' 9 5 == 0 then some (.popc (w.extractLsb' 19 5) (w.extractLsb' 14 5) (w.getLsbD 8)) else none
  | 27 => if w.extractLsb' 9 5 == 0 then some (.brev (w.extractLsb' 19 5) (w.extractLsb' 14 5) (w.getLsbD 8)) else none
  | 28 => if w.extractLsb' 9 5 == 0 then some (.bswap (w.extractLsb' 19 5) (w.extractLsb' 14 5) (w.getLsbD 8)) else none
  | 29 => if !w.getLsbD 8 then some (.sext (w.extractLsb' 19 5) (w.extractLsb' 14 5) (w.extractLsb' 9 5)) else none
  | 30 => if !w.getLsbD 8 then some (.zext (w.extractLsb' 19 5) (w.extractLsb' 14 5) (w.extractLsb' 9 5)) else none
  | 31 => some (.adds1 (w.extractLsb' 19 5) (w.extractLsb' 14 5) (w.extractLsb' 9 5) (w.getLsbD 8))
  | 32 => some (.adds2 (w.extractLsb' 19 5) (w.extractLsb' 14 5) (w.extractLsb' 9 5) (w.getLsbD 8))
  | 33 => some (.adds3 (w.extractLsb' 19 5) (w.extractLsb' 14 5) (w.extractLsb' 9 5) (w.getLsbD 8))
  | 34 => if !w.getLsbD 8 then some (.vta (w.extractLsb' 19 5) (w.extractLsb' 14 5) (w.extractLsb' 9 5)) else none
  | 35 => if !w.getLsbD 8 then some (.sel (w.extractLsb' 19 5) (w.extractLsb' 14 5) (w.extractLsb' 9 5)) else none
  | _ => none

/-- Major 0x0E (R94): the operation is bits 13..12. -/
def major0E (w : BitVec 32) : Option Instr :=
  match (w.extractLsb' 12 2).toNat with
  | 0 => if w.extractLsb' 7 5 == 0 then some (.shli (w.extractLsb' 19 5) (w.extractLsb' 14 5) (w.getLsbD 6) (w.extractLsb' 0 6)) else none
  | 1 => if w.extractLsb' 7 5 == 0 then some (.shri (w.extractLsb' 19 5) (w.extractLsb' 14 5) (w.getLsbD 6) (w.extractLsb' 0 6)) else none
  | 2 => if w.extractLsb' 7 5 == 0 then some (.shai (w.extractLsb' 19 5) (w.extractLsb' 14 5) (w.getLsbD 6) (w.extractLsb' 0 6)) else none
  | 3 => if w.extractLsb' 7 5 == 0 then some (.rori (w.extractLsb' 19 5) (w.extractLsb' 14 5) (w.getLsbD 6) (w.extractLsb' 0 6)) else none
  | _ => none

/-- Major 0x10 (R104, R105, R109): the operation is bits 8..0. -/
def major10 (w : BitVec 32) : Option Instr :=
  match (w.extractLsb' 0 9).toNat with
  | 0 => if w.extractLsb' 14 5 == 0 then some (.mfi (w.extractLsb' 19 5) (w.extractLsb' 9 5)) else none
  | 1 => if w.extractLsb' 14 5 == 0 then some (.mfe (w.extractLsb' 19 5) (w.extractLsb' 9 5)) else none
  | 2 => if w.extractLsb' 9 5 == 0 then some (.mte (w.extractLsb' 19 5) (w.extractLsb' 14 5)) else none
  | 3 => if w.extractLsb' 14 5 == 0 then some (.mfm (w.extractLsb' 19 5) (w.extractLsb' 9 5)) else none
  | 4 => if w.extractLsb' 9 5 == 0 then some (.mtm (w.extractLsb' 19 5) (w.extractLsb' 14 5)) else none
  | 5 => if w.extractLsb' 14 5 == 0 then some (.mfqc (w.extractLsb' 19 5) (w.extractLsb' 9 5)) else none
  | 6 => if w.extractLsb' 9 10 == 0 then some (.wsa (w.extractLsb' 19 5)) else none
  | _ => none

/-- Major 0x12 (R121, R122, R123, R124): the operation is bits 8..0. -/
def major12 (w : BitVec 32) : Option Instr :=
  match (w.extractLsb' 0 9).toNat with
  | 0 => if w.extractLsb' 14 5 == 0 then some (.rcpDef (w.extractLsb' 19 5) (w.extractLsb' 9 5)) else none
  | 1 => if w.extractLsb' 9 5 == 0 then some (.rcpTagW (w.extractLsb' 19 5) (w.extractLsb' 14 5)) else none
  | 2 => if w.extractLsb' 9 5 == 0 then some (.rcpTagV (w.extractLsb' 19 5) (w.extractLsb' 14 5)) else none
  | 3 => if w.extractLsb' 14 5 == 0 then some (.rcpUntag (w.extractLsb' 19 5) (w.extractLsb' 9 5)) else none
  | 4 => if w.extractLsb' 14 5 == 0 then some (.rcpDrop (w.extractLsb' 19 5) (w.extractLsb' 9 5)) else none
  | 5 => if w.extractLsb' 14 5 == 0 then some (.rcpMat (w.extractLsb' 19 5) (w.extractLsb' 9 5)) else none
  | 6 => if w.extractLsb' 9 10 == 0 then some (.rcpClr (w.extractLsb' 19 5)) else none
  | _ => none

/-- Major 0x1A (R143, R145, R146): the operation is bits 3..0. -/
def major1A (w : BitVec 32) : Option Instr :=
  match (w.extractLsb' 0 4).toNat with
  | 0 => if w.extractLsb' 9 5 == 0 then some (.vldL (w.extractLsb' 19 5) (w.extractLsb' 14 5) (w.extractLsb' 6 3) (w.extractLsb' 4 2)) else none
  | 1 => if w.extractLsb' 9 5 == 0 then some (.vldG (w.extractLsb' 19 5) (w.extractLsb' 14 5) (w.extractLsb' 6 3) (w.extractLsb' 4 2)) else none
  | 2 => if w.extractLsb' 9 5 == 0 then some (.vldT (w.extractLsb' 19 5) (w.extractLsb' 14 5) (w.extractLsb' 6 3) (w.extractLsb' 4 2)) else none
  | 3 => some (.vldsL (w.extractLsb' 19 5) (w.extractLsb' 14 5) (w.extractLsb' 9 5) (w.extractLsb' 6 3) (w.extractLsb' 4 2))
  | 4 => some (.vldsG (w.extractLsb' 19 5) (w.extractLsb' 14 5) (w.extractLsb' 9 5) (w.extractLsb' 6 3) (w.extractLsb' 4 2))
  | 5 => some (.vldxL (w.extractLsb' 19 5) (w.extractLsb' 14 5) (w.extractLsb' 9 5) (w.extractLsb' 6 3) (w.extractLsb' 4 2))
  | 6 => some (.vldxG (w.extractLsb' 19 5) (w.extractLsb' 14 5) (w.extractLsb' 9 5) (w.extractLsb' 6 3) (w.extractLsb' 4 2))
  | 8 => if w.extractLsb' 9 5 == 0 then some (.vstL (w.extractLsb' 19 5) (w.extractLsb' 14 5) (w.extractLsb' 6 3) (w.extractLsb' 4 2)) else none
  | 9 => if w.extractLsb' 9 5 == 0 then some (.vstG (w.extractLsb' 19 5) (w.extractLsb' 14 5) (w.extractLsb' 6 3) (w.extractLsb' 4 2)) else none
  | 10 => if w.extractLsb' 9 5 == 0 then some (.vstT (w.extractLsb' 19 5) (w.extractLsb' 14 5) (w.extractLsb' 6 3) (w.extractLsb' 4 2)) else none
  | 11 => some (.vstsL (w.extractLsb' 19 5) (w.extractLsb' 14 5) (w.extractLsb' 9 5) (w.extractLsb' 6 3) (w.extractLsb' 4 2))
  | 12 => some (.vstsG (w.extractLsb' 19 5) (w.extractLsb' 14 5) (w.extractLsb' 9 5) (w.extractLsb' 6 3) (w.extractLsb' 4 2))
  | 13 => some (.vstxL (w.extractLsb' 19 5) (w.extractLsb' 14 5) (w.extractLsb' 9 5) (w.extractLsb' 6 3) (w.extractLsb' 4 2))
  | 14 => some (.vstxG (w.extractLsb' 19 5) (w.extractLsb' 14 5) (w.extractLsb' 9 5) (w.extractLsb' 6 3) (w.extractLsb' 4 2))
  | _ => none

/-- Major 0x1B (R148, R149, R152): the operation is bits 8..0. -/
def major1B (w : BitVec 32) : Option Instr :=
  match (w.extractLsb' 0 9).toNat with
  | 0 => some (.tchR (w.extractLsb' 19 5) (w.extractLsb' 14 5) (w.extractLsb' 9 5))
  | 1 => some (.tchW (w.extractLsb' 19 5) (w.extractLsb' 14 5) (w.extractLsb' 9 5))
  | 2 => if w.extractLsb' 19 5 == 0 && w.extractLsb' 9 5 == 0 then some (.trel (w.extractLsb' 14 5)) else none
  | 3 => if w.extractLsb' 19 5 == 0 && w.extractLsb' 9 5 == 0 then some (.prefG (w.extractLsb' 14 5)) else none
  | _ => none

/-- Major 0x1C (R173, R177): the operation is bits 3..0. -/
def major1C (w : BitVec 32) : Option Instr :=
  match (w.extractLsb' 0 4).toNat with
  | 0 => some (.aaddL (w.extractLsb' 19 5) (w.extractLsb' 14 5) (w.extractLsb' 9 5) (w.extractLsb' 7 2) (w.extractLsb' 5 2) (w.getLsbD 4))
  | 1 => some (.aandL (w.extractLsb' 19 5) (w.extractLsb' 14 5) (w.extractLsb' 9 5) (w.extractLsb' 7 2) (w.extractLsb' 5 2) (w.getLsbD 4))
  | 2 => some (.aorL (w.extractLsb' 19 5) (w.extractLsb' 14 5) (w.extractLsb' 9 5) (w.extractLsb' 7 2) (w.extractLsb' 5 2) (w.getLsbD 4))
  | 3 => some (.axorL (w.extractLsb' 19 5) (w.extractLsb' 14 5) (w.extractLsb' 9 5) (w.extractLsb' 7 2) (w.extractLsb' 5 2) (w.getLsbD 4))
  | 4 => some (.aminL (w.extractLsb' 19 5) (w.extractLsb' 14 5) (w.extractLsb' 9 5) (w.extractLsb' 7 2) (w.extractLsb' 5 2) (w.getLsbD 4))
  | 5 => some (.amaxL (w.extractLsb' 19 5) (w.extractLsb' 14 5) (w.extractLsb' 9 5) (w.extractLsb' 7 2) (w.extractLsb' 5 2) (w.getLsbD 4))
  | 6 => some (.aminuL (w.extractLsb' 19 5) (w.extractLsb' 14 5) (w.extractLsb' 9 5) (w.extractLsb' 7 2) (w.extractLsb' 5 2) (w.getLsbD 4))
  | 7 => some (.amaxuL (w.extractLsb' 19 5) (w.extractLsb' 14 5) (w.extractLsb' 9 5) (w.extractLsb' 7 2) (w.extractLsb' 5 2) (w.getLsbD 4))
  | 8 => some (.aswpL (w.extractLsb' 19 5) (w.extractLsb' 14 5) (w.extractLsb' 9 5) (w.extractLsb' 7 2) (w.extractLsb' 5 2) (w.getLsbD 4))
  | 9 => some (.acasL (w.extractLsb' 19 5) (w.extractLsb' 14 5) (w.extractLsb' 9 5) (w.extractLsb' 7 2) (w.extractLsb' 5 2) (w.getLsbD 4))
  | 10 => some (.afaddL (w.extractLsb' 19 5) (w.extractLsb' 14 5) (w.extractLsb' 9 5) (w.extractLsb' 7 2) (w.extractLsb' 5 2) (w.getLsbD 4))
  | 11 => if w.extractLsb' 7 2 == 0 then some (.aaddKL (w.extractLsb' 19 5) (w.extractLsb' 14 5) (w.extractLsb' 9 5) (w.extractLsb' 5 2) (w.getLsbD 4)) else none
  | _ => none

/-- Major 0x1D (R173, R177): the operation is bits 3..0. -/
def major1D (w : BitVec 32) : Option Instr :=
  match (w.extractLsb' 0 4).toNat with
  | 0 => some (.aaddT (w.extractLsb' 19 5) (w.extractLsb' 14 5) (w.extractLsb' 9 5) (w.extractLsb' 7 2) (w.extractLsb' 5 2) (w.getLsbD 4))
  | 1 => some (.aandT (w.extractLsb' 19 5) (w.extractLsb' 14 5) (w.extractLsb' 9 5) (w.extractLsb' 7 2) (w.extractLsb' 5 2) (w.getLsbD 4))
  | 2 => some (.aorT (w.extractLsb' 19 5) (w.extractLsb' 14 5) (w.extractLsb' 9 5) (w.extractLsb' 7 2) (w.extractLsb' 5 2) (w.getLsbD 4))
  | 3 => some (.axorT (w.extractLsb' 19 5) (w.extractLsb' 14 5) (w.extractLsb' 9 5) (w.extractLsb' 7 2) (w.extractLsb' 5 2) (w.getLsbD 4))
  | 4 => some (.aminT (w.extractLsb' 19 5) (w.extractLsb' 14 5) (w.extractLsb' 9 5) (w.extractLsb' 7 2) (w.extractLsb' 5 2) (w.getLsbD 4))
  | 5 => some (.amaxT (w.extractLsb' 19 5) (w.extractLsb' 14 5) (w.extractLsb' 9 5) (w.extractLsb' 7 2) (w.extractLsb' 5 2) (w.getLsbD 4))
  | 6 => some (.aminuT (w.extractLsb' 19 5) (w.extractLsb' 14 5) (w.extractLsb' 9 5) (w.extractLsb' 7 2) (w.extractLsb' 5 2) (w.getLsbD 4))
  | 7 => some (.amaxuT (w.extractLsb' 19 5) (w.extractLsb' 14 5) (w.extractLsb' 9 5) (w.extractLsb' 7 2) (w.extractLsb' 5 2) (w.getLsbD 4))
  | 8 => some (.aswpT (w.extractLsb' 19 5) (w.extractLsb' 14 5) (w.extractLsb' 9 5) (w.extractLsb' 7 2) (w.extractLsb' 5 2) (w.getLsbD 4))
  | 9 => some (.acasT (w.extractLsb' 19 5) (w.extractLsb' 14 5) (w.extractLsb' 9 5) (w.extractLsb' 7 2) (w.extractLsb' 5 2) (w.getLsbD 4))
  | 10 => some (.afaddT (w.extractLsb' 19 5) (w.extractLsb' 14 5) (w.extractLsb' 9 5) (w.extractLsb' 7 2) (w.extractLsb' 5 2) (w.getLsbD 4))
  | 11 => if w.extractLsb' 7 2 == 0 then some (.aaddKT (w.extractLsb' 19 5) (w.extractLsb' 14 5) (w.extractLsb' 9 5) (w.extractLsb' 5 2) (w.getLsbD 4)) else none
  | _ => none

/-- Major 0x1E (R173, R177): the operation is bits 3..0. -/
def major1E (w : BitVec 32) : Option Instr :=
  match (w.extractLsb' 0 4).toNat with
  | 0 => some (.aaddG (w.extractLsb' 19 5) (w.extractLsb' 14 5) (w.extractLsb' 9 5) (w.extractLsb' 7 2) (w.extractLsb' 5 2) (w.getLsbD 4))
  | 1 => some (.aandG (w.extractLsb' 19 5) (w.extractLsb' 14 5) (w.extractLsb' 9 5) (w.extractLsb' 7 2) (w.extractLsb' 5 2) (w.getLsbD 4))
  | 2 => some (.aorG (w.extractLsb' 19 5) (w.extractLsb' 14 5) (w.extractLsb' 9 5) (w.extractLsb' 7 2) (w.extractLsb' 5 2) (w.getLsbD 4))
  | 3 => some (.axorG (w.extractLsb' 19 5) (w.extractLsb' 14 5) (w.extractLsb' 9 5) (w.extractLsb' 7 2) (w.extractLsb' 5 2) (w.getLsbD 4))
  | 4 => some (.aminG (w.extractLsb' 19 5) (w.extractLsb' 14 5) (w.extractLsb' 9 5) (w.extractLsb' 7 2) (w.extractLsb' 5 2) (w.getLsbD 4))
  | 5 => some (.amaxG (w.extractLsb' 19 5) (w.extractLsb' 14 5) (w.extractLsb' 9 5) (w.extractLsb' 7 2) (w.extractLsb' 5 2) (w.getLsbD 4))
  | 6 => some (.aminuG (w.extractLsb' 19 5) (w.extractLsb' 14 5) (w.extractLsb' 9 5) (w.extractLsb' 7 2) (w.extractLsb' 5 2) (w.getLsbD 4))
  | 7 => some (.amaxuG (w.extractLsb' 19 5) (w.extractLsb' 14 5) (w.extractLsb' 9 5) (w.extractLsb' 7 2) (w.extractLsb' 5 2) (w.getLsbD 4))
  | 8 => some (.aswpG (w.extractLsb' 19 5) (w.extractLsb' 14 5) (w.extractLsb' 9 5) (w.extractLsb' 7 2) (w.extractLsb' 5 2) (w.getLsbD 4))
  | 9 => some (.acasG (w.extractLsb' 19 5) (w.extractLsb' 14 5) (w.extractLsb' 9 5) (w.extractLsb' 7 2) (w.extractLsb' 5 2) (w.getLsbD 4))
  | 10 => some (.afaddG (w.extractLsb' 19 5) (w.extractLsb' 14 5) (w.extractLsb' 9 5) (w.extractLsb' 7 2) (w.extractLsb' 5 2) (w.getLsbD 4))
  | 11 => if w.extractLsb' 7 2 == 0 then some (.aaddKG (w.extractLsb' 19 5) (w.extractLsb' 14 5) (w.extractLsb' 9 5) (w.extractLsb' 5 2) (w.getLsbD 4)) else none
  | _ => none

/-- Major 0x20 (R183, R185, R186): the operation is bits 13..11. -/
def major20 (w : BitVec 32) : Option Instr :=
  match (w.extractLsb' 11 3).toNat with
  | 0 => if w.extractLsb' 19 5 == 0 && w.extractLsb' 7 4 == 0 then some (.radd (w.extractLsb' 14 5) (w.extractLsb' 0 7)) else none
  | 1 => if w.extractLsb' 19 5 == 0 && w.extractLsb' 7 4 == 0 then some (.rset (w.extractLsb' 14 5) (w.extractLsb' 0 7)) else none
  | 2 => if w.extractLsb' 7 4 == 0 && w.extractLsb' 14 5 == 0 then some (.rget (w.extractLsb' 19 5) (w.extractLsb' 0 7)) else none
  | 3 => if w.extractLsb' 19 5 == 0 && w.extractLsb' 7 4 == 0 then some (.rarm (w.extractLsb' 14 5) (w.extractLsb' 0 7)) else none
  | 4 => if w.extractLsb' 7 4 == 0 && w.extractLsb' 14 10 == 0 then some (.rwait (w.extractLsb' 0 7)) else none
  | 5 => if w.extractLsb' 7 4 == 0 && w.extractLsb' 14 5 == 0 then some (.rtest (w.extractLsb' 19 5) (w.extractLsb' 0 7)) else none
  | 6 => if w.extractLsb' 7 4 == 0 && w.extractLsb' 14 10 == 0 then some (.barr (w.extractLsb' 0 7)) else none
  | 7 => if w.extractLsb' 7 4 == 0 && w.extractLsb' 14 10 == 0 then some (.bwait (w.extractLsb' 0 7)) else none
  | _ => none

/-- Major 0x21 (R188): the operation is bits 8..0. -/
def major21 (w : BitVec 32) : Option Instr :=
  match (w.extractLsb' 0 9).toNat with
  | 0 => if w.extractLsb' 19 5 == 0 then some (.rrmt (w.extractLsb' 14 5) (w.extractLsb' 9 5)) else none
  | 1 => if w.extractLsb' 19 5 == 0 then some (.rrmtK (w.extractLsb' 14 5) (w.extractLsb' 9 5)) else none
  | 2 => if w.extractLsb' 19 5 == 0 then some (.raddX (w.extractLsb' 14 5) (w.extractLsb' 9 5)) else none
  | _ => none

/-- Major 0x22 (R190): the operation is bits 8..0. -/
def major22 (w : BitVec 32) : Option Instr :=
  match (w.extractLsb' 0 9).toNat with
  | 0 => if w.extractLsb' 14 5 == 0 then some (.waitm (w.extractLsb' 19 5) (w.extractLsb' 9 5)) else none
  | _ => none

/-- Major 0x23 (R198): the operation is bits 8..0. -/
def major23 (w : BitVec 32) : Option Instr :=
  match (w.extractLsb' 0 9).toNat with
  | 0 => if w.extractLsb' 19 5 == 0 then some (.bmjoin (w.extractLsb' 14 5) (w.extractLsb' 9 5)) else none
  | 1 => if w.extractLsb' 19 5 == 0 && w.extractLsb' 9 5 == 0 then some (.bmarr (w.extractLsb' 14 5)) else none
  | 2 => if w.extractLsb' 19 5 == 0 && w.extractLsb' 9 5 == 0 then some (.bmwait (w.extractLsb' 14 5)) else none
  | 3 => if w.extractLsb' 9 5 == 0 then some (.bmq (w.extractLsb' 19 5) (w.extractLsb' 14 5)) else none
  | 4 => if w.extractLsb' 19 5 == 0 && w.extractLsb' 9 5 == 0 then some (.bmleave (w.extractLsb' 14 5)) else none
  | _ => none

/-- Major 0x24 (R230, R231, R234, R235, R236, R237): the operation is bits 8..0. -/
def major24 (w : BitVec 32) : Option Instr :=
  match (w.extractLsb' 0 9).toNat with
  | 0 => if w.extractLsb' 19 5 == 0 && w.extractLsb' 9 5 == 0 then some (.tok (w.extractLsb' 14 5)) else none
  | 1 => some (.tokv (w.extractLsb' 19 5) (w.extractLsb' 14 5) (w.extractLsb' 9 5))
  | 2 => if w.extractLsb' 19 5 == 0 && w.extractLsb' 9 5 == 0 then some (.ncan (w.extractLsb' 14 5)) else none
  | 3 => if w.extractLsb' 9 5 == 0 then some (.narm (w.extractLsb' 19 5) (w.extractLsb' 14 5)) else none
  | 4 => some (.ndef (w.extractLsb' 19 5) (w.extractLsb' 14 5) (w.extractLsb' 9 5))
  | 5 => if w.extractLsb' 9 5 == 0 then some (.nqry (w.extractLsb' 19 5) (w.extractLsb' 14 5)) else none
  | 6 => some (.evb (w.extractLsb' 19 5) (w.extractLsb' 14 5) (w.extractLsb' 9 5))
  | 7 => if w.extractLsb' 9 5 == 0 then some (.evu (w.extractLsb' 19 5) (w.extractLsb' 14 5)) else none
  | _ => none

/-- Major 0x28 (R267): the operation is bits 3..0. -/
def major28 (w : BitVec 32) : Option Instr :=
  match (w.extractLsb' 0 4).toNat with
  | 0 => some (.vaddVv (w.extractLsb' 19 5) (w.extractLsb' 14 5) (w.extractLsb' 9 5) (w.extractLsb' 6 3) (w.extractLsb' 4 2))
  | 1 => some (.vsubVv (w.extractLsb' 19 5) (w.extractLsb' 14 5) (w.extractLsb' 9 5) (w.extractLsb' 6 3) (w.extractLsb' 4 2))
  | 2 => some (.vmulVv (w.extractLsb' 19 5) (w.extractLsb' 14 5) (w.extractLsb' 9 5) (w.extractLsb' 6 3) (w.extractLsb' 4 2))
  | 3 => some (.vmulhVv (w.extractLsb' 19 5) (w.extractLsb' 14 5) (w.extractLsb' 9 5) (w.extractLsb' 6 3) (w.extractLsb' 4 2))
  | 4 => some (.vminVv (w.extractLsb' 19 5) (w.extractLsb' 14 5) (w.extractLsb' 9 5) (w.extractLsb' 6 3) (w.extractLsb' 4 2))
  | 5 => some (.vmaxVv (w.extractLsb' 19 5) (w.extractLsb' 14 5) (w.extractLsb' 9 5) (w.extractLsb' 6 3) (w.extractLsb' 4 2))
  | 6 => some (.vminuVv (w.extractLsb' 19 5) (w.extractLsb' 14 5) (w.extractLsb' 9 5) (w.extractLsb' 6 3) (w.extractLsb' 4 2))
  | 7 => some (.vmaxuVv (w.extractLsb' 19 5) (w.extractLsb' 14 5) (w.extractLsb' 9 5) (w.extractLsb' 6 3) (w.extractLsb' 4 2))
  | 8 => some (.vandVv (w.extractLsb' 19 5) (w.extractLsb' 14 5) (w.extractLsb' 9 5) (w.extractLsb' 6 3) (w.extractLsb' 4 2))
  | 9 => some (.vorVv (w.extractLsb' 19 5) (w.extractLsb' 14 5) (w.extractLsb' 9 5) (w.extractLsb' 6 3) (w.extractLsb' 4 2))
  | 10 => some (.vxorVv (w.extractLsb' 19 5) (w.extractLsb' 14 5) (w.extractLsb' 9 5) (w.extractLsb' 6 3) (w.extractLsb' 4 2))
  | 11 => some (.vshlVv (w.extractLsb' 19 5) (w.extractLsb' 14 5) (w.extractLsb' 9 5) (w.extractLsb' 6 3) (w.extractLsb' 4 2))
  | 12 => some (.vshrVv (w.extractLsb' 19 5) (w.extractLsb' 14 5) (w.extractLsb' 9 5) (w.extractLsb' 6 3) (w.extractLsb' 4 2))
  | 13 => some (.vshaVv (w.extractLsb' 19 5) (w.extractLsb' 14 5) (w.extractLsb' 9 5) (w.extractLsb' 6 3) (w.extractLsb' 4 2))
  | 14 => some (.vaddsatVv (w.extractLsb' 19 5) (w.extractLsb' 14 5) (w.extractLsb' 9 5) (w.extractLsb' 6 3) (w.extractLsb' 4 2))
  | 15 => some (.vsubsatVv (w.extractLsb' 19 5) (w.extractLsb' 14 5) (w.extractLsb' 9 5) (w.extractLsb' 6 3) (w.extractLsb' 4 2))
  | _ => none

/-- Major 0x29 (R267): the operation is bits 3..0. -/
def major29 (w : BitVec 32) : Option Instr :=
  match (w.extractLsb' 0 4).toNat with
  | 0 => some (.vaddVs (w.extractLsb' 19 5) (w.extractLsb' 14 5) (w.extractLsb' 9 5) (w.extractLsb' 6 3) (w.extractLsb' 4 2))
  | 1 => some (.vsubVs (w.extractLsb' 19 5) (w.extractLsb' 14 5) (w.extractLsb' 9 5) (w.extractLsb' 6 3) (w.extractLsb' 4 2))
  | 2 => some (.vmulVs (w.extractLsb' 19 5) (w.extractLsb' 14 5) (w.extractLsb' 9 5) (w.extractLsb' 6 3) (w.extractLsb' 4 2))
  | 3 => some (.vmulhVs (w.extractLsb' 19 5) (w.extractLsb' 14 5) (w.extractLsb' 9 5) (w.extractLsb' 6 3) (w.extractLsb' 4 2))
  | 4 => some (.vminVs (w.extractLsb' 19 5) (w.extractLsb' 14 5) (w.extractLsb' 9 5) (w.extractLsb' 6 3) (w.extractLsb' 4 2))
  | 5 => some (.vmaxVs (w.extractLsb' 19 5) (w.extractLsb' 14 5) (w.extractLsb' 9 5) (w.extractLsb' 6 3) (w.extractLsb' 4 2))
  | 6 => some (.vminuVs (w.extractLsb' 19 5) (w.extractLsb' 14 5) (w.extractLsb' 9 5) (w.extractLsb' 6 3) (w.extractLsb' 4 2))
  | 7 => some (.vmaxuVs (w.extractLsb' 19 5) (w.extractLsb' 14 5) (w.extractLsb' 9 5) (w.extractLsb' 6 3) (w.extractLsb' 4 2))
  | 8 => some (.vandVs (w.extractLsb' 19 5) (w.extractLsb' 14 5) (w.extractLsb' 9 5) (w.extractLsb' 6 3) (w.extractLsb' 4 2))
  | 9 => some (.vorVs (w.extractLsb' 19 5) (w.extractLsb' 14 5) (w.extractLsb' 9 5) (w.extractLsb' 6 3) (w.extractLsb' 4 2))
  | 10 => some (.vxorVs (w.extractLsb' 19 5) (w.extractLsb' 14 5) (w.extractLsb' 9 5) (w.extractLsb' 6 3) (w.extractLsb' 4 2))
  | 11 => some (.vshlVs (w.extractLsb' 19 5) (w.extractLsb' 14 5) (w.extractLsb' 9 5) (w.extractLsb' 6 3) (w.extractLsb' 4 2))
  | 12 => some (.vshrVs (w.extractLsb' 19 5) (w.extractLsb' 14 5) (w.extractLsb' 9 5) (w.extractLsb' 6 3) (w.extractLsb' 4 2))
  | 13 => some (.vshaVs (w.extractLsb' 19 5) (w.extractLsb' 14 5) (w.extractLsb' 9 5) (w.extractLsb' 6 3) (w.extractLsb' 4 2))
  | 14 => some (.vaddsatVs (w.extractLsb' 19 5) (w.extractLsb' 14 5) (w.extractLsb' 9 5) (w.extractLsb' 6 3) (w.extractLsb' 4 2))
  | 15 => some (.vsubsatVs (w.extractLsb' 19 5) (w.extractLsb' 14 5) (w.extractLsb' 9 5) (w.extractLsb' 6 3) (w.extractLsb' 4 2))
  | _ => none

/-- Major 0x2A (R270, R271, R272, R273, R274): the operation is bits 3..0. -/
def major2A (w : BitVec 32) : Option Instr :=
  match (w.extractLsb' 0 4).toNat with
  | 0 => some (.vfaddVv (w.extractLsb' 19 5) (w.extractLsb' 14 5) (w.extractLsb' 9 5) (w.extractLsb' 6 3) (w.extractLsb' 4 2))
  | 1 => some (.vfsubVv (w.extractLsb' 19 5) (w.extractLsb' 14 5) (w.extractLsb' 9 5) (w.extractLsb' 6 3) (w.extractLsb' 4 2))
  | 2 => some (.vfmulVv (w.extractLsb' 19 5) (w.extractLsb' 14 5) (w.extractLsb' 9 5) (w.extractLsb' 6 3) (w.extractLsb' 4 2))
  | 3 => some (.vfmaVv (w.extractLsb' 19 5) (w.extractLsb' 14 5) (w.extractLsb' 9 5) (w.extractLsb' 6 3) (w.extractLsb' 4 2))
  | 4 => some (.vfmsVv (w.extractLsb' 19 5) (w.extractLsb' 14 5) (w.extractLsb' 9 5) (w.extractLsb' 6 3) (w.extractLsb' 4 2))
  | 5 => some (.vfnmaVv (w.extractLsb' 19 5) (w.extractLsb' 14 5) (w.extractLsb' 9 5) (w.extractLsb' 6 3) (w.extractLsb' 4 2))
  | 6 => some (.vfminVv (w.extractLsb' 19 5) (w.extractLsb' 14 5) (w.extractLsb' 9 5) (w.extractLsb' 6 3) (w.extractLsb' 4 2))
  | 7 => some (.vfmaxVv (w.extractLsb' 19 5) (w.extractLsb' 14 5) (w.extractLsb' 9 5) (w.extractLsb' 6 3) (w.extractLsb' 4 2))
  | 8 => some (.vfdivVv (w.extractLsb' 19 5) (w.extractLsb' 14 5) (w.extractLsb' 9 5) (w.extractLsb' 6 3) (w.extractLsb' 4 2))
  | 9 => if w.extractLsb' 9 5 == 0 then some (.vfsqrt (w.extractLsb' 19 5) (w.extractLsb' 14 5) (w.extractLsb' 6 3) (w.extractLsb' 4 2)) else none
  | 10 => if w.extractLsb' 9 5 == 0 then some (.vfrsqe (w.extractLsb' 19 5) (w.extractLsb' 14 5) (w.extractLsb' 6 3) (w.extractLsb' 4 2)) else none
  | 11 => if w.extractLsb' 9 5 == 0 then some (.vfrcpe (w.extractLsb' 19 5) (w.extractLsb' 14 5) (w.extractLsb' 6 3) (w.extractLsb' 4 2)) else none
  | 12 => if w.extractLsb' 9 5 == 0 then some (.vfabs (w.extractLsb' 19 5) (w.extractLsb' 14 5) (w.extractLsb' 6 3) (w.extractLsb' 4 2)) else none
  | 13 => if w.extractLsb' 9 5 == 0 then some (.vfneg (w.extractLsb' 19 5) (w.extractLsb' 14 5) (w.extractLsb' 6 3) (w.extractLsb' 4 2)) else none
  | 14 => some (.vfcpysVv (w.extractLsb' 19 5) (w.extractLsb' 14 5) (w.extractLsb' 9 5) (w.extractLsb' 6 3) (w.extractLsb' 4 2))
  | 15 => if w.extractLsb' 9 5 == 0 then some (.vfclass (w.extractLsb' 19 5) (w.extractLsb' 14 5) (w.extractLsb' 6 3) (w.extractLsb' 4 2)) else none
  | _ => none

/-- Major 0x2B (R270, R271): the operation is bits 3..0. -/
def major2B (w : BitVec 32) : Option Instr :=
  match (w.extractLsb' 0 4).toNat with
  | 0 => some (.vfaddVs (w.extractLsb' 19 5) (w.extractLsb' 14 5) (w.extractLsb' 9 5) (w.extractLsb' 6 3) (w.extractLsb' 4 2))
  | 1 => some (.vfsubVs (w.extractLsb' 19 5) (w.extractLsb' 14 5) (w.extractLsb' 9 5) (w.extractLsb' 6 3) (w.extractLsb' 4 2))
  | 2 => some (.vfmulVs (w.extractLsb' 19 5) (w.extractLsb' 14 5) (w.extractLsb' 9 5) (w.extractLsb' 6 3) (w.extractLsb' 4 2))
  | 3 => some (.vfmaVs (w.extractLsb' 19 5) (w.extractLsb' 14 5) (w.extractLsb' 9 5) (w.extractLsb' 6 3) (w.extractLsb' 4 2))
  | 4 => some (.vfmsVs (w.extractLsb' 19 5) (w.extractLsb' 14 5) (w.extractLsb' 9 5) (w.extractLsb' 6 3) (w.extractLsb' 4 2))
  | 5 => some (.vfnmaVs (w.extractLsb' 19 5) (w.extractLsb' 14 5) (w.extractLsb' 9 5) (w.extractLsb' 6 3) (w.extractLsb' 4 2))
  | 6 => some (.vfminVs (w.extractLsb' 19 5) (w.extractLsb' 14 5) (w.extractLsb' 9 5) (w.extractLsb' 6 3) (w.extractLsb' 4 2))
  | 7 => some (.vfmaxVs (w.extractLsb' 19 5) (w.extractLsb' 14 5) (w.extractLsb' 9 5) (w.extractLsb' 6 3) (w.extractLsb' 4 2))
  | 8 => some (.vfdivVs (w.extractLsb' 19 5) (w.extractLsb' 14 5) (w.extractLsb' 9 5) (w.extractLsb' 6 3) (w.extractLsb' 4 2))
  | 14 => some (.vfcpysVs (w.extractLsb' 19 5) (w.extractLsb' 14 5) (w.extractLsb' 9 5) (w.extractLsb' 6 3) (w.extractLsb' 4 2))
  | _ => none

/-- Major 0x2C (R275, R276): the operation is bits 3..0. -/
def major2C (w : BitVec 32) : Option Instr :=
  match (w.extractLsb' 0 4).toNat with
  | 0 => if w.extractLsb' 9 5 == 0 then some (.vmov (w.extractLsb' 19 5) (w.extractLsb' 14 5) (w.extractLsb' 6 3) (w.extractLsb' 4 2)) else none
  | 1 => if w.extractLsb' 14 5 == 0 then some (.vbcst (w.extractLsb' 19 5) (w.extractLsb' 9 5) (w.extractLsb' 6 3) (w.extractLsb' 4 2)) else none
  | 2 => if w.extractLsb' 6 3 == 0 then some (.vext (w.extractLsb' 19 5) (w.extractLsb' 14 5) (w.extractLsb' 9 5) (w.extractLsb' 4 2)) else none
  | 3 => if w.extractLsb' 6 3 == 0 then some (.vins (w.extractLsb' 19 5) (w.extractLsb' 14 5) (w.extractLsb' 9 5) (w.extractLsb' 4 2)) else none
  | 4 => some (.vsel (w.extractLsb' 19 5) (w.extractLsb' 14 5) (w.extractLsb' 9 5) (w.extractLsb' 6 3) (w.extractLsb' 4 2))
  | 5 => some (.vperm (w.extractLsb' 19 5) (w.extractLsb' 14 5) (w.extractLsb' 9 5) (w.extractLsb' 6 3) (w.extractLsb' 4 2))
  | 6 => some (.vrot (w.extractLsb' 19 5) (w.extractLsb' 14 5) (w.extractLsb' 9 5) (w.extractLsb' 6 3) (w.extractLsb' 4 2))
  | 7 => some (.vzip (w.extractLsb' 19 5) (w.extractLsb' 14 5) (w.extractLsb' 9 5) (w.extractLsb' 6 3) (w.extractLsb' 4 2))
  | 8 => some (.vunzip (w.extractLsb' 19 5) (w.extractLsb' 14 5) (w.extractLsb' 9 5) (w.extractLsb' 6 3) (w.extractLsb' 4 2))
  | 9 => if w.extractLsb' 9 10 == 0 then some (.viota (w.extractLsb' 19 5) (w.extractLsb' 6 3) (w.extractLsb' 4 2)) else none
  | _ => none

/-- Major 0x2D (R277, R278): the operation is bits 3..0. -/
def major2D (w : BitVec 32) : Option Instr :=
  match (w.extractLsb' 0 4).toNat with
  | 0 => if w.extractLsb' 9 5 == 0 then some (.vradd (w.extractLsb' 19 5) (w.extractLsb' 14 5) (w.extractLsb' 6 3) (w.extractLsb' 4 2)) else none
  | 1 => if w.extractLsb' 9 5 == 0 then some (.vrmax (w.extractLsb' 19 5) (w.extractLsb' 14 5) (w.extractLsb' 6 3) (w.extractLsb' 4 2)) else none
  | 2 => if w.extractLsb' 9 5 == 0 then some (.vrmin (w.extractLsb' 19 5) (w.extractLsb' 14 5) (w.extractLsb' 6 3) (w.extractLsb' 4 2)) else none
  | 3 => if w.extractLsb' 9 5 == 0 then some (.vrmaxu (w.extractLsb' 19 5) (w.extractLsb' 14 5) (w.extractLsb' 6 3) (w.extractLsb' 4 2)) else none
  | 4 => if w.extractLsb' 9 5 == 0 then some (.vrminu (w.extractLsb' 19 5) (w.extractLsb' 14 5) (w.extractLsb' 6 3) (w.extractLsb' 4 2)) else none
  | 5 => if w.extractLsb' 9 5 == 0 then some (.vrfadd (w.extractLsb' 19 5) (w.extractLsb' 14 5) (w.extractLsb' 6 3) (w.extractLsb' 4 2)) else none
  | 6 => if w.extractLsb' 9 5 == 0 then some (.vrfmax (w.extractLsb' 19 5) (w.extractLsb' 14 5) (w.extractLsb' 6 3) (w.extractLsb' 4 2)) else none
  | 7 => if w.extractLsb' 9 5 == 0 then some (.vrfmin (w.extractLsb' 19 5) (w.extractLsb' 14 5) (w.extractLsb' 6 3) (w.extractLsb' 4 2)) else none
  | 8 => if w.extractLsb' 9 5 == 0 then some (.vpopc (w.extractLsb' 19 5) (w.extractLsb' 14 5) (w.extractLsb' 6 3) (w.extractLsb' 4 2)) else none
  | 9 => if w.extractLsb' 9 5 == 0 then some (.vfirst (w.extractLsb' 19 5) (w.extractLsb' 14 5) (w.extractLsb' 6 3) (w.extractLsb' 4 2)) else none
  | _ => none

/-- Major 0x2E (R279): the operation is bits 3..0. -/
noncomputable def major2E (w : BitVec 32) : Option Instr :=
  match (w.extractLsb' 0 4).toNat with
  | 0 => some (.vcmpEq (w.extractLsb' 19 5) (w.extractLsb' 14 5) (w.extractLsb' 9 5) (w.extractLsb' 6 3) (w.extractLsb' 4 2))
  | 1 => some (.vcmpNe (w.extractLsb' 19 5) (w.extractLsb' 14 5) (w.extractLsb' 9 5) (w.extractLsb' 6 3) (w.extractLsb' 4 2))
  | 2 => some (.vcmpLt (w.extractLsb' 19 5) (w.extractLsb' 14 5) (w.extractLsb' 9 5) (w.extractLsb' 6 3) (w.extractLsb' 4 2))
  | 3 => some (.vcmpLe (w.extractLsb' 19 5) (w.extractLsb' 14 5) (w.extractLsb' 9 5) (w.extractLsb' 6 3) (w.extractLsb' 4 2))
  | 4 => some (.vcmpLtu (w.extractLsb' 19 5) (w.extractLsb' 14 5) (w.extractLsb' 9 5) (w.extractLsb' 6 3) (w.extractLsb' 4 2))
  | 5 => some (.vcmpLeu (w.extractLsb' 19 5) (w.extractLsb' 14 5) (w.extractLsb' 9 5) (w.extractLsb' 6 3) (w.extractLsb' 4 2))
  | 8 => some (.vcmpFeq (w.extractLsb' 19 5) (w.extractLsb' 14 5) (w.extractLsb' 9 5) (w.extractLsb' 6 3) (w.extractLsb' 4 2))
  | 9 => some (.vcmpFlt (w.extractLsb' 19 5) (w.extractLsb' 14 5) (w.extractLsb' 9 5) (w.extractLsb' 6 3) (w.extractLsb' 4 2))
  | 10 => some (.vcmpFle (w.extractLsb' 19 5) (w.extractLsb' 14 5) (w.extractLsb' 9 5) (w.extractLsb' 6 3) (w.extractLsb' 4 2))
  | 11 => some (.vcmpFun (w.extractLsb' 19 5) (w.extractLsb' 14 5) (w.extractLsb' 9 5) (w.extractLsb' 6 3) (w.extractLsb' 4 2))
  | _ => none

/-- Major 0x2F (R280): the operation is bits 3..0. -/
noncomputable def major2F (w : BitVec 32) : Option Instr :=
  match (w.extractLsb' 0 4).toNat with
  | 0 => if w.extractLsb' 4 5 == 0 then some (.mand (w.extractLsb' 19 5) (w.extractLsb' 14 5) (w.extractLsb' 9 5)) else none
  | 1 => if w.extractLsb' 4 5 == 0 then some (.mor (w.extractLsb' 19 5) (w.extractLsb' 14 5) (w.extractLsb' 9 5)) else none
  | 2 => if w.extractLsb' 4 5 == 0 then some (.mxor (w.extractLsb' 19 5) (w.extractLsb' 14 5) (w.extractLsb' 9 5)) else none
  | 3 => if w.extractLsb' 4 5 == 0 then some (.mandn (w.extractLsb' 19 5) (w.extractLsb' 14 5) (w.extractLsb' 9 5)) else none
  | 4 => if w.extractLsb' 4 10 == 0 then some (.mnot (w.extractLsb' 19 5) (w.extractLsb' 14 5)) else none
  | 5 => if w.extractLsb' 4 10 == 0 then some (.mfirstn (w.extractLsb' 19 5) (w.extractLsb' 14 5)) else none
  | 6 => if w.extractLsb' 4 10 == 0 then some (.mcnt (w.extractLsb' 19 5) (w.extractLsb' 14 5)) else none
  | _ => none

/-- Major 0x33 (R257): the operation is bits 2..0. -/
noncomputable def major33 (w : BitVec 32) : Option Instr :=
  match (w.extractLsb' 0 3).toNat with
  | 0 => if w.extractLsb' 3 11 == 0 then some (.bamax (w.extractLsb' 19 5) (w.extractLsb' 14 5)) else none
  | 1 => if w.extractLsb' 9 5 == 0 && w.extractLsb' 3 3 == 0 then some (.scld (w.extractLsb' 19 5) (w.extractLsb' 14 5) (w.extractLsb' 6 3)) else none
  | _ => none

/-- Major 0x34 (R296, R297): the operation is bits 8..0. -/
noncomputable def major34 (w : BitVec 32) : Option Instr :=
  match (w.extractLsb' 0 9).toNat with
  | 0 => if w.extractLsb' 9 15 == 0 then some .macq else none
  | 1 => if w.extractLsb' 9 15 == 0 then some .mrel else none
  | 2 => if w.extractLsb' 19 5 == 0 && w.extractLsb' 9 5 == 0 then some (.mzero (w.extractLsb' 14 5)) else none
  | 3 => some (.mrd (w.extractLsb' 19 5) (w.extractLsb' 14 5) (w.extractLsb' 9 5))
  | 4 => some (.mwr (w.extractLsb' 19 5) (w.extractLsb' 14 5) (w.extractLsb' 9 5))
  | 5 => if w.extractLsb' 9 5 == 0 then some (.mscl (w.extractLsb' 19 5) (w.extractLsb' 14 5)) else none
  | 6 => if w.extractLsb' 9 5 == 0 then some (.mchk (w.extractLsb' 19 5) (w.extractLsb' 14 5)) else none
  | 7 => if w.extractLsb' 19 5 == 0 && w.extractLsb' 9 5 == 0 then some (.sset (w.extractLsb' 14 5)) else none
  | _ => none

/-- Major 0x36 (R300): the operation is bits 8..0. -/
noncomputable def major36 (w : BitVec 32) : Option Instr :=
  match (w.extractLsb' 0 9).toNat with
  | 0 => if w.extractLsb' 9 10 == 0 then some (.tsld (w.extractLsb' 19 5)) else none
  | 1 => if w.extractLsb' 19 5 == 0 && w.extractLsb' 9 5 == 0 then some (.tsst (w.extractLsb' 14 5)) else none
  | 2 => if w.extractLsb' 19 5 == 0 then some (.tsfill (w.extractLsb' 14 5) (w.extractLsb' 9 5)) else none
  | _ => none

/-- Major 0x38 (R314, R315, R316, R317, R318, R319): the operation is bits 8..0. -/
noncomputable def major38 (w : BitVec 32) : Option Instr :=
  match (w.extractLsb' 0 9).toNat with
  | 0 => if w.extractLsb' 9 15 == 0 then some .cpy else none
  | 1 => if w.extractLsb' 9 15 == 0 then some .cpyd else none
  | 2 => if w.extractLsb' 9 15 == 0 then some .cpyx else none
  | 3 => if w.extractLsb' 9 15 == 0 then some .cpyts else none
  | 4 => if w.extractLsb' 9 15 == 0 then some .cpyr else none
  | 5 => if w.extractLsb' 9 10 == 0 then some (.cpyq (w.extractLsb' 19 5)) else none
  | _ => none

/-- Major 0x3B (R367, R368, R369, R370, R371): the operation is bits 8..0. -/
noncomputable def major3B (w : BitVec 32) : Option Instr :=
  match (w.extractLsb' 0 9).toNat with
  | 0 => some (.ckdecl (w.extractLsb' 19 5) (w.extractLsb' 14 5) (w.extractLsb' 9 5))
  | 1 => some (.srcdecl (w.extractLsb' 19 5) (w.extractLsb' 14 5) (w.extractLsb' 9 5))
  | 2 => if w.extractLsb' 19 5 == 0 && w.extractLsb' 9 5 == 0 then some (.sgadd (w.extractLsb' 14 5)) else none
  | 3 => if w.extractLsb' 9 10 == 0 then some (.sgqry (w.extractLsb' 19 5)) else none
  | 4 => if w.extractLsb' 9 5 == 0 then some (.agerd (w.extractLsb' 19 5) (w.extractLsb' 14 5)) else none
  | 5 => if w.extractLsb' 9 5 == 0 then some (.pwrrd (w.extractLsb' 19 5) (w.extractLsb' 14 5)) else none
  | 6 => if w.extractLsb' 19 5 == 0 then some (.pwrw (w.extractLsb' 14 5) (w.extractLsb' 9 5)) else none
  | 7 => if w.extractLsb' 9 5 == 0 then some (.rtqry (w.extractLsb' 19 5) (w.extractLsb' 14 5)) else none
  | _ => none

/-- Major 0x3D (R376): the operation is bits 13..12. -/
noncomputable def major3D (w : BitVec 32) : Option Instr :=
  match (w.extractLsb' 12 2).toNat with
  | 0 => if w.extractLsb' 14 5 == 0 then some (.csrr (w.extractLsb' 19 5) (w.extractLsb' 0 12)) else none
  | 1 => if w.extractLsb' 19 5 == 0 then some (.csrw (w.extractLsb' 14 5) (w.extractLsb' 0 12)) else none
  | 2 => some (.csrs (w.extractLsb' 19 5) (w.extractLsb' 14 5) (w.extractLsb' 0 12))
  | 3 => some (.csrc (w.extractLsb' 19 5) (w.extractLsb' 14 5) (w.extractLsb' 0 12))
  | _ => none

/-- Major 0x3E (R384, R385, R388, R389, R391, R392, R393, R395): the operation is bits 8..0. -/
noncomputable def major3E (w : BitVec 32) : Option Instr :=
  match (w.extractLsb' 0 9).toNat with
  | 0 => some (.tresume (w.extractLsb' 19 5) (w.extractLsb' 14 5) (w.extractLsb' 9 5))
  | 1 => some (.tabort (w.extractLsb' 19 5) (w.extractLsb' 14 5) (w.extractLsb' 9 5))
  | 2 => some (.tlbfill (w.extractLsb' 19 5) (w.extractLsb' 14 5) (w.extractLsb' 9 5))
  | 3 => if w.extractLsb' 19 5 == 0 then some (.tlbinv (w.extractLsb' 14 5) (w.extractLsb' 9 5)) else none
  | 4 => if w.extractLsb' 19 5 == 0 && w.extractLsb' 9 5 == 0 then some (.wssw (w.extractLsb' 14 5)) else none
  | 5 => if w.extractLsb' 19 5 == 0 && w.extractLsb' 9 5 == 0 then some (.svc (w.extractLsb' 14 5)) else none
  | 6 => if w.extractLsb' 9 15 == 0 then some .brk else none
  | 7 => if w.extractLsb' 19 5 == 0 then some (.halt (w.extractLsb' 14 5) (w.extractLsb' 9 5)) else none
  | 8 => if w.extractLsb' 9 15 == 0 then some .idle else none
  | 9 => if w.extractLsb' 19 5 == 0 then some (.bmmask (w.extractLsb' 14 5) (w.extractLsb' 9 5)) else none
  | _ => none

/-- The 32-bit words (R36): bits 31..30 are 0b11, bits 29..24 the major opcode. The majors that R33 calls
reserved have no arm. -/
noncomputable def word (w : BitVec 32) : Option Instr :=
  match (w.extractLsb' 24 6).toNat with
  | 0x00 => some (.br (w.extractLsb' 0 24))
  | 0x01 => some (.call (w.extractLsb' 0 24))
  | 0x02 => major02 w
  | 0x03 => if w.extractLsb' 19 5 == 0 then some (.jt (w.extractLsb' 14 5) (w.extractLsb' 0 14)) else none
  | 0x04 => if w.extractLsb' 16 8 == 0 then some (.lpad (w.extractLsb' 0 16)) else none
  | 0x05 => major05 w
  | 0x06 => if w.extractLsb' 0 4 == 0 then some (.rep (w.extractLsb' 19 5) (w.extractLsb' 16 3) (w.extractLsb' 12 4) (w.extractLsb' 8 4) (w.extractLsb' 4 4)) else none
  | 0x08 => major08 w
  | 0x09 => some (.addi (w.extractLsb' 19 5) (w.extractLsb' 14 5) (w.extractLsb' 0 14))
  | 0x0A => some (.andi (w.extractLsb' 19 5) (w.extractLsb' 14 5) (w.extractLsb' 0 14))
  | 0x0B => some (.ori (w.extractLsb' 19 5) (w.extractLsb' 14 5) (w.extractLsb' 0 14))
  | 0x0C => some (.xori (w.extractLsb' 19 5) (w.extractLsb' 14 5) (w.extractLsb' 0 14))
  | 0x0D => some (.lih (w.extractLsb' 19 5) (w.extractLsb' 0 19))
  | 0x0E => major0E w
  | 0x0F => some (.addpc (w.extractLsb' 19 5) (w.extractLsb' 0 19))
  | 0x10 => major10 w
  | 0x11 => some (.lde (w.extractLsb' 19 5) (w.extractLsb' 14 5) (w.extractLsb' 0 14))
  | 0x12 => major12 w
  | 0x14 => some (.ldL (w.extractLsb' 19 5) (w.extractLsb' 14 5) (w.extractLsb' 12 2) (w.extractLsb' 10 2) (w.extractLsb' 0 10))
  | 0x15 => some (.stL (w.extractLsb' 19 5) (w.extractLsb' 14 5) (w.extractLsb' 12 2) (w.extractLsb' 10 2) (w.extractLsb' 0 10))
  | 0x16 => some (.ldG (w.extractLsb' 19 5) (w.extractLsb' 14 5) (w.extractLsb' 12 2) (w.extractLsb' 10 2) (w.extractLsb' 0 10))
  | 0x17 => some (.stG (w.extractLsb' 19 5) (w.extractLsb' 14 5) (w.extractLsb' 12 2) (w.extractLsb' 10 2) (w.extractLsb' 0 10))
  | 0x18 => some (.ldT (w.extractLsb' 19 5) (w.extractLsb' 14 5) (w.extractLsb' 12 2) (w.extractLsb' 10 2) (w.extractLsb' 0 10))
  | 0x19 => some (.stT (w.extractLsb' 19 5) (w.extractLsb' 14 5) (w.extractLsb' 12 2) (w.extractLsb' 10 2) (w.extractLsb' 0 10))
  | 0x1A => major1A w
  | 0x1B => major1B w
  | 0x1C => major1C w
  | 0x1D => major1D w
  | 0x1E => major1E w
  | 0x1F => some (.stM (w.extractLsb' 19 5) (w.extractLsb' 14 5) (w.extractLsb' 12 2) (w.extractLsb' 10 2) (w.extractLsb' 0 10))
  | 0x20 => major20 w
  | 0x21 => major21 w
  | 0x22 => major22 w
  | 0x23 => major23 w
  | 0x24 => major24 w
  | 0x28 => major28 w
  | 0x29 => major29 w
  | 0x2A => major2A w
  | 0x2B => major2B w
  | 0x2C => major2C w
  | 0x2D => major2D w
  | 0x2E => major2E w
  | 0x2F => major2F w
  | 0x30 => if w.extractLsb' 9 2 == 0 then some (.vcvt (w.extractLsb' 19 5) (w.extractLsb' 14 5) (w.extractLsb' 11 3) (w.extractLsb' 5 4) (w.extractLsb' 1 4) (w.getLsbD 0)) else none
  | 0x31 => if w.extractLsb' 0 2 == 0 then some (.qnt (w.extractLsb' 19 5) (w.extractLsb' 14 5) (w.extractLsb' 9 5) (w.extractLsb' 6 3) (w.extractLsb' 3 3) (w.getLsbD 2)) else none
  | 0x32 => if w.extractLsb' 0 6 == 0 then some (.dqt (w.extractLsb' 19 5) (w.extractLsb' 14 5) (w.extractLsb' 9 5) (w.extractLsb' 6 3)) else none
  | 0x33 => major33 w
  | 0x34 => major34 w
  | 0x35 => if w.extractLsb' 0 2 == 0 then some (.mma (w.extractLsb' 19 5) (w.extractLsb' 14 5) (w.extractLsb' 9 5) (w.extractLsb' 5 4) (w.getLsbD 4) (w.getLsbD 3) (w.getLsbD 2)) else none
  | 0x36 => major36 w
  | 0x38 => major38 w
  | 0x3B => major3B w
  | 0x3D => major3D w
  | 0x3E => major3E w
  | 0x3F => some (.udf (w.extractLsb' 0 24))
  | _ => none

/-- Compact opcode 0x0 (R43). -/
def compact0 (w : BitVec 16) : Option Instr :=
  match (w.extractLsb' 0 12).toNat with
  | 0 => some .ill | 1 => some .cNop | 2 => some .cNend | 3 => some .cRet
  | _ => none

/-- The compact forms (R43): bits 15..12 are the opcode. -/
noncomputable def half (w : BitVec 16) : Option Instr :=
  match (w.extractLsb' 12 4).toNat with
  | 0x0 => compact0 w
  | 0x1 => if w.extractLsb' 0 4 == 0 then some (.cMov (w.extractLsb' 8 4) (w.extractLsb' 4 4)) else none
  | 0x2 => some (.cAddi (w.extractLsb' 8 4) (w.extractLsb' 0 8))
  | 0x3 => some (.cLi (w.extractLsb' 8 4) (w.extractLsb' 0 8))
  | 0x4 => some (.cAdd (w.extractLsb' 8 4) (w.extractLsb' 4 4) (w.extractLsb' 0 4))
  | 0x5 => some (.cSub (w.extractLsb' 8 4) (w.extractLsb' 4 4) (w.extractLsb' 0 4))
  | 0x6 => some (.cLdw (w.extractLsb' 8 4) (w.extractLsb' 4 4) (w.extractLsb' 0 4))
  | 0x7 => some (.cStw (w.extractLsb' 8 4) (w.extractLsb' 4 4) (w.extractLsb' 0 4))
  | 0x8 => some (.cBeqz (w.extractLsb' 8 4) (w.extractLsb' 0 8))
  | 0x9 => some (.cBnez (w.extractLsb' 8 4) (w.extractLsb' 0 8))
  | 0xA => some (.cBr (w.extractLsb' 0 12))
  | 0xB => if w.extractLsb' 6 2 == 0 then some (.cShli (w.extractLsb' 8 4) (w.extractLsb' 0 6)) else none
  | _ => none

/-- A halfword that starts a 32-bit instruction (R29). -/
def isLong (h : BitVec 16) : Bool := h.extractLsb' 14 2 == 3

end Decode

/-- The instruction of a 32-bit word, or why there is none. -/
noncomputable def decodeWord (w : BitVec 32) : Except DecodeError Instr :=
  match Decode.word w with
  | none => .error (.unassigned32 w)
  | some i => if i.wellFormed then .ok i else .error (.illFormed i)

/-- The instruction of a compact halfword, or why there is none. -/
noncomputable def decodeHalf (h : BitVec 16) : Except DecodeError Instr :=
  match Decode.half h with
  | none => .error (.unassigned16 h)
  | some i => if i.wellFormed then .ok i else .error (.illFormed i)

/-- Decoding of the halfwords at a PC (R29): the instruction and the halfwords after it. -/
noncomputable def decodeHalves : List (BitVec 16) → Except DecodeError (Instr × List (BitVec 16))
  | [] => .error .needsMore
  | h :: rest =>
    if Decode.isLong h then
      match rest with
      | [] => .error .needsMore
      | h2 :: rest2 => (decodeWord (h ++ h2)).map (·, rest2)
    else (decodeHalf h).map (·, rest)

/-- Halfwords of a byte stream: each is little-endian within itself (R2, R29). -/
def halvesOfBytes : List Byte → List (BitVec 16)
  | lo :: hi :: rest => (hi ++ lo) :: halvesOfBytes rest
  | _ => []

/-- Bytes of halfwords, each little-endian within itself. -/
def bytesOfHalves : List (BitVec 16) → List Byte
  | [] => []
  | h :: rest => h.extractLsb' 0 8 :: h.extractLsb' 8 8 :: bytesOfHalves rest

/-- The two halfwords of a 32-bit word, the high half first in memory (R29). -/
def word32 (w : BitVec 32) : List (BitVec 16) := [w.extractLsb' 16 16, w.extractLsb' 0 16]

/-- The halfwords of an instruction, in memory order; an event has none. -/
def encode : Instr → List (BitVec 16)
  | .br imm => word32 (0xc0#8 ++ imm)
  | .call imm => word32 (0xc1#8 ++ imm)
  | .beq a b off => word32 (0xc20#12 ++ a ++ b ++ off)
  | .bne a b off => word32 (0xc21#12 ++ a ++ b ++ off)
  | .blt a b off => word32 (0xc22#12 ++ a ++ b ++ off)
  | .bge a b off => word32 (0xc23#12 ++ a ++ b ++ off)
  | .bltu a b off => word32 (0xc24#12 ++ a ++ b ++ off)
  | .bgeu a b off => word32 (0xc25#12 ++ a ++ b ++ off)
  | .bbs a b off => word32 (0xc26#12 ++ a ++ b ++ off)
  | .bbc a b off => word32 (0xc27#12 ++ a ++ b ++ off)
  | .jt a imm => word32 (0x1860#13 ++ a ++ imm)
  | .lpad lab => word32 (0xc400#16 ++ lab)
  | .ret => word32 (0xc5000000#32)
  | .nend => word32 (0xc5000001#32)
  | .nabort a => word32 (0x18a0#13 ++ a ++ 0x2#14)
  | .maskw => word32 (0xc5000003#32)
  | .unmaskw => word32 (0xc5000004#32)
  | .rep cnt len d a b => word32 (0xc6#8 ++ cnt ++ len ++ d ++ a ++ b ++ 0x0#4)
  | .add d a b w => word32 (0xc8#8 ++ d ++ a ++ b ++ BitVec.ofBool w ++ 0x0#8)
  | .sub d a b w => word32 (0xc8#8 ++ d ++ a ++ b ++ BitVec.ofBool w ++ 0x1#8)
  | .and d a b w => word32 (0xc8#8 ++ d ++ a ++ b ++ BitVec.ofBool w ++ 0x2#8)
  | .or d a b w => word32 (0xc8#8 ++ d ++ a ++ b ++ BitVec.ofBool w ++ 0x3#8)
  | .xor d a b w => word32 (0xc8#8 ++ d ++ a ++ b ++ BitVec.ofBool w ++ 0x4#8)
  | .andn d a b w => word32 (0xc8#8 ++ d ++ a ++ b ++ BitVec.ofBool w ++ 0x5#8)
  | .shl d a b w => word32 (0xc8#8 ++ d ++ a ++ b ++ BitVec.ofBool w ++ 0x6#8)
  | .shr d a b w => word32 (0xc8#8 ++ d ++ a ++ b ++ BitVec.ofBool w ++ 0x7#8)
  | .sha d a b w => word32 (0xc8#8 ++ d ++ a ++ b ++ BitVec.ofBool w ++ 0x8#8)
  | .ror d a b w => word32 (0xc8#8 ++ d ++ a ++ b ++ BitVec.ofBool w ++ 0x9#8)
  | .mul d a b w => word32 (0xc8#8 ++ d ++ a ++ b ++ BitVec.ofBool w ++ 0xa#8)
  | .mulh d a b w => word32 (0xc8#8 ++ d ++ a ++ b ++ BitVec.ofBool w ++ 0xb#8)
  | .mulhu d a b w => word32 (0xc8#8 ++ d ++ a ++ b ++ BitVec.ofBool w ++ 0xc#8)
  | .div d a b w => word32 (0xc8#8 ++ d ++ a ++ b ++ BitVec.ofBool w ++ 0xd#8)
  | .divu d a b w => word32 (0xc8#8 ++ d ++ a ++ b ++ BitVec.ofBool w ++ 0xe#8)
  | .rem d a b w => word32 (0xc8#8 ++ d ++ a ++ b ++ BitVec.ofBool w ++ 0xf#8)
  | .remu d a b w => word32 (0xc8#8 ++ d ++ a ++ b ++ BitVec.ofBool w ++ 0x10#8)
  | .min d a b w => word32 (0xc8#8 ++ d ++ a ++ b ++ BitVec.ofBool w ++ 0x11#8)
  | .max d a b w => word32 (0xc8#8 ++ d ++ a ++ b ++ BitVec.ofBool w ++ 0x12#8)
  | .minu d a b w => word32 (0xc8#8 ++ d ++ a ++ b ++ BitVec.ofBool w ++ 0x13#8)
  | .maxu d a b w => word32 (0xc8#8 ++ d ++ a ++ b ++ BitVec.ofBool w ++ 0x14#8)
  | .slt d a b w => word32 (0xc8#8 ++ d ++ a ++ b ++ BitVec.ofBool w ++ 0x15#8)
  | .sltu d a b w => word32 (0xc8#8 ++ d ++ a ++ b ++ BitVec.ofBool w ++ 0x16#8)
  | .seq d a b w => word32 (0xc8#8 ++ d ++ a ++ b ++ BitVec.ofBool w ++ 0x17#8)
  | .clz d a w => word32 (0xc8#8 ++ d ++ a ++ 0x0#5 ++ BitVec.ofBool w ++ 0x18#8)
  | .ctz d a w => word32 (0xc8#8 ++ d ++ a ++ 0x0#5 ++ BitVec.ofBool w ++ 0x19#8)
  | .popc d a w => word32 (0xc8#8 ++ d ++ a ++ 0x0#5 ++ BitVec.ofBool w ++ 0x1a#8)
  | .brev d a w => word32 (0xc8#8 ++ d ++ a ++ 0x0#5 ++ BitVec.ofBool w ++ 0x1b#8)
  | .bswap d a w => word32 (0xc8#8 ++ d ++ a ++ 0x0#5 ++ BitVec.ofBool w ++ 0x1c#8)
  | .sext d a b => word32 (0xc8#8 ++ d ++ a ++ b ++ 0x1d#9)
  | .zext d a b => word32 (0xc8#8 ++ d ++ a ++ b ++ 0x1e#9)
  | .adds1 d a b w => word32 (0xc8#8 ++ d ++ a ++ b ++ BitVec.ofBool w ++ 0x1f#8)
  | .adds2 d a b w => word32 (0xc8#8 ++ d ++ a ++ b ++ BitVec.ofBool w ++ 0x20#8)
  | .adds3 d a b w => word32 (0xc8#8 ++ d ++ a ++ b ++ BitVec.ofBool w ++ 0x21#8)
  | .vta d a b => word32 (0xc8#8 ++ d ++ a ++ b ++ 0x22#9)
  | .sel d a b => word32 (0xc8#8 ++ d ++ a ++ b ++ 0x23#9)
  | .addi d a imm => word32 (0xc9#8 ++ d ++ a ++ imm)
  | .andi d a imm => word32 (0xca#8 ++ d ++ a ++ imm)
  | .ori d a imm => word32 (0xcb#8 ++ d ++ a ++ imm)
  | .xori d a imm => word32 (0xcc#8 ++ d ++ a ++ imm)
  | .lih d imm => word32 (0xcd#8 ++ d ++ imm)
  | .shli d a w amt => word32 (0xce#8 ++ d ++ a ++ 0x0#7 ++ BitVec.ofBool w ++ amt)
  | .shri d a w amt => word32 (0xce#8 ++ d ++ a ++ 0x20#7 ++ BitVec.ofBool w ++ amt)
  | .shai d a w amt => word32 (0xce#8 ++ d ++ a ++ 0x40#7 ++ BitVec.ofBool w ++ amt)
  | .rori d a w amt => word32 (0xce#8 ++ d ++ a ++ 0x60#7 ++ BitVec.ofBool w ++ amt)
  | .addpc d imm => word32 (0xcf#8 ++ d ++ imm)
  | .mfi d b => word32 (0xd0#8 ++ d ++ 0x0#5 ++ b ++ 0x0#9)
  | .mfe d b => word32 (0xd0#8 ++ d ++ 0x0#5 ++ b ++ 0x1#9)
  | .mte d a => word32 (0xd0#8 ++ d ++ a ++ 0x2#14)
  | .mfm d b => word32 (0xd0#8 ++ d ++ 0x0#5 ++ b ++ 0x3#9)
  | .mtm d a => word32 (0xd0#8 ++ d ++ a ++ 0x4#14)
  | .mfqc d b => word32 (0xd0#8 ++ d ++ 0x0#5 ++ b ++ 0x5#9)
  | .wsa d => word32 (0xd0#8 ++ d ++ 0x6#19)
  | .lde d a imm => word32 (0xd1#8 ++ d ++ a ++ imm)
  | .rcpDef d b => word32 (0xd2#8 ++ d ++ 0x0#5 ++ b ++ 0x0#9)
  | .rcpTagW d a => word32 (0xd2#8 ++ d ++ a ++ 0x1#14)
  | .rcpTagV d a => word32 (0xd2#8 ++ d ++ a ++ 0x2#14)
  | .rcpUntag d b => word32 (0xd2#8 ++ d ++ 0x0#5 ++ b ++ 0x3#9)
  | .rcpDrop d b => word32 (0xd2#8 ++ d ++ 0x0#5 ++ b ++ 0x4#9)
  | .rcpMat d b => word32 (0xd2#8 ++ d ++ 0x0#5 ++ b ++ 0x5#9)
  | .rcpClr d => word32 (0xd2#8 ++ d ++ 0x6#19)
  | .ldL t a ord sz off => word32 (0xd4#8 ++ t ++ a ++ ord ++ sz ++ off)
  | .stL t a ord sz off => word32 (0xd5#8 ++ t ++ a ++ ord ++ sz ++ off)
  | .ldG t a ord sz off => word32 (0xd6#8 ++ t ++ a ++ ord ++ sz ++ off)
  | .stG t a ord sz off => word32 (0xd7#8 ++ t ++ a ++ ord ++ sz ++ off)
  | .ldT t a ord sz off => word32 (0xd8#8 ++ t ++ a ++ ord ++ sz ++ off)
  | .stT t a ord sz off => word32 (0xd9#8 ++ t ++ a ++ ord ++ sz ++ off)
  | .vldL d a m esz => word32 (0xda#8 ++ d ++ a ++ 0x0#5 ++ m ++ esz ++ 0x0#4)
  | .vldG d a m esz => word32 (0xda#8 ++ d ++ a ++ 0x0#5 ++ m ++ esz ++ 0x1#4)
  | .vldT d a m esz => word32 (0xda#8 ++ d ++ a ++ 0x0#5 ++ m ++ esz ++ 0x2#4)
  | .vldsL d a b m esz => word32 (0xda#8 ++ d ++ a ++ b ++ m ++ esz ++ 0x3#4)
  | .vldsG d a b m esz => word32 (0xda#8 ++ d ++ a ++ b ++ m ++ esz ++ 0x4#4)
  | .vldxL d a b m esz => word32 (0xda#8 ++ d ++ a ++ b ++ m ++ esz ++ 0x5#4)
  | .vldxG d a b m esz => word32 (0xda#8 ++ d ++ a ++ b ++ m ++ esz ++ 0x6#4)
  | .vstL d a m esz => word32 (0xda#8 ++ d ++ a ++ 0x0#5 ++ m ++ esz ++ 0x8#4)
  | .vstG d a m esz => word32 (0xda#8 ++ d ++ a ++ 0x0#5 ++ m ++ esz ++ 0x9#4)
  | .vstT d a m esz => word32 (0xda#8 ++ d ++ a ++ 0x0#5 ++ m ++ esz ++ 0xa#4)
  | .vstsL d a b m esz => word32 (0xda#8 ++ d ++ a ++ b ++ m ++ esz ++ 0xb#4)
  | .vstsG d a b m esz => word32 (0xda#8 ++ d ++ a ++ b ++ m ++ esz ++ 0xc#4)
  | .vstxL d a b m esz => word32 (0xda#8 ++ d ++ a ++ b ++ m ++ esz ++ 0xd#4)
  | .vstxG d a b m esz => word32 (0xda#8 ++ d ++ a ++ b ++ m ++ esz ++ 0xe#4)
  | .tchR d a b => word32 (0xdb#8 ++ d ++ a ++ b ++ 0x0#9)
  | .tchW d a b => word32 (0xdb#8 ++ d ++ a ++ b ++ 0x1#9)
  | .trel a => word32 (0x1b60#13 ++ a ++ 0x2#14)
  | .prefG a => word32 (0x1b60#13 ++ a ++ 0x3#14)
  | .aaddL d a b ord scope sz64 => word32 (0xdc#8 ++ d ++ a ++ b ++ ord ++ scope ++ BitVec.ofBool sz64 ++ 0x0#4)
  | .aandL d a b ord scope sz64 => word32 (0xdc#8 ++ d ++ a ++ b ++ ord ++ scope ++ BitVec.ofBool sz64 ++ 0x1#4)
  | .aorL d a b ord scope sz64 => word32 (0xdc#8 ++ d ++ a ++ b ++ ord ++ scope ++ BitVec.ofBool sz64 ++ 0x2#4)
  | .axorL d a b ord scope sz64 => word32 (0xdc#8 ++ d ++ a ++ b ++ ord ++ scope ++ BitVec.ofBool sz64 ++ 0x3#4)
  | .aminL d a b ord scope sz64 => word32 (0xdc#8 ++ d ++ a ++ b ++ ord ++ scope ++ BitVec.ofBool sz64 ++ 0x4#4)
  | .amaxL d a b ord scope sz64 => word32 (0xdc#8 ++ d ++ a ++ b ++ ord ++ scope ++ BitVec.ofBool sz64 ++ 0x5#4)
  | .aminuL d a b ord scope sz64 => word32 (0xdc#8 ++ d ++ a ++ b ++ ord ++ scope ++ BitVec.ofBool sz64 ++ 0x6#4)
  | .amaxuL d a b ord scope sz64 => word32 (0xdc#8 ++ d ++ a ++ b ++ ord ++ scope ++ BitVec.ofBool sz64 ++ 0x7#4)
  | .aswpL d a b ord scope sz64 => word32 (0xdc#8 ++ d ++ a ++ b ++ ord ++ scope ++ BitVec.ofBool sz64 ++ 0x8#4)
  | .acasL d a b ord scope sz64 => word32 (0xdc#8 ++ d ++ a ++ b ++ ord ++ scope ++ BitVec.ofBool sz64 ++ 0x9#4)
  | .afaddL d a b ord scope sz64 => word32 (0xdc#8 ++ d ++ a ++ b ++ ord ++ scope ++ BitVec.ofBool sz64 ++ 0xa#4)
  | .aaddKL d a b scope sz64 => word32 (0xdc#8 ++ d ++ a ++ b ++ 0x0#2 ++ scope ++ BitVec.ofBool sz64 ++ 0xb#4)
  | .aaddT d a b ord scope sz64 => word32 (0xdd#8 ++ d ++ a ++ b ++ ord ++ scope ++ BitVec.ofBool sz64 ++ 0x0#4)
  | .aandT d a b ord scope sz64 => word32 (0xdd#8 ++ d ++ a ++ b ++ ord ++ scope ++ BitVec.ofBool sz64 ++ 0x1#4)
  | .aorT d a b ord scope sz64 => word32 (0xdd#8 ++ d ++ a ++ b ++ ord ++ scope ++ BitVec.ofBool sz64 ++ 0x2#4)
  | .axorT d a b ord scope sz64 => word32 (0xdd#8 ++ d ++ a ++ b ++ ord ++ scope ++ BitVec.ofBool sz64 ++ 0x3#4)
  | .aminT d a b ord scope sz64 => word32 (0xdd#8 ++ d ++ a ++ b ++ ord ++ scope ++ BitVec.ofBool sz64 ++ 0x4#4)
  | .amaxT d a b ord scope sz64 => word32 (0xdd#8 ++ d ++ a ++ b ++ ord ++ scope ++ BitVec.ofBool sz64 ++ 0x5#4)
  | .aminuT d a b ord scope sz64 => word32 (0xdd#8 ++ d ++ a ++ b ++ ord ++ scope ++ BitVec.ofBool sz64 ++ 0x6#4)
  | .amaxuT d a b ord scope sz64 => word32 (0xdd#8 ++ d ++ a ++ b ++ ord ++ scope ++ BitVec.ofBool sz64 ++ 0x7#4)
  | .aswpT d a b ord scope sz64 => word32 (0xdd#8 ++ d ++ a ++ b ++ ord ++ scope ++ BitVec.ofBool sz64 ++ 0x8#4)
  | .acasT d a b ord scope sz64 => word32 (0xdd#8 ++ d ++ a ++ b ++ ord ++ scope ++ BitVec.ofBool sz64 ++ 0x9#4)
  | .afaddT d a b ord scope sz64 => word32 (0xdd#8 ++ d ++ a ++ b ++ ord ++ scope ++ BitVec.ofBool sz64 ++ 0xa#4)
  | .aaddKT d a b scope sz64 => word32 (0xdd#8 ++ d ++ a ++ b ++ 0x0#2 ++ scope ++ BitVec.ofBool sz64 ++ 0xb#4)
  | .aaddG d a b ord scope sz64 => word32 (0xde#8 ++ d ++ a ++ b ++ ord ++ scope ++ BitVec.ofBool sz64 ++ 0x0#4)
  | .aandG d a b ord scope sz64 => word32 (0xde#8 ++ d ++ a ++ b ++ ord ++ scope ++ BitVec.ofBool sz64 ++ 0x1#4)
  | .aorG d a b ord scope sz64 => word32 (0xde#8 ++ d ++ a ++ b ++ ord ++ scope ++ BitVec.ofBool sz64 ++ 0x2#4)
  | .axorG d a b ord scope sz64 => word32 (0xde#8 ++ d ++ a ++ b ++ ord ++ scope ++ BitVec.ofBool sz64 ++ 0x3#4)
  | .aminG d a b ord scope sz64 => word32 (0xde#8 ++ d ++ a ++ b ++ ord ++ scope ++ BitVec.ofBool sz64 ++ 0x4#4)
  | .amaxG d a b ord scope sz64 => word32 (0xde#8 ++ d ++ a ++ b ++ ord ++ scope ++ BitVec.ofBool sz64 ++ 0x5#4)
  | .aminuG d a b ord scope sz64 => word32 (0xde#8 ++ d ++ a ++ b ++ ord ++ scope ++ BitVec.ofBool sz64 ++ 0x6#4)
  | .amaxuG d a b ord scope sz64 => word32 (0xde#8 ++ d ++ a ++ b ++ ord ++ scope ++ BitVec.ofBool sz64 ++ 0x7#4)
  | .aswpG d a b ord scope sz64 => word32 (0xde#8 ++ d ++ a ++ b ++ ord ++ scope ++ BitVec.ofBool sz64 ++ 0x8#4)
  | .acasG d a b ord scope sz64 => word32 (0xde#8 ++ d ++ a ++ b ++ ord ++ scope ++ BitVec.ofBool sz64 ++ 0x9#4)
  | .afaddG d a b ord scope sz64 => word32 (0xde#8 ++ d ++ a ++ b ++ ord ++ scope ++ BitVec.ofBool sz64 ++ 0xa#4)
  | .aaddKG d a b scope sz64 => word32 (0xde#8 ++ d ++ a ++ b ++ 0x0#2 ++ scope ++ BitVec.ofBool sz64 ++ 0xb#4)
  | .stM t a ord sz off => word32 (0xdf#8 ++ t ++ a ++ ord ++ sz ++ off)
  | .radd a rod => word32 (0x1c00#13 ++ a ++ 0x0#7 ++ rod)
  | .rset a rod => word32 (0x1c00#13 ++ a ++ 0x10#7 ++ rod)
  | .rget d rod => word32 (0xe0#8 ++ d ++ 0x20#12 ++ rod)
  | .rarm a rod => word32 (0x1c00#13 ++ a ++ 0x30#7 ++ rod)
  | .rwait rod => word32 (0x1c00040#25 ++ rod)
  | .rtest d rod => word32 (0xe0#8 ++ d ++ 0x50#12 ++ rod)
  | .barr rod => word32 (0x1c00060#25 ++ rod)
  | .bwait rod => word32 (0x1c00070#25 ++ rod)
  | .rrmt a b => word32 (0x1c20#13 ++ a ++ b ++ 0x0#9)
  | .rrmtK a b => word32 (0x1c20#13 ++ a ++ b ++ 0x1#9)
  | .raddX a b => word32 (0x1c20#13 ++ a ++ b ++ 0x2#9)
  | .waitm d b => word32 (0xe2#8 ++ d ++ 0x0#5 ++ b ++ 0x0#9)
  | .bmjoin a b => word32 (0x1c60#13 ++ a ++ b ++ 0x0#9)
  | .bmarr a => word32 (0x1c60#13 ++ a ++ 0x1#14)
  | .bmwait a => word32 (0x1c60#13 ++ a ++ 0x2#14)
  | .bmq d a => word32 (0xe3#8 ++ d ++ a ++ 0x3#14)
  | .bmleave a => word32 (0x1c60#13 ++ a ++ 0x4#14)
  | .tok a => word32 (0x1c80#13 ++ a ++ 0x0#14)
  | .tokv d a b => word32 (0xe4#8 ++ d ++ a ++ b ++ 0x1#9)
  | .ncan a => word32 (0x1c80#13 ++ a ++ 0x2#14)
  | .narm d a => word32 (0xe4#8 ++ d ++ a ++ 0x3#14)
  | .ndef d a b => word32 (0xe4#8 ++ d ++ a ++ b ++ 0x4#9)
  | .nqry d a => word32 (0xe4#8 ++ d ++ a ++ 0x5#14)
  | .evb d a b => word32 (0xe4#8 ++ d ++ a ++ b ++ 0x6#9)
  | .evu d a => word32 (0xe4#8 ++ d ++ a ++ 0x7#14)
  | .vaddVv d a b m esz => word32 (0xe8#8 ++ d ++ a ++ b ++ m ++ esz ++ 0x0#4)
  | .vsubVv d a b m esz => word32 (0xe8#8 ++ d ++ a ++ b ++ m ++ esz ++ 0x1#4)
  | .vmulVv d a b m esz => word32 (0xe8#8 ++ d ++ a ++ b ++ m ++ esz ++ 0x2#4)
  | .vmulhVv d a b m esz => word32 (0xe8#8 ++ d ++ a ++ b ++ m ++ esz ++ 0x3#4)
  | .vminVv d a b m esz => word32 (0xe8#8 ++ d ++ a ++ b ++ m ++ esz ++ 0x4#4)
  | .vmaxVv d a b m esz => word32 (0xe8#8 ++ d ++ a ++ b ++ m ++ esz ++ 0x5#4)
  | .vminuVv d a b m esz => word32 (0xe8#8 ++ d ++ a ++ b ++ m ++ esz ++ 0x6#4)
  | .vmaxuVv d a b m esz => word32 (0xe8#8 ++ d ++ a ++ b ++ m ++ esz ++ 0x7#4)
  | .vandVv d a b m esz => word32 (0xe8#8 ++ d ++ a ++ b ++ m ++ esz ++ 0x8#4)
  | .vorVv d a b m esz => word32 (0xe8#8 ++ d ++ a ++ b ++ m ++ esz ++ 0x9#4)
  | .vxorVv d a b m esz => word32 (0xe8#8 ++ d ++ a ++ b ++ m ++ esz ++ 0xa#4)
  | .vshlVv d a b m esz => word32 (0xe8#8 ++ d ++ a ++ b ++ m ++ esz ++ 0xb#4)
  | .vshrVv d a b m esz => word32 (0xe8#8 ++ d ++ a ++ b ++ m ++ esz ++ 0xc#4)
  | .vshaVv d a b m esz => word32 (0xe8#8 ++ d ++ a ++ b ++ m ++ esz ++ 0xd#4)
  | .vaddsatVv d a b m esz => word32 (0xe8#8 ++ d ++ a ++ b ++ m ++ esz ++ 0xe#4)
  | .vsubsatVv d a b m esz => word32 (0xe8#8 ++ d ++ a ++ b ++ m ++ esz ++ 0xf#4)
  | .vaddVs d a b m esz => word32 (0xe9#8 ++ d ++ a ++ b ++ m ++ esz ++ 0x0#4)
  | .vsubVs d a b m esz => word32 (0xe9#8 ++ d ++ a ++ b ++ m ++ esz ++ 0x1#4)
  | .vmulVs d a b m esz => word32 (0xe9#8 ++ d ++ a ++ b ++ m ++ esz ++ 0x2#4)
  | .vmulhVs d a b m esz => word32 (0xe9#8 ++ d ++ a ++ b ++ m ++ esz ++ 0x3#4)
  | .vminVs d a b m esz => word32 (0xe9#8 ++ d ++ a ++ b ++ m ++ esz ++ 0x4#4)
  | .vmaxVs d a b m esz => word32 (0xe9#8 ++ d ++ a ++ b ++ m ++ esz ++ 0x5#4)
  | .vminuVs d a b m esz => word32 (0xe9#8 ++ d ++ a ++ b ++ m ++ esz ++ 0x6#4)
  | .vmaxuVs d a b m esz => word32 (0xe9#8 ++ d ++ a ++ b ++ m ++ esz ++ 0x7#4)
  | .vandVs d a b m esz => word32 (0xe9#8 ++ d ++ a ++ b ++ m ++ esz ++ 0x8#4)
  | .vorVs d a b m esz => word32 (0xe9#8 ++ d ++ a ++ b ++ m ++ esz ++ 0x9#4)
  | .vxorVs d a b m esz => word32 (0xe9#8 ++ d ++ a ++ b ++ m ++ esz ++ 0xa#4)
  | .vshlVs d a b m esz => word32 (0xe9#8 ++ d ++ a ++ b ++ m ++ esz ++ 0xb#4)
  | .vshrVs d a b m esz => word32 (0xe9#8 ++ d ++ a ++ b ++ m ++ esz ++ 0xc#4)
  | .vshaVs d a b m esz => word32 (0xe9#8 ++ d ++ a ++ b ++ m ++ esz ++ 0xd#4)
  | .vaddsatVs d a b m esz => word32 (0xe9#8 ++ d ++ a ++ b ++ m ++ esz ++ 0xe#4)
  | .vsubsatVs d a b m esz => word32 (0xe9#8 ++ d ++ a ++ b ++ m ++ esz ++ 0xf#4)
  | .vfaddVv d a b m esz => word32 (0xea#8 ++ d ++ a ++ b ++ m ++ esz ++ 0x0#4)
  | .vfsubVv d a b m esz => word32 (0xea#8 ++ d ++ a ++ b ++ m ++ esz ++ 0x1#4)
  | .vfmulVv d a b m esz => word32 (0xea#8 ++ d ++ a ++ b ++ m ++ esz ++ 0x2#4)
  | .vfmaVv d a b m esz => word32 (0xea#8 ++ d ++ a ++ b ++ m ++ esz ++ 0x3#4)
  | .vfmsVv d a b m esz => word32 (0xea#8 ++ d ++ a ++ b ++ m ++ esz ++ 0x4#4)
  | .vfnmaVv d a b m esz => word32 (0xea#8 ++ d ++ a ++ b ++ m ++ esz ++ 0x5#4)
  | .vfminVv d a b m esz => word32 (0xea#8 ++ d ++ a ++ b ++ m ++ esz ++ 0x6#4)
  | .vfmaxVv d a b m esz => word32 (0xea#8 ++ d ++ a ++ b ++ m ++ esz ++ 0x7#4)
  | .vfdivVv d a b m esz => word32 (0xea#8 ++ d ++ a ++ b ++ m ++ esz ++ 0x8#4)
  | .vfsqrt d a m esz => word32 (0xea#8 ++ d ++ a ++ 0x0#5 ++ m ++ esz ++ 0x9#4)
  | .vfrsqe d a m esz => word32 (0xea#8 ++ d ++ a ++ 0x0#5 ++ m ++ esz ++ 0xa#4)
  | .vfrcpe d a m esz => word32 (0xea#8 ++ d ++ a ++ 0x0#5 ++ m ++ esz ++ 0xb#4)
  | .vfabs d a m esz => word32 (0xea#8 ++ d ++ a ++ 0x0#5 ++ m ++ esz ++ 0xc#4)
  | .vfneg d a m esz => word32 (0xea#8 ++ d ++ a ++ 0x0#5 ++ m ++ esz ++ 0xd#4)
  | .vfcpysVv d a b m esz => word32 (0xea#8 ++ d ++ a ++ b ++ m ++ esz ++ 0xe#4)
  | .vfclass d a m esz => word32 (0xea#8 ++ d ++ a ++ 0x0#5 ++ m ++ esz ++ 0xf#4)
  | .vfaddVs d a b m esz => word32 (0xeb#8 ++ d ++ a ++ b ++ m ++ esz ++ 0x0#4)
  | .vfsubVs d a b m esz => word32 (0xeb#8 ++ d ++ a ++ b ++ m ++ esz ++ 0x1#4)
  | .vfmulVs d a b m esz => word32 (0xeb#8 ++ d ++ a ++ b ++ m ++ esz ++ 0x2#4)
  | .vfmaVs d a b m esz => word32 (0xeb#8 ++ d ++ a ++ b ++ m ++ esz ++ 0x3#4)
  | .vfmsVs d a b m esz => word32 (0xeb#8 ++ d ++ a ++ b ++ m ++ esz ++ 0x4#4)
  | .vfnmaVs d a b m esz => word32 (0xeb#8 ++ d ++ a ++ b ++ m ++ esz ++ 0x5#4)
  | .vfminVs d a b m esz => word32 (0xeb#8 ++ d ++ a ++ b ++ m ++ esz ++ 0x6#4)
  | .vfmaxVs d a b m esz => word32 (0xeb#8 ++ d ++ a ++ b ++ m ++ esz ++ 0x7#4)
  | .vfdivVs d a b m esz => word32 (0xeb#8 ++ d ++ a ++ b ++ m ++ esz ++ 0x8#4)
  | .vfcpysVs d a b m esz => word32 (0xeb#8 ++ d ++ a ++ b ++ m ++ esz ++ 0xe#4)
  | .vmov d a m esz => word32 (0xec#8 ++ d ++ a ++ 0x0#5 ++ m ++ esz ++ 0x0#4)
  | .vbcst d b m esz => word32 (0xec#8 ++ d ++ 0x0#5 ++ b ++ m ++ esz ++ 0x1#4)
  | .vext d a b esz => word32 (0xec#8 ++ d ++ a ++ b ++ 0x0#3 ++ esz ++ 0x2#4)
  | .vins d a b esz => word32 (0xec#8 ++ d ++ a ++ b ++ 0x0#3 ++ esz ++ 0x3#4)
  | .vsel d a b m esz => word32 (0xec#8 ++ d ++ a ++ b ++ m ++ esz ++ 0x4#4)
  | .vperm d a b m esz => word32 (0xec#8 ++ d ++ a ++ b ++ m ++ esz ++ 0x5#4)
  | .vrot d a b m esz => word32 (0xec#8 ++ d ++ a ++ b ++ m ++ esz ++ 0x6#4)
  | .vzip d a b m esz => word32 (0xec#8 ++ d ++ a ++ b ++ m ++ esz ++ 0x7#4)
  | .vunzip d a b m esz => word32 (0xec#8 ++ d ++ a ++ b ++ m ++ esz ++ 0x8#4)
  | .viota d m esz => word32 (0xec#8 ++ d ++ 0x0#10 ++ m ++ esz ++ 0x9#4)
  | .vradd d a m esz => word32 (0xed#8 ++ d ++ a ++ 0x0#5 ++ m ++ esz ++ 0x0#4)
  | .vrmax d a m esz => word32 (0xed#8 ++ d ++ a ++ 0x0#5 ++ m ++ esz ++ 0x1#4)
  | .vrmin d a m esz => word32 (0xed#8 ++ d ++ a ++ 0x0#5 ++ m ++ esz ++ 0x2#4)
  | .vrmaxu d a m esz => word32 (0xed#8 ++ d ++ a ++ 0x0#5 ++ m ++ esz ++ 0x3#4)
  | .vrminu d a m esz => word32 (0xed#8 ++ d ++ a ++ 0x0#5 ++ m ++ esz ++ 0x4#4)
  | .vrfadd d a m esz => word32 (0xed#8 ++ d ++ a ++ 0x0#5 ++ m ++ esz ++ 0x5#4)
  | .vrfmax d a m esz => word32 (0xed#8 ++ d ++ a ++ 0x0#5 ++ m ++ esz ++ 0x6#4)
  | .vrfmin d a m esz => word32 (0xed#8 ++ d ++ a ++ 0x0#5 ++ m ++ esz ++ 0x7#4)
  | .vpopc d a m esz => word32 (0xed#8 ++ d ++ a ++ 0x0#5 ++ m ++ esz ++ 0x8#4)
  | .vfirst d a m esz => word32 (0xed#8 ++ d ++ a ++ 0x0#5 ++ m ++ esz ++ 0x9#4)
  | .vcmpEq d a b m esz => word32 (0xee#8 ++ d ++ a ++ b ++ m ++ esz ++ 0x0#4)
  | .vcmpNe d a b m esz => word32 (0xee#8 ++ d ++ a ++ b ++ m ++ esz ++ 0x1#4)
  | .vcmpLt d a b m esz => word32 (0xee#8 ++ d ++ a ++ b ++ m ++ esz ++ 0x2#4)
  | .vcmpLe d a b m esz => word32 (0xee#8 ++ d ++ a ++ b ++ m ++ esz ++ 0x3#4)
  | .vcmpLtu d a b m esz => word32 (0xee#8 ++ d ++ a ++ b ++ m ++ esz ++ 0x4#4)
  | .vcmpLeu d a b m esz => word32 (0xee#8 ++ d ++ a ++ b ++ m ++ esz ++ 0x5#4)
  | .vcmpFeq d a b m esz => word32 (0xee#8 ++ d ++ a ++ b ++ m ++ esz ++ 0x8#4)
  | .vcmpFlt d a b m esz => word32 (0xee#8 ++ d ++ a ++ b ++ m ++ esz ++ 0x9#4)
  | .vcmpFle d a b m esz => word32 (0xee#8 ++ d ++ a ++ b ++ m ++ esz ++ 0xa#4)
  | .vcmpFun d a b m esz => word32 (0xee#8 ++ d ++ a ++ b ++ m ++ esz ++ 0xb#4)
  | .mand d a b => word32 (0xef#8 ++ d ++ a ++ b ++ 0x0#9)
  | .mor d a b => word32 (0xef#8 ++ d ++ a ++ b ++ 0x1#9)
  | .mxor d a b => word32 (0xef#8 ++ d ++ a ++ b ++ 0x2#9)
  | .mandn d a b => word32 (0xef#8 ++ d ++ a ++ b ++ 0x3#9)
  | .mnot d a => word32 (0xef#8 ++ d ++ a ++ 0x4#14)
  | .mfirstn d a => word32 (0xef#8 ++ d ++ a ++ 0x5#14)
  | .mcnt d a => word32 (0xef#8 ++ d ++ a ++ 0x6#14)
  | .vcvt d a rm dst src sat => word32 (0xf0#8 ++ d ++ a ++ rm ++ 0x0#2 ++ dst ++ src ++ BitVec.ofBool sat)
  | .qnt d a b tgt rm sat => word32 (0xf1#8 ++ d ++ a ++ b ++ tgt ++ rm ++ BitVec.ofBool sat ++ 0x0#2)
  | .dqt d a b tgt => word32 (0xf2#8 ++ d ++ a ++ b ++ tgt ++ 0x0#6)
  | .bamax d a => word32 (0xf3#8 ++ d ++ a ++ 0x0#14)
  | .scld d a tgt => word32 (0xf3#8 ++ d ++ a ++ 0x0#5 ++ tgt ++ 0x1#6)
  | .macq => word32 (0xf4000000#32)
  | .mrel => word32 (0xf4000001#32)
  | .mzero a => word32 (0x1e80#13 ++ a ++ 0x2#14)
  | .mrd d a b => word32 (0xf4#8 ++ d ++ a ++ b ++ 0x3#9)
  | .mwr d a b => word32 (0xf4#8 ++ d ++ a ++ b ++ 0x4#9)
  | .mscl d a => word32 (0xf4#8 ++ d ++ a ++ 0x5#14)
  | .mchk d a => word32 (0xf4#8 ++ d ++ a ++ 0x6#14)
  | .sset a => word32 (0x1e80#13 ++ a ++ 0x7#14)
  | .mma d a b fmt inc sp init => word32 (0xf5#8 ++ d ++ a ++ b ++ fmt ++ BitVec.ofBool inc ++ BitVec.ofBool sp ++ BitVec.ofBool init ++ 0x0#2)
  | .tsld d => word32 (0xf6#8 ++ d ++ 0x0#19)
  | .tsst a => word32 (0x1ec0#13 ++ a ++ 0x1#14)
  | .tsfill a b => word32 (0x1ec0#13 ++ a ++ b ++ 0x2#9)
  | .cpy => word32 (0xf8000000#32)
  | .cpyd => word32 (0xf8000001#32)
  | .cpyx => word32 (0xf8000002#32)
  | .cpyts => word32 (0xf8000003#32)
  | .cpyr => word32 (0xf8000004#32)
  | .cpyq d => word32 (0xf8#8 ++ d ++ 0x5#19)
  | .ckdecl d a b => word32 (0xfb#8 ++ d ++ a ++ b ++ 0x0#9)
  | .srcdecl d a b => word32 (0xfb#8 ++ d ++ a ++ b ++ 0x1#9)
  | .sgadd a => word32 (0x1f60#13 ++ a ++ 0x2#14)
  | .sgqry d => word32 (0xfb#8 ++ d ++ 0x3#19)
  | .agerd d a => word32 (0xfb#8 ++ d ++ a ++ 0x4#14)
  | .pwrrd d a => word32 (0xfb#8 ++ d ++ a ++ 0x5#14)
  | .pwrw a b => word32 (0x1f60#13 ++ a ++ b ++ 0x6#9)
  | .rtqry d a => word32 (0xfb#8 ++ d ++ a ++ 0x7#14)
  | .csrr d csr => word32 (0xfd#8 ++ d ++ 0x0#7 ++ csr)
  | .csrw a csr => word32 (0x1fa0#13 ++ a ++ 0x1#2 ++ csr)
  | .csrs d a csr => word32 (0xfd#8 ++ d ++ a ++ 0x2#2 ++ csr)
  | .csrc d a csr => word32 (0xfd#8 ++ d ++ a ++ 0x3#2 ++ csr)
  | .tresume d a b => word32 (0xfe#8 ++ d ++ a ++ b ++ 0x0#9)
  | .tabort d a b => word32 (0xfe#8 ++ d ++ a ++ b ++ 0x1#9)
  | .tlbfill d a b => word32 (0xfe#8 ++ d ++ a ++ b ++ 0x2#9)
  | .tlbinv a b => word32 (0x1fc0#13 ++ a ++ b ++ 0x3#9)
  | .wssw a => word32 (0x1fc0#13 ++ a ++ 0x4#14)
  | .svc a => word32 (0x1fc0#13 ++ a ++ 0x5#14)
  | .brk => word32 (0xfe000006#32)
  | .halt a b => word32 (0x1fc0#13 ++ a ++ b ++ 0x7#9)
  | .idle => word32 (0xfe000008#32)
  | .bmmask a b => word32 (0x1fc0#13 ++ a ++ b ++ 0x9#9)
  | .udf x => word32 (0xff#8 ++ x)
  | .ill => [0x0#16]
  | .cNop => [0x1#16]
  | .cNend => [0x2#16]
  | .cRet => [0x3#16]
  | .cMov d a => [0x1#4 ++ d ++ a ++ 0x0#4]
  | .cAddi d imm => [0x2#4 ++ d ++ imm]
  | .cLi d imm => [0x3#4 ++ d ++ imm]
  | .cAdd d a b => [0x4#4 ++ d ++ a ++ b]
  | .cSub d a b => [0x5#4 ++ d ++ a ++ b]
  | .cLdw d a off => [0x6#4 ++ d ++ a ++ off]
  | .cStw t a off => [0x7#4 ++ t ++ a ++ off]
  | .cBeqz a off => [0x8#4 ++ a ++ off]
  | .cBnez a off => [0x9#4 ++ a ++ off]
  | .cBr off => [0xa#4 ++ off]
  | .cShli d amt => [0xb#4 ++ d ++ 0x0#2 ++ amt]
  | .sqtailNotify _ _ _ => []
  | .queueSlotMap _ => []
  | .launchRecord _ => []
  | .haltRecord _ => []
  | .resumeRecord _ => []
  | .cancelRecord _ => []
  | .cqhead _ _ _ => []
  | .nodeStart _ _ => []
  | .urgentStart _ _ => []
  | .commit _ => []
  | .borrow _ => []
  | .epochAck _ => []
  | .token _ => []
  | .restoreItem _ => []
  | .beadReturn _ => []
  | .nodeRetry _ => []
  | .budgetExpiry _ => []
  | .accessResponse _ => []
  | .trapMessage _ => []
  | .remoteRodAdd _ => []
  | .copyPost _ => []
  | .copySegment _ => []
  | .segmentDelivery _ _ => []
  | .copyQueuePush _ => []
  | .copyEnd _ => []
  | .beamRaise _ _ _ => []
  | .beamRelease _ _ _ => []
  | .routerDeath _ _ => []
  | .beamRecombine _ _ => []
  | .rotcmdGo _ _ _ => []
  | .rotcmdEmerg _ _ _ => []
  | .drainEnd _ _ => []
  | .drainLimitExpiry _ _ => []
  | .remap _ _ => []
  | .mapGenerationApply _ _ => []
  | .marker _ _ => []
  | .selfTestDone _ _ _ _ => []
  | .epochTimer _ => []
  | .epochApply _ => []
  | .durableAck _ => []
  | .tileLoss _ _ => []
  | .restoreNotice _ _ => []
  | .restoreResend _ => []
  | .screenCompare _ => []
  | .silenceProbe _ _ => []
  | .probeAnswer _ _ => []
  | .probeTimeout _ _ => []
  | .quantaGrant _ => []
  | .reserveShare _ => []
  | .migrationGo _ _ _ => []
  | .migrationRoundEnd _ _ => []
  | .ptcmdSpareToReplica _ _ _ => []
  | .ptcmdReplicaToSpare _ _ _ => []
  | .ptcmdSpareToSelfTest _ _ _ => []
  | .l2gate _ _ _ => []
  | .seedWrite _ => []
  | .counterEvent _ _ => []
  | .idleWake _ => []
  | .debuggerTrigger _ _ _ => []
  | .firmwareCoreReset _ => []
  | .flit _ _ _ _ _ _ _ => []
  | .replayRequest _ _ _ => []
  | .idleFlit _ _ => []
  | .retrainEnd _ _ _ => []
  | .panelShrink _ => []
  | .boot _ _ => []
  | .capw _ _ => []
  | .swbrake _ _ => []
  | .brkpin _ _ => []
  | .attestationRequest _ _ => []
  | .hostRequest _ _ => []
  | .mailboxRequest _ _ => []
  | .eccError _ _ => []
  | .registerWrite _ _ _ => []
  | .trayAddBack _ => []
  | .powerRemoval _ => []

/-- The bytes of an instruction, in memory order. -/
def encodeBytes (i : Instr) : List Byte := bytesOfHalves (encode i)

/-- The length of an instruction in bytes (R29): 2 for a compact form, 4 for a word, 0 for an event. -/
def Instr.length (i : Instr) : Nat := 2 * (encode i).length

/-- The halfwords of a table row's bits: a row of 16 bits or fewer is one halfword, followed by a halfword of
zeros; a row of up to 32 bits is one instruction word, whose high half comes first in memory (R29). -/
def tableHalves (nbits w : Nat) : List (BitVec 16) :=
  if nbits ≤ 16 then [BitVec.ofNat 16 w, 0] else word32 (BitVec.ofNat 32 w)

/-- What the decoder reads from the bits of a row of spec/opcode_table.json, laid out in memory as bytes. An
event row has no bits. -/
noncomputable def decodeTableWord (nbits w : Nat) : Option Instr :=
  if nbits = 0 then none
  else
    match decodeHalves (halvesOfBytes (bytesOfHalves (tableHalves nbits w))) with
    | .ok (i, _) => some i
    | .error _ => none

end Sys2Proof
end

