-- ==== Sys2Proof/Config.lean ====
section
/-! DEFINITION. What is fixed for the device (the sizes and the map of its memories) and the values the spec
leaves open: each open value is an opaque constant applied to plain data, so that no proof can see a number. -/

namespace Sys2Proof.Config

/-- R126, R127: bytes of a tile's LM. -/
def lmSize : Nat := 0x200000
/-- R126: end of the node table. -/
def nodeTableEnd : Nat := 0x40000
/-- R126: end of the mirror area. -/
def mirrorEnd : Nat := 0xA0000
/-- R126: end of the graph-engine state; the general region starts here. -/
def generalBase : Nat := 0xA1000
/-- R19, R180: the sync page in a tile window. -/
def syncBase : Nat := 0x200000
/-- R19, R180: end of the sync page. -/
def syncEnd : Nat := 0x200300
/-- R98: bytes of a workspace. -/
def wsSize : Nat := 0x1200
/-- R223: bytes of a workspace with its lease table and padding, before the scratch area. -/
def areaSize : Nat := 0x1400
/-- R206: the beads a graph starts with. -/
def allBeads : Nat := 2 ^ 32
/-- R373: bytes of a firmware memory. -/
def fwSize : Nat := 0x100000
/-- Activations of tiles have keys below this; firmware contexts have their core's number above it. -/
def fwKey : Nat := 2 ^ 27
/-- Tile keys at and above this name the tile of a PT in the Replica role (R351). -/
def replicaBase : Nat := 2 ^ 15

/-- Bytes of 0x04_0000 to 0x0A_0FFF (R126, R219, R339): the layout is the device's own, so what a load of them
returns is a free value, by the tile, the offset and the state's counter `tick` (log 28). -/
opaque engineByte : Nat → Nat → Nat → Byte
/-- The two AES-256 keys of an owner key id 1 to 255 (R155), which firmware loads and no instruction reads: the first in
the low 256 bits, the tweak's above it (log 29). -/
opaque ownerKey : Nat → BitVec 512
/-- SHA3-256 over bytes (R434, R436; log 30). -/
opaque digest : List Byte → BitVec 256
/-- The signature of the device identity key over a report (R436; log 30). -/
opaque signature : List Byte → List Byte
/-- The ML-DSA-44 signature of a digest under the key that a public key belongs to (R434; log 30). -/
opaque imageSignature : List Byte → BitVec 256 → List Byte
/-- The draw of the module in W averaged over the last 1 ms (R428), by the counter `tick` (log 31). -/
opaque draw : Nat → BitVec 16
/-- Whether grants are held below demand by the cap (R428), by the counter `tick` (log 31). -/
opaque limited : Nat → Bool
/-- The grants of the die power controller within the module cap (R362, R429): the units of 1/64 nJ one grant adds, by the tile's
grant rate, the draw in W that the cap and its ramp grant the module, and the counter `tick` (log 32). -/
opaque grantUnits : Nat → Nat → Nat → Nat
/-- The bin of stress time that a local cycle of a PT falls in, by its supply and its temperature, which are outside the model
(R357), by PT key and tick (log 33). -/
opaque stress : Nat → Nat → Fin 16
/-- The header PC of the last attempt of a node whose tile was lost with it (R348, R210): no value is left. By the
counter `tick` (log 34). -/
opaque lostPc : Nat → Word
/-- The charge of an instruction word of a class that R361 does not list (leases and prefetch, the matrix engine other
than mma, CSR and system instructions), in 1/64 nJ (log 35). -/
opaque unlistedCharge : BitVec 32 → Nat

end Sys2Proof.Config
end

