-- ==== Sys2Proof/Machine/Cipher.lean ====
section
/-! DEFINITION. AES-256-XTS over the 128-byte lines of global memory (R155, R156): the block cipher of FIPS 197, the mode of
IEEE 1619 with the line number as tweak, and a line as a reader under another key id sees it. -/

namespace Sys2Proof.Machine

/-! ### The field of AES -/

/-- Multiplication by x modulo x^8 + x^4 + x^3 + x + 1. -/
def xtime (a : Byte) : Byte := (a <<< 1) ^^^ (if a.getLsbD 7 then 0x1B else 0)

/-- a × b in the field, over the n low bits of b. -/
def gfMul : Nat → Byte → Byte → Byte
  | 0, _, _ => 0
  | n + 1, a, b => (if b.getLsbD 0 then a else 0) ^^^ gfMul n (xtime a) (b >>> 1)

/-- a × b. -/
def gf (a b : Byte) : Byte := gfMul 8 a b

/-- The inverse of a, its 254th power; 0 for 0. -/
def gfInv (a : Byte) : Byte :=
  let a2 := gf a a
  let a4 := gf a2 a2
  let a8 := gf a4 a4
  let a16 := gf a8 a8
  let a32 := gf a16 a16
  let a64 := gf a32 a32
  gf (gf a64 a64) (gf a64 (gf a32 (gf a16 (gf a8 (gf a4 a2)))))

/-- SubBytes on one byte. -/
def subByte (a : Byte) : Byte :=
  let x := gfInv a
  x ^^^ x.rotateLeft 1 ^^^ x.rotateLeft 2 ^^^ x.rotateLeft 3 ^^^ x.rotateLeft 4 ^^^ 0x63

/-- InvSubBytes on one byte. -/
def unsubByte (a : Byte) : Byte := gfInv (a.rotateLeft 1 ^^^ a.rotateLeft 3 ^^^ a.rotateLeft 6 ^^^ 0x05)

/-! ### Blocks of 16 bytes, column by column -/

/-- Bytes combined one by one. -/
def xorBytes (a b : List Byte) : List Byte := List.zipWith (· ^^^ ·) a b

/-- ShiftRows (`back` false) and its inverse. -/
def shiftRows (back : Bool) (b : List Byte) : List Byte :=
  (List.range 16).map (fun i => b.getD ((i + (if back then 12 else 4) * (i % 4)) % 16) 0)

/-- MixColumns with the coefficients c of the first row, and its inverse. -/
def mixColumns (c : List Byte) (b : List Byte) : List Byte :=
  (List.range 16).map (fun i =>
    (List.range 4).foldl (fun x j => x ^^^ gf (c.getD ((j + 4 - i % 4) % 4) 0) (b.getD (i / 4 * 4 + j) 0)) 0)

/-- The round constant of a number. -/
def rcon : Nat → Byte
  | 0 => 1
  | n + 1 => xtime (rcon n)

/-- The next word of the key schedule, i of them being there, latest first. -/
def nextKeyWord (ws : List (List Byte)) (i : Nat) : List Byte :=
  let last := ws.headD []
  let t :=
    if i % 8 = 0 then
      match (last.drop 1 ++ last.take 1).map subByte with
      | [] => []
      | x :: r => (x ^^^ rcon (i / 8 - 1)) :: r
    else if i % 8 = 4 then last.map subByte
    else last
  xorBytes (ws.getD 7 []) t

/-- The words of the key schedule, latest first, n more made. -/
def expandKey : Nat → List (List Byte) → List (List Byte)
  | 0, ws => ws
  | n + 1, ws => expandKey n (nextKeyWord ws ws.length :: ws)

/-- The 15 round keys of a 32-byte key. -/
def roundKeys (key : List Byte) : List (List Byte) :=
  let ws := ((expandKey 52 ((List.range 8).map (fun i => (key.drop (4 * i)).take 4)).reverse).reverse)
  (List.range 15).map (fun r => ((ws.drop (4 * r)).take 4).flatten)

/-- AES-256 of one block. -/
def aesEncrypt (key block : List Byte) : List Byte :=
  match roundKeys key with
  | [] => block
  | k0 :: ks =>
    let s := (ks.take 13).foldl (fun s k => xorBytes (mixColumns [2, 3, 1, 1] (shiftRows false (s.map subByte))) k)
      (xorBytes block k0)
    xorBytes (shiftRows false (s.map subByte)) (ks.getD 13 [])

/-- The inverse of AES-256 on one block. -/
def aesDecrypt (key block : List Byte) : List Byte :=
  match (roundKeys key).reverse with
  | [] => block
  | k14 :: ks =>
    let s := (ks.take 13).foldl (fun s k =>
      mixColumns [14, 11, 13, 9] (xorBytes ((shiftRows true s).map unsubByte) k)) (xorBytes block k14)
    xorBytes ((shiftRows true s).map unsubByte) (ks.getD 13 [])

/-! ### XTS over a line -/

/-- A number of n bytes, lowest first. -/
def bytesOf : Nat → Nat → List Byte
  | 0, _ => []
  | n + 1, x => BitVec.ofNat 8 x :: bytesOf n (x / 256)

/-- The number of some bytes, lowest first. -/
def numberOf : List Byte → Nat
  | [] => 0
  | x :: t => x.toNat + 256 * numberOf t

/-- The next tweak: the last one times x in the field of 2^128 elements. -/
def nextTweak (t : List Byte) : List Byte :=
  let x := 2 * numberOf t
  bytesOf 16 (if x < 2 ^ 128 then x else (x - 2 ^ 128) ^^^ 0x87)

/-- A line of blocks put through a block cipher, each block between two additions of its tweak. -/
def xtsBlocks (cipher : List Byte → List Byte) : Nat → List Byte → List Byte → List Byte
  | 0, _, _ => []
  | n + 1, t, bs => xorBytes (cipher (xorBytes (bs.take 16) t)) t ++ xtsBlocks cipher n (nextTweak t) (bs.drop 16)

/-- R155: the two 32-byte keys of a key id, as firmware loaded them. -/
def keyHalf (key : Nat) (second : Bool) : List Byte :=
  bytesOf 32 ((Config.ownerKey key).toNat / (if second then 2 ^ 256 else 1))

/-- R155: the first tweak of a line: its number, enciphered under the second key. -/
def lineTweak (key line : Nat) : List Byte := aesEncrypt (keyHalf key true) (bytesOf 16 line)

/-- R155: the 128 bytes of a line as memory stores them under a key id; key id 0 selects no encryption. -/
def encryptLine (key line : Nat) (bs : List Byte) : List Byte :=
  if key = 0 then bs else xtsBlocks (aesEncrypt (keyHalf key false)) 8 (lineTweak key line) bs

/-- R155: the 128 bytes of a line decrypted under a key id. -/
def decryptLine (key line : Nat) (bs : List Byte) : List Byte :=
  if key = 0 then bs else xtsBlocks (aesDecrypt (keyHalf key false)) 8 (lineTweak key line) bs

/-- R156: a line written under one key id as a reader under another sees it: written back under the first, refetched under
the second. -/
def recryptLine (old new line : Nat) (bs : List Byte) : List Byte := decryptLine new line (encryptLine old line bs)

end Sys2Proof.Machine
end

