-- ==== Sys2Proof/Machine/Mesh.lean ====
section
/-! DEFINITION. The places of a panel: the grid of dies with the I/O dies at its edges (R9), the mesh of physical tiles
(R12), its dimension-ordered routes (R13), and the groups of fabric ports of a panel (R27). Routers are numbered as the
tables of PTs number them: 0 to 3,199 for the tiles, 3,200 to 3,203 for the I/O dies. -/

namespace Sys2Proof.Machine

/-- R9: the two short edges of a panel. -/
inductive Edge where
  | west
  | east
deriving DecidableEq, Repr

/-- R9: the edge at which an I/O die sits. -/
def ioEdge (io : Nat) : Edge := if io < 2 then .west else .east

/-- R9: column and row of a compute die. -/
def dieColumn (die : Nat) : Nat := die % 8
/-- R9. -/
def dieRow (die : Nat) : Nat := die / 8

/-- R12: the physical coordinates of a tile, x = 10c + i and y = 8r + j. -/
def ptX (pt : Nat) : Nat := 10 * dieColumn (pt / 80) + pt % 10
/-- R12. -/
def ptY (pt : Nat) : Nat := 8 * dieRow (pt / 80) + pt % 80 / 10

/-- R12: the tile at physical coordinates, 80 × die + 10j + i. -/
def ptAt (x y : Nat) : Nat := 80 * (y / 8 * 8 + x / 10) + 10 * (y % 8) + x % 10

/-- R9: where the router of an I/O die meets the mesh: on its edge, the lower-numbered die in the lower half (log 67). -/
def ioX (io : Nat) : Nat := match ioEdge io with | .west => 0 | .east => 79
/-- R9. -/
def ioY (io : Nat) : Nat := if io % 2 = 0 then 10 else 30

/-- The mesh coordinates of a router. -/
def routerX (r : Nat) : Nat := if r < 3200 then ptX r else ioX (r - 3200)
/-- The mesh coordinates of a router. -/
def routerY (r : Nat) : Nat := if r < 3200 then ptY r else ioY (r - 3200)

/-- The numbers from a to b, both ends included, in the order of travel. -/
def travel (a b : Nat) : List Nat :=
  if a ≤ b then (List.range (b - a + 1)).map (a + ·) else (List.range (a - b + 1)).map (a - ·)

/-- R13: the routers of the route from one to another: first along x, then along y. -/
def meshRoute (a b : Nat) : List Nat :=
  let path := (travel (routerX a) (routerX b)).map (fun x => ptAt x (routerY a)) ++
    ((travel (routerY a) (routerY b)).drop 1).map (ptAt (routerX b))
  (if a < 3200 then [] else [a]) ++ path ++ (if b < 3200 then [] else [b])

/-- R362: the mesh neighbours of a tile on its die. -/
def neighbours (pt : Nat) : List Nat :=
  let x := ptX pt
  let y := ptY pt
  ((if 0 < y then [ptAt x (y - 1)] else []) ++ (if 0 < x then [ptAt (x - 1) y] else []) ++
    (if x < 79 then [ptAt (x + 1) y] else []) ++ (if y < 39 then [ptAt x (y + 1)] else [])).filter (fun n => n / 80 == pt / 80)

/-- R191: the root router of a die segment of the beam, and its alternate. -/
def dieRoot (die : Nat) : Nat := 80 * die + 10 * 4 + 5
/-- R191. -/
def dieAlternate (die : Nat) : Nat := 80 * die + 10 * 3 + 4

/-- R195: the latency band of a die. -/
def dieBand (die : Nat) : Nat :=
  max (max (dieColumn die) 4 - min (dieColumn die) 4) (max (dieRow die) 2 - min (dieRow die) 2)

/-- R9, R27: the I/O die of panel p at which a message from panel q enters: the one whose ports, eight to an I/O die, lead to
that panel (log 67). -/
def entryIo (p q : Nat) : Nat := (q + 7 - p) % 8 / 2

/-- R27: the panel that a group of four ports of panel p leads to, of a domain: group g to the panel p + g + 1 modulo 8, and
the last group outside the domain (log 68). -/
def portPeer (p port : Nat) : Option Nat := if port < 28 then some ((p + port / 4 + 1) % 8) else none

/-- R27: the port at the other end of a port's link: the same of the four that lead back. -/
def peerPort (port : Nat) : Nat := (6 - port / 4) * 4 + port % 4

/-- R27: the first of the four ports of panel p that lead to panel q. -/
def pairBase (p q : Nat) : Nat := (q + 7 - p) % 8 * 4

end Sys2Proof.Machine
end

