-- ==== Sys2Proof/Machine/State.lean ====
section
/-! DEFINITION. The state of the machine as plain data: everything spec/ gives the device (INVENTORY.md, '## State', names the
rule of each piece), the model's own fields (cur, sched, tick, upset), the reasons a step can stop, and the machine after
reset. -/

namespace Sys2Proof.Machine

/-- Why the machine stops. Every fault the spec describes is a NEXT state (R25, R375); this is the model's own. -/
inductive Fault where
  /-- Raised by exec for an instruction word when `cur` names no activation and no firmware context: an
  instruction issues only from a slot that holds an activation (R62), so the spec has no such step. Safe. -/
  | noContext
deriving DecidableEq, Repr

/-- Why a meaning is refused. -/
inductive Refusal where
  /-- Raised by an arm of exec whose instruction has no meaning in this model yet; no arm of the finished model
  uses it. Safe: nothing is claimed of a refused step. -/
  | notModelled (mnemonic : String)
deriving DecidableEq, Repr

/-- The three outcomes of a step of this machine. -/
abbrev Out (σ : Type) := Host.Outcome σ Fault Refusal

/-! ### Records of one activation -/

/-- R65, R101: the status doubleword of the header. -/
structure Status where
  cdepth  : BitVec 4
  urg     : Bool
  mw      : Bool
  mwcnt   : BitVec 9
  rep     : Bool
  reppos  : BitVec 3
  repdone : BitVec 16
  disp    : Bool
  slot    : BitVec 2
  core    : Bool
  wait    : BitVec 3
  wq      : BitVec 3
  eff     : Bool
  rpl     : Bool
  rdepth  : BitVec 2
deriving DecidableEq, Repr

/-- R102: the cause doubleword of the header. -/
structure CauseWord where
  code  : BitVec 8
  inner : BitVec 8
  rnum  : BitVec 4
  rword : BitVec 2
  nest  : Bool
deriving DecidableEq, Repr

/-- R224, R230: what one successor entry is sent at commit. -/
inductive Item where
  | plain
  | payload (off : Nat) (data : Vec)
  | cancel
deriving DecidableEq, Repr

/-- The home of an access: a byte offset of a tile's LM window, or a physical address (R159). -/
inductive Home where
  | lm (dt off : Nat)
  | phys (pa : Nat)
deriving DecidableEq, Repr

/-- R177: a commit-deferred add, with the address kept for the exception entry, the key id it uses and the scope of its
release: the larger of domain and its stated scope (R169). `bridge` says that its line is one of the host's, which its host
bridge holds for it (R175). -/
structure DeferredAdd where
  home  : Home
  scope : BitVec 2
  key   : Nat
  addr  : Word
  wide  : Bool
  value : Word
  bridge : Bool
deriving DecidableEq, Repr

/-- R188: a commit-deferred rod add. -/
structure DeferredRod where
  dt    : Nat
  rod   : Nat
  value : BitVec 32
deriving DecidableEq, Repr

/-- R183, R186, R190, R198, R286, R108: what a blocked activation waits for; for queues, each that its instruction names,
whether it waits there for space, and for how many entries. -/
inductive Waiting where
  | none
  | rod (k : Nat)
  | barrier (k : Nat) (gen : BitVec 8)
  | multi (d : BitVec 5) (src : Word)
  | beamArrive (g : Nat)
  | beamGen (g : Nat) (gen : BitVec 8)
  | beamLeave (g : Nat)
  | claim
  | queue (needs : List (Nat × Bool × Nat))
deriving DecidableEq, Repr

/-- Where an activation is (R79, R80, R137, R219, R224, R332, R375). -/
inductive Place where
  | slot (n : BitVec 2)
  | displaced
  | blockedUrgent
  | parked
  | resumed
  | suspended
  | committing
  | stopped
deriving DecidableEq, Repr

/-- R81, R85: a repetition block in progress: the address of its `rep`, its words, N and the three staggers. -/
structure Block where
  addr  : Word
  words : List (BitVec 32)
  count : BitVec 16
  sd    : BitVec 4
  sa    : BitVec 4
  sb    : BitVec 4
deriving DecidableEq, Repr

/-- R170, R224, R341: how far a commit has come: not begun, its release under way, its borrow outstanding, its items part
of an epoch, or its tokens sent and its deferred adds under way. -/
inductive CommitStage where
  | no
  | release
  | borrow
  | epoch (no : BitVec 32)
  | sent
deriving DecidableEq, Repr

/-- R148: a range the translation service has recorded for an activation. -/
structure LeaseRange where
  base  : Nat
  len   : Nat
  write : Bool
deriving DecidableEq, Repr

/-- R365: where a poisoned byte that a node read lies. -/
inductive PoisonAt where
  | lm (dt off : Nat)
  | store (dt off : Nat)
  | global (pa : Nat)
deriving DecidableEq, Repr

/-- One activation, or the context of a firmware core: the registers of its workspace (R98), the header, and the
device state kept with it. `mate` is what a replica keeps of an original that reached its commit: its signature and its
PT (R355); `hasty` lets its next release of less than system scope be performed before accesses that it orders (R164), `lazy` has
its next plain access of own LM stay outstanding (R161), `preread` is an offset of own LM and its 8 bytes, read before their load
issues (R170, log 102). -/
structure Act where
  fw       : Bool
  dt       : Nat
  index    : Nat
  tile     : Nat
  stg      : Bool
  place    : Place
  wp       : Nat
  area     : Nat
  w        : Vector Word 32
  v        : Vector Vec 16
  m        : Vector Word 8
  e        : Vector Word 8
  pc       : Word
  status   : Status
  cause    : CauseWord
  value    : Word
  nref     : Word
  shadow   : Vector Word 8
  leasePtr : Word
  order    : Word
  ident    : Vector Word 32
  nsucc    : Nat
  screen   : Bool
  seed     : BitVec 32
  fpflags  : BitVec 5
  trapnv   : Bool
  mxinj    : BitVec 2
  sig      : Word
  rodRec   : Option (Nat × BitVec 8)
  beamRec  : Option (Nat × BitVec 8)
  items    : List (Nat × Item)
  adds     : List DeferredAdd
  rods     : List DeferredRod
  wait     : Waiting
  block    : Option Block
  leases   : List LeaseRange
  used     : Nat
  budget   : Nat
  asid     : BitVec 12
  key      : BitVec 8
  gid      : Nat
  parkTch  : Option LeaseRange
  dispBy   : Option Nat
  commit   : CommitStage
  replica  : Bool
  twin     : Option Nat
  atEnd    : Bool
  mate     : Option (Word × Nat)
  poisons  : List PoisonAt
  hasty    : Bool
  lazy     : Bool
  preread  : Option (Nat × Nat)
deriving DecidableEq, Repr

/-! ### Records of one core -/

/-- R111: a recipe entry: its owner, its number and its words. -/
structure Recipe where
  owner : Nat
  num   : BitVec 4
  words : List (BitVec 32)
deriving DecidableEq, Repr

/-- R111: a tag entry. Registers have the codes of R118: 16 to 31 for w16 to w31, 32 to 47 for v0 to v15. -/
structure Tag where
  owner   : Nat
  reg     : Nat
  num     : BitVec 4
  dropped : Bool
deriving DecidableEq, Repr

/-- R387: a translation entry. `size` is 0 for 64 KiB, 1 for 2 MiB, 2 for 1 GiB; `home` 0 HBM, 1 host, 2 replicated,
`replicas` its dies. -/
structure Tlb where
  va       : Nat
  size     : Nat
  pa       : Nat
  key      : BitVec 8
  asid     : BitVec 12
  glob     : Bool
  place    : BitVec 2
  home     : Nat
  mig      : Bool
  r        : Bool
  w        : Bool
  x        : Bool
  replicas : List Nat
deriving DecidableEq, Repr

/-- R220: a normal ready list: its graph, its deficit and its nodes in firing order. -/
structure ReadyList where
  gid     : Nat
  deficit : Nat
  nodes   : List Nat
deriving DecidableEq, Repr

/-- R390: one halt field. -/
structure HaltField where
  group  : BitVec 4
  member : Bool
  brk    : Bool
  flt    : Bool
deriving DecidableEq, Repr

/-- One core of a tile. Slots hold keys of activations. `due` says that the deficit of the list with the turn is still
to be raised (R220). `buffer` is the activation whose block the repetition buffer holds (R84), `sinceBlock` the local
cycles since it sent a block instruction, `vcache` the vectors of the register cache, as owner and code of R118, the
next to be freed last (R103). -/
structure Core where
  slots      : Vector (Option Nat) 4
  lastNormal : BitVec 2
  lastUrgent : BitVec 2
  l1         : List (Nat × BitVec 512)
  icache     : List (Nat × BitVec 16)
  tlb        : List Tlb
  recipes    : List Recipe
  tags       : List Tag
  displaced  : List Nat
  resumed    : List Nat
  urgent     : List Nat
  ready      : List ReadyList
  turn       : Option Nat
  due        : Bool
  halt       : HaltField
  halted     : Bool
  perf       : Vector Word 8
  sinceIssue : Nat
  sinceBlock : Nat
  buffer     : Option Nat
  vcache     : List (Nat × Nat)
deriving DecidableEq, Repr

/-! ### Records of one tile -/

/-- R180, R181: a rod; PEND and WTR are derived. -/
structure Rod where
  count : BitVec 32
  thr   : BitVec 16
  bgen  : BitVec 8
  ovf   : Bool
  p     : Word
deriving DecidableEq, Repr

/-- R212: a node record. -/
structure Node where
  entry   : BitVec 48
  role    : BitVec 2
  urg     : Bool
  once    : Bool
  screen  : Bool
  retry   : BitVec 4
  weight  : BitVec 4
  beads   : Nat
  abs     : Bool
  count   : BitVec 16
  gen     : BitVec 16
  gid     : BitVec 16
  state   : BitVec 8
  attempt : BitVec 8
  live    : Int
  succ    : BitVec 22
  nsucc   : BitVec 11
  budget  : BitVec 5
  wsclass : BitVec 10
  inboxsz : BitVec 16
  inbox   : BitVec 22
  cwin    : BitVec 22
  cwlen   : BitVec 18
  policy  : BitVec 2
  org     : Word
  ext     : Word
  user    : Word
deriving DecidableEq, Repr

/-- R289: one accumulator with its group. `p` lists the 4,096 exact sums in units of 2^-266 while a group is
open; the flags have one bit per element, element 64 m + n. -/
structure Acc where
  rows  : Vector Vec 64
  isOpen : Bool
  fmt   : BitVec 4
  cnt   : Nat
  p     : List Int
  nanf  : BitVec 4096
  pinf  : BitVec 4096
  ninf  : BitVec 4096
  nvf   : Bool
  sa    : Vec
  sb    : Vec
  bscl  : Vec
  rerun : BitVec 16
  inj   : Bool
deriving DecidableEq, Repr

/-- R193: the leaf state of one VT in one group. -/
structure Leaf where
  member : Bool
  n      : Nat
  arr    : Nat
  up     : Bool
  exc    : Bool
  gen    : BitVec 8
deriving DecidableEq, Repr

/-- R236: the source of an event binding. -/
inductive Source where
  | watch (pa len : Nat) (mask value : Word)
  | perf (n : Nat) (threshold : Word)
  | power (n : Nat) (threshold : Word)
deriving DecidableEq, Repr

/-- R236: a live event binding. -/
structure Binding where
  index  : Nat
  gid    : Nat
  target : Word
  source : Source
deriving DecidableEq, Repr

/-- R343: a mirrored region of LM; R344: a sourced region of tile-store rows or of LM, with its source. -/
structure Region where
  id   : Nat
  gid  : Nat
  isLm : Bool
  base : Nat
  len  : Nat
  src  : Nat
  asid : BitVec 12
deriving DecidableEq, Repr

/-- R205: an allocation of the graph heap. -/
structure HeapAlloc where
  gid  : Nat
  base : Nat
  len  : Nat
deriving DecidableEq, Repr

/-- R131, R136: what an outstanding request does when it is performed: a `vloadq` fills the entry it has pushed into a queue
of its tile (R108); `matrix` is a fault that an issued `mma` has found and that waits for its boundary (R292, R299), with
the progress of the block that issued it (R85). -/
inductive ReqOp where
  | load (d : BitVec 5) (size : Nat)
  | store (size : Nat) (value : Word)
  | vload (d : BitVec 5) (esz : BitVec 2)
  | vstore (esz : BitVec 2)
  | vloadq (tile : Nat) (q : BitVec 3) (esz : BitVec 2)
  | atomic (op : BitVec 4) (d : BitVec 5) (size : Nat) (b e : Word)
  | multi (size : Nat) (value : Word)
  | matrix (code : BitVec 8) (value : Word) (bytes : List PoisonAt) (rep : Bool) (reppos : BitVec 3) (repdone : BitVec 16)
  | rodAdd
  | narm (d : BitVec 5) (ref : Word)
  | ndef (d : BitVec 5) (ref : Word) (words : List Word)
  | nqry (d : BitVec 5) (ref : Word)
  | evb (d : BitVec 5) (ref : Word) (source : Option Source) (code : Nat)
  | evu (d : BitVec 5) (id : Word)
  | tresume (d : BitVec 5) (handle flags : Word)
  | tabort (d : BitVec 5) (handle cause : Word)
  | tlbfill (d : BitVec 5) (result : Word)
deriving DecidableEq, Repr

/-- R216, R188, R231, R235, R236: the body of a durable request or other message to a tile; `node` is a narm or ndef as its
sender's retention record holds it. -/
inductive Body where
  | token (ref : Word) (beads : Nat) (item : Item) (barrier : Bool) (origin : Nat) (sender : Word)
  | restoreItem (ref : Word) (item : Item)
  | rodAdd (rod : Nat) (value : BitVec 32)
  | beadReturn (gid beads : Nat)
  | trap (t0 t1 t2 t3 : Word)
  | node (op : ReqOp) (nref : Word)
deriving DecidableEq, Repr

/-- R342: a request whose sender keeps it until the target's partner has acknowledged it. `epoch` is the epoch of
the target that holds its effect, once it is performed; `issuer` the activation whose request it is; `sent` says that its
message has left, which that of a commit does only once its epoch is acknowledged (R224); `core`, for an `rrmt`, the core of the
tile (the staging core if true) that counts it as outstanding (R188). -/
structure Retained where
  id     : Nat
  dst    : Nat
  body   : Body
  epoch  : Option (BitVec 32)
  issuer : Option Nat
  sent   : Bool
  core   : Option Bool
deriving DecidableEq, Repr

/-- R340, R343: what one epoch holds of a VT, and so what its partner's mirror holds after applying it; `poison` lists the
poisoned words of its bytes. -/
structure Snapshot where
  no       : BitVec 32
  nodes    : List (Nat × Node)
  rods     : List (Nat × Rod)
  bytes    : List Host.Cell
  poison   : List Nat
  mirrored : List Region
  sourced  : List Region
  bindings : List Binding
  retained : List Retained
deriving DecidableEq, Repr

/-- One virtual tile; it travels with its VT under rotation (R333). `fresh` and `pushed` count what joined the whole entries
of a queue, and what was pushed, in the present local cycle, `freed` what was popped in it (R109), `engined` what a copy
engine pushed in it (R319). `tails` are the entries of the queues from the first that a vector load has yet to fill on, each
with the request that fills it (R108); `fates` the nodes to be cancelled once the copies of their attempt have ended, with
cause, fault value and PC (R326); `vacant` the workspace areas freed and not used since (R223, R333). -/
structure Tile where
  lm        : List Host.Cell
  lmPoison  : List Nat
  nodes     : List (Nat × Node)
  store     : List (Nat × BitVec 1024)
  tsPoison  : List Nat
  rods      : List (Nat × Rod)
  queues    : Vector (List Vec) 8
  tails     : Vector (List (Nat × Option Vec)) 8
  fresh     : Vector Nat 8
  pushed    : Vector Nat 8
  engined   : Vector Nat 8
  freed     : Vector Nat 8
  comp      : Core
  stag      : Core
  accs      : Vector Acc 4
  claim     : Option Nat
  waiters   : List Nat
  heapBase  : Nat
  heapLim   : Nat
  heap      : List HeapAlloc
  bindings  : List Binding
  mirrored  : List Region
  sourced   : List Region
  reserve   : Int
  grant     : BitVec 16
  low       : BitVec 16
  high      : BitVec 16
  throttle  : BitVec 4
  power0    : Word
  units     : Nat
  power1    : Word
  scrlog2   : BitVec 5
  firings   : Nat
  sampled   : List Nat
  partner   : BitVec 12
  rlnode    : BitVec 12
  dtlb      : List Tlb
  epochNext : BitVec 32
  inFlight  : Option Snapshot
  mirror    : Option Snapshot
  acked     : BitVec 32
  applied   : BitVec 32
  dirty     : Bool
  retained  : List Retained
  leaves    : List (Nat × Leaf)
  rotations : Nat
  lastOwner : Option (BitVec 12)
  draining  : Bool
  lost      : Bool
  awaited   : List (Nat × Nat)
  notices   : List Nat
  effLost   : List Nat
  repro     : List (Nat × Nat)
  fates     : List (Nat × BitVec 8 × Word × Word)
  vacant    : List (Nat × Nat)
deriving DecidableEq, Repr

/-! ### Panels, dies, physical tiles and firmware cores -/

/-- R16: the roles of a PT. -/
inductive Role where
  | inService (vt : Nat)
  | selfTest
  | replica (vt : Nat)
  | spare
  | retired
deriving DecidableEq, Repr

/-- One physical tile: its role, its ageing counters with the local cycles of each bin below their unit (R357), its router
with its map generation (R15), R355's ring, R359's probe, R356's test to come, and the VT lost with it (R346). PTs 3,200 to
3,203 of a panel are the routers of its I/O dies. -/
structure Pt where
  role     : Role
  ageing   : List (Nat × Word)
  stress   : List (Nat × Nat)
  routerUp : Bool
  mapGen   : BitVec 16
  commits  : List Word
  overflow : Bool
  probe    : Bool
  testDue  : Bool
  lostVt   : Option Nat
deriving DecidableEq, Repr

/-- R329 to R335: the rotation or restore of a die in progress. -/
inductive RotPhase where
  | idle
  | draining
  | copying
  | window
deriving DecidableEq, Repr

/-- R153: a migration in progress. Lines are numbered from the start of the page: `todo` are those of the round (none: every
one), of which the ones below `copied` have been copied, and `dirty` those written since. `told` says that STATUS of MIGDST tells
of it: the latest that a GO of its die has started (log 93). -/
structure Migration where
  old    : Nat
  new    : Nat
  size   : Nat
  round  : Nat
  todo   : Option (List Nat)
  copied : Nat
  dirty  : List Nat
  frozen : Bool
  paused : Bool
  told   : Bool
deriving DecidableEq, Repr

/-- R153, R378: a page that has switched: accesses translated to the old one are forwarded until a tlbinv has covered the page's
table entries at every die; `uncovered` are those that still lack one, each with the die. -/
structure Moved where
  old       : Nat
  new       : Nat
  size      : Nat
  uncovered : List (Nat × Tlb)
deriving DecidableEq, Repr

/-- One compute die: its translation cache, its controller's registers (R377) and their operations; `mig` are the migrations in
progress, the one that goes on next first. -/
structure Die where
  tlb      : List Tlb
  rotcmd   : Word
  phase    : RotPhase
  emerg    : Bool
  outPt    : Nat
  inPt     : Nat
  rotVt    : Nat
  markers  : List Nat
  gen      : BitVec 16
  ptcmd    : Word
  migsrc   : Word
  migdst   : Word
  mig      : List Migration
  l2gate   : Word
  excluded : Bool
  recomb   : Bool
deriving DecidableEq, Repr

/-- R434: a firmware image: the version, length and rollback counter of its header, the bytes of its body, its signature and the
public key that comes with it. -/
structure FwImage where
  version   : Nat
  length    : Nat
  rollback  : Nat
  body      : List Byte
  key       : List Byte
  signature : List Byte
deriving DecidableEq, Repr

/-- R373, R377: the registers of a firmware core outside its context, its stored image and the one last loaded (R436), the records
of its remote rod adds that are not yet durable (R188, R342), and the local cycles since it issued (R429). -/
structure FwCore where
  trapbase : Word
  log2n    : BitVec 4
  get      : BitVec 32
  put      : BitVec 32
  key      : BitVec 8
  halt     : HaltField
  halted   : Bool
  idle     : Bool
  stopped  : Bool
  resets   : Nat
  excluded : Bool
  perf     : Vector Word 8
  image    : FwImage
  loaded   : Option FwImage
  retained : List Retained
  sinceIssue : Nat
deriving DecidableEq, Repr

/-- R191 to R196: one beam group of a panel. `raised` are the VTs whose raise has reached the panel root,
`releases` the leaves a release has not yet reached. -/
structure BeamGroup where
  asid     : Option (BitVec 12)
  gen      : BitVec 8
  raised   : List Nat
  pending  : List Nat
deriving DecidableEq, Repr

/-- R420: the registers of one submission queue, and R423's held completion records. -/
structure Queue where
  sqbase : Nat
  sqlog2 : BitVec 4
  cqlog2 : BitVec 4
  cqbase : Nat
  sqtail : BitVec 32
  sqhead : BitVec 32
  cqtail : BitVec 32
  cqhead : BitVec 32
  msivec : BitVec 11
  msien  : Bool
  qstat  : BitVec 8
  key    : BitVec 8
  asid   : BitVec 12
  enable : Bool
  lock   : Bool
  held   : List (List Word)
deriving DecidableEq, Repr

/-- What crosses the fabric: a message or a request by its id, a segment of a copy by the copy's key, its target and its stream
position, or a deferred add of a commit by the activation's key and the number of its adds left with it. -/
inductive Parcel where
  | msg (id : Nat)
  | req (id : Nat)
  | seg (key tgt pos : Nat)
  | add (key left : Nat)
deriving DecidableEq, Repr

/-- R426: a parcel on its way to a panel, by one of the four routes to it. -/
structure Transit where
  panel  : Nat
  route  : Nat
  parcel : Parcel
deriving DecidableEq, Repr

/-- R424: a flit as its sender keeps it, with its message data. -/
structure Flit where
  seq  : BitVec 16
  load : Transit
deriving DecidableEq, Repr

/-- R424 to R426: one fabric port; `buffer` is its replay buffer, the earliest flit first. -/
structure Port where
  lanes    : Nat
  spared   : BitVec 4
  lanelim  : BitVec 16
  replays  : BitVec 32
  state    : BitVec 8
  expect   : BitVec 16
  next     : BitVec 16
  buffer   : List Flit
  asked    : Bool
  failures : List (Nat × Nat)
  failing  : Option Nat
deriving DecidableEq, Repr

/-- R430, R431: the states of a panel. -/
inductive PanelState where
  | off
  | serviceOnly
  | ready
  | shrunk
deriving DecidableEq, Repr

/-- One panel: its boot results, map generation, beam, halt groups, queues, ports, power capping and log. `hdm` are the host
ranges that the HDM decoders map onto HBM (host address, HBM address, bytes), `hostLines` the HBM lines that the host may
cache, `bridgeLines` the host lines that its bridges hold, the latest last, and `answers` what host reads have returned, none
being the data-error response (R418). `fused` is the fused rollback counter and `second` the management controller's second
stored image (R430, R434). `screens` are the PT pairs of screening mismatches whose tests have not all ended, with the one of
them that has and whether it passed (R355). `alone` says that it is a domain of its own (R430), `outbound` are the parcels
that wait for a flit and `routes` the ports of the routes that have moved (R426), `portsFailed` the ports that its latest boot
excluded, `retired` its count of retired PTs (R431), `fusedKey` the digest of the key that verifies images (R434), `granted`
the draw in W that the cap and its ramp grant (R429). -/
structure Panel where
  state     : PanelState
  inDomain  : Bool
  alone     : Bool
  vts       : Nat
  mapGen    : BitVec 16
  beam      : List (Nat × BeamGroup)
  triggered : List Nat
  queues    : List (Nat × Queue)
  active    : List Nat
  waitingQ  : List Nat
  serve     : Nat
  hostRanges : List (Nat × List (Nat × Nat))
  hdm       : List (Nat × Nat × Nat × Nat)
  hostLines : List Nat
  bridgeLines : List Nat
  answers   : List (Option (List Byte))
  ports     : List (Nat × Port)
  outbound  : List Transit
  routes    : List (Nat × Nat)
  portsFailed : List Nat
  logged    : List Nat
  capw      : BitVec 16
  ramp      : BitVec 16
  granted   : BitVec 16
  draw      : BitVec 16
  limited   : Bool
  brkpin    : Bool
  swbrake   : Bool
  pinen     : Bool
  boots     : Nat
  bootRec   : List (Nat × Nat)
  bootFull  : Bool
  storedMap : List Nat
  fieldLog  : List (Nat × Nat × Nat × List (Nat × Word))
  retired   : Nat
  fused     : Nat
  fusedKey  : BitVec 256
  second    : FwImage
  resetsLog : List Nat
  reports   : List (List Byte)
  msis      : List (BitVec 11)
  failReports : List (List Nat × List Word × Bool)
  screens   : List (Nat × Nat × Option (Nat × Bool))
  safe      : Bool
deriving DecidableEq, Repr

/-! ### Graphs, requests, messages, copies -/

/-- R202 to R211: a live graph. `slots` says what completion frees, `succs` the successor lists by node key (R347),
`regions` its LM ranges by tile (R404). -/
structure Graph where
  panel     : Nat
  queue     : Nat
  asid      : BitVec 12
  key       : BitVec 8
  prio      : Nat
  grec      : Nat
  exq       : Nat
  exqcap    : Nat
  roots     : Nat
  rootcap   : Nat
  tag       : Word
  halted    : Bool
  cancelled : Bool
  slots     : List (Nat × Nat)
  image     : Nat
  succs     : List (Nat × List Word)
  regions   : List (Nat × Nat × Nat)
deriving DecidableEq, Repr

/-- One byte group of a request: element number, home, address as issued, the value a store writes, and the key id
of its page. -/
structure Elem where
  k     : Nat
  home  : Home
  addr  : Word
  value : Word
  key   : BitVec 8
deriving DecidableEq, Repr

/-- R15, R336: the route of an access to a tile: the tile's DT, the first router on its panel and the map generation that
router then held. -/
structure Route where
  dt     : Nat
  router : Nat
  gen    : BitVec 16
deriving DecidableEq, Repr

/-- R131: an outstanding request of an activation, with the reference of the node that issued it; it acquires, releases or
both, at a scope (R163); `space` is 0 for own LM (R161), 1 for `.t`, 2 for `.g`, 3 for a late fault of `mma`, which accesses
nothing (R299); `shown` are the elements whose write its core's L1 already shows (R167); the replica writes of one `st.m`
share their `id` (R178). `core` is the tile core that issued it. -/
structure Req where
  owner  : Nat
  nref   : Word
  pc     : Word
  op     : ReqOp
  space  : Nat
  elems  : List Elem
  acq    : Bool
  rel    : Bool
  scope  : BitVec 2
  shown  : List Nat
  core   : Option (Nat × Bool)
  routes : List Route
  id     : Nat
deriving DecidableEq, Repr

/-- R164, R166: a release performed while accesses that it orders are outstanding (`waits`, by id): agents outside its scope
instance may see it so, an acquire inside waits for them. `issuer` is the issuer's tile, or its firmware context, `owner` its
activation. -/
structure Early where
  home   : Home
  size   : Nat
  issuer : Nat
  owner  : Nat
  scope  : BitVec 2
  both   : Bool
  waits  : List Nat
deriving DecidableEq, Repr

/-- R15, R216, R380: a message in flight, with its sender (a tile's DT, or none), the router and map generation under which it
was first routed, and its id. -/
structure Msg where
  dst    : Nat
  src    : Nat
  router : Nat
  gen    : BitVec 16
  body   : Body
  keep   : Option Nat
  id     : Nat
deriving DecidableEq, Repr

/-- R304, R310: bytes of a copy that its source engine has read and sent and that one granule of the destination receives:
their stream position, their source address, their target (R315), their home (for `cpyts` the tile and the tile-store offset)
with its key id, whether it is a host line that a `cpyr` adds to at its bridge (R175), and route (R335), and the bytes with
their poison. `data` and `credit` say what is still to be done: a restore (R347) may need one without the other. -/
structure Segment where
  pos    : Nat
  src    : Word
  tgt    : Nat
  home   : Home
  key    : BitVec 8
  bridge : Bool
  route  : Option Route
  bytes  : List (Byte × Bool)
  data   : Bool
  credit : Bool
deriving DecidableEq, Repr

/-- R306 to R320: one credit target of a copy: its rod (tile and number), its ring, bytes expected and done. -/
structure Credit where
  dt     : Nat
  rod    : Option Nat
  expect : Nat
  done   : Nat
  ring   : Nat
deriving DecidableEq, Repr

/-- R303 to R327: a copy issued and not ended. `base` is the source address of the row being read, `sent` the stream
bytes sent, `kept` what the copy keeps until it is durable, by VT and epoch (R342), `asked` the page of an unanswered
fill request (R322), `fail` the status, ADDR and stream position of the earliest failing byte (R321), `psn` the lowest
poisoned source address (R323), `bad` the poisoned bytes of index and queue entries that have ended it (R365). -/
structure Copy where
  owner   : Nat
  dt      : Nat
  stg     : Bool
  pc      : Word
  fn      : Nat
  e0      : Word
  e1      : Word
  e2      : Word
  e3      : Word
  e4      : Word
  queue   : Nat
  length  : Nat
  credits : List Credit
  posted  : Bool
  base    : Word
  sent    : Nat
  flight  : List Segment
  kept    : List (Nat × BitVec 32 × Segment)
  fail    : Option (BitVec 8 × Word × Nat)
  psn     : Option Word
  flags   : BitVec 5
  nref    : Word
  asid    : BitVec 12
  asked   : Option Nat
  bad     : List PoisonAt
deriving DecidableEq, Repr

/-- A free choice the spec leaves to the device, taken at a moment of the device's choosing: `fetchCode` brings the next
instruction of a slot into the instruction cache (R63), `nextVector` makes a vector the next that the register cache frees
(R103), `showStore` lets a core see an element of its own store early (R167), `hasten` lets an activation's next release be seen
early outside its scope instance (R164), `delay` has an activation's next plain access of own LM stay outstanding (R161),
`migrate` has a migration of a die copy its lines below a number (R153), `measure` ends a millisecond over which a panel's draw
is averaged (R428). The last five are inputs from outside: the owners' page tables now give these translations (firmware's own
layout, R139, log 26), a firmware core's stored image, or the management controller's second, is this one, a panel that is off
has this rollback counter and the digest of this key fused (R430, R434, log 27), an upset will make this many checksums fail
(R292, log 7), an HDM decoder of a panel maps a range of GiBs of the host onto HBM, or none (R418, log 85). -/
inductive Choice where
  | evictL1 (dt : Nat) (stg : Bool) (line : Nat)
  | evictTlb (dt : Nat) (stg : Bool) (va : Nat)
  | evictDie (die va : Nat)
  | evictDtlb (dt va : Nat)
  | evictCode (dt : Nat) (stg : Bool) (addr : Nat)
  | fetchCode (dt : Nat) (stg : Bool) (n : BitVec 2)
  | nextVector (dt : Nat) (stg : Bool) (owner reg : Nat)
  | sendFlit (p port : Nat)
  | showStore (id k : Nat)
  | hasten (key : Nat)
  | delay (key : Nat)
  | readEarly (key off : Nat)
  | migrate (die lines : Nat)
  | measure (p : Nat)
  | ownerPages (l : List Tlb)
  | firmwareImage (fw : Nat) (second : Bool) (image : FwImage)
  | fuse (p : Nat) (key : List Byte) (rollback : Nat)
  | upset (n : Nat)
  | hdmDecoder (p n : Nat) (range : Option (Nat × Nat × Nat))
deriving DecidableEq, Repr

/-- Which agent moves next: the issue port of a tile core or of a firmware core, the repetition buffer of a tile core (R84),
a local cycle of a tile or of a firmware core, a device event (one of the 76 rows), or a free choice. -/
inductive Turn where
  | issue (dt : Nat) (stg : Bool)
  | issueFw (fw : Nat)
  | buffer (dt : Nat) (stg : Bool)
  | cycle (dt : Nat)
  | cycleFw (fw : Nat)
  | event (i : Instr)
  | choice (c : Choice)
deriving DecidableEq, Repr

/-- The whole machine. `held` are the writes of the graph engines and launch units that a frozen page holds, as key id,
address and bytes, the earliest first (R153). Tables are association lists with rising keys. Keys: activations dt × 4096 +
index (and Config.fwKey + core for firmware contexts), tiles by DT, PTs panel × 4096 + PT, dies panel × 64 + die, firmware
cores panel × 256 + die × 4 + core, panels by index. -/
structure State where
  cur     : Nat
  sched   : List Turn
  tick    : Nat
  upset   : Nat
  nextId  : Nat
  acts    : List (Nat × Act)
  tiles   : List (Nat × Tile)
  panels  : List (Nat × Panel)
  pts     : List (Nat × Pt)
  dies    : List (Nat × Die)
  fws     : List (Nat × FwCore)
  phys    : List Host.Cell
  poison  : List Nat
  keys    : List (Nat × Nat)
  pages   : List Tlb
  moved   : List Moved
  held    : List (Nat × Nat × List Byte)
  graphs  : List (Nat × Graph)
  reqs    : List Req
  early   : List Early
  msgs    : List Msg
  copies  : List (Nat × Copy)
deriving DecidableEq, Repr

/-! ### Records at reset -/

/-- R65, R101: all control fields zero. -/
def Status.zero : Status :=
  ⟨0, false, false, 0, false, 0, 0, false, 0, false, 0, 0, false, false, 0⟩

/-- R102: no cause. -/
def CauseWord.zero : CauseWord := ⟨0, 0, 0, 0, false⟩

/-- R99: every register zero; an activation record with nothing in it. -/
def Act.zero : Act where
  fw := false
  dt := 0
  index := 0
  tile := 0
  stg := false
  place := .stopped
  wp := 0
  area := 0
  w := Vector.replicate 32 0
  v := Vector.replicate 16 0
  m := Vector.replicate 8 0
  e := Vector.replicate 8 0
  pc := 0
  status := Status.zero
  cause := CauseWord.zero
  value := 0
  nref := 0
  shadow := Vector.replicate 8 0
  leasePtr := 0
  order := 0
  ident := Vector.replicate 32 0
  nsucc := 0
  screen := false
  seed := 1
  fpflags := 0
  trapnv := false
  mxinj := 0
  sig := 0
  rodRec := none
  beamRec := none
  items := []
  adds := []
  rods := []
  wait := .none
  block := none
  leases := []
  used := 0
  budget := 0
  asid := 0
  key := 0
  gid := 0
  parkTch := none
  dispBy := none
  commit := .no
  replica := false
  twin := none
  atEnd := false
  mate := none
  poisons := []
  hasty := false
  lazy := false
  preread := none

/-- R390: a halt field of no group. -/
def HaltField.zero : HaltField := ⟨0, false, false, false⟩

/-- R61, R63, R111, R133, R137, R334: a core with nothing in it. The last slots are 3, so that slot 0 is first
(DESIGN CHOICE, log 4). -/
def Core.empty : Core where
  slots := Vector.replicate 4 none
  lastNormal := 3
  lastUrgent := 3
  l1 := []
  icache := []
  tlb := []
  recipes := []
  tags := []
  displaced := []
  resumed := []
  urgent := []
  ready := []
  turn := none
  due := false
  halt := HaltField.zero
  halted := false
  perf := Vector.replicate 8 0
  sinceIssue := 16
  sinceBlock := 1
  buffer := none
  vcache := []

/-- R180: a rod of zeros. -/
def Rod.zero : Rod := ⟨0, 0, 0, false, 0⟩

/-- R193, R194: a leaf that has never joined. -/
def Leaf.zero : Leaf := ⟨false, 0, 0, false, false, 0⟩

/-- R212, R204: an EMPTY slot. -/
def Node.empty : Node :=
  ⟨0, 0, false, false, false, 0, 0, 0, false, 0, 0, 0, 0, 0, 0, 0, 0, 0, 0, 0, 0, 0, 0, 0, 0, 0, 0⟩

/-- R285: an accumulator of +0 with no group and no scales. -/
def Acc.zero : Acc :=
  ⟨Vector.replicate 64 0, false, 0, 0, [], 0, 0, 0, false, 0, 0, 0, 0, false⟩

/-- R157, R180, R360: a tile after boot: memories zero, nothing bound. The reserve is at HIGH and GRANT 0
(DESIGN CHOICE, log 5). -/
def Tile.empty : Tile where
  lm := []
  lmPoison := []
  nodes := []
  store := []
  tsPoison := []
  rods := []
  queues := Vector.replicate 8 []
  tails := Vector.replicate 8 []
  fresh := Vector.replicate 8 0
  pushed := Vector.replicate 8 0
  engined := Vector.replicate 8 0
  freed := Vector.replicate 8 0
  comp := Core.empty
  stag := Core.empty
  accs := Vector.replicate 4 Acc.zero
  claim := none
  waiters := []
  heapBase := 0
  heapLim := 0
  heap := []
  bindings := []
  mirrored := []
  sourced := []
  reserve := 3072 * 64
  grant := 0
  low := 256
  high := 3072
  throttle := 0
  power0 := 0
  units := 0
  power1 := 0
  scrlog2 := 10
  firings := 0
  sampled := []
  partner := 0
  rlnode := 0
  dtlb := []
  epochNext := 1
  inFlight := none
  mirror := none
  acked := 0
  applied := 0
  dirty := false
  retained := []
  leaves := []
  rotations := 0
  lastOwner := none
  draining := false
  lost := false
  awaited := []
  notices := []
  effLost := []
  repro := []
  fates := []
  vacant := []

/-- R328, R357: a PT that has never served; ageing counter 22 is its number. -/
def Pt.spare (n : Nat) : Pt := ⟨.spare, [(22, BitVec.ofNat 64 n)], [], true, 0, [], false, false, false, none⟩

/-- R377: a die controller at reset. -/
def Die.empty : Die :=
  ⟨[], 0, .idle, false, 0, 0, 0, [], 0, 0, 0, 0, [], 0, false, false⟩

/-- R434: an image of no bytes, with a key and a signature of none (DESIGN CHOICE, log 27). -/
def FwImage.empty : FwImage := ⟨0, 0, 0, [], [], []⟩

/-- R377, R390: a firmware core at reset. -/
def FwCore.empty : FwCore :=
  ⟨0, 0, 0, 0, 0, HaltField.zero, false, false, false, 0, false, Vector.replicate 8 0, FwImage.empty, none, [], 16⟩

/-- R192, R194: a beam group of no owner. -/
def BeamGroup.empty : BeamGroup := ⟨none, 0, [], []⟩

/-- R420: a queue at reset. -/
def Queue.empty : Queue := ⟨0, 4, 4, 0, 0, 0, 0, 0, 0, false, 0, 0, 0, false, false, []⟩

/-- R426: a port at reset. -/
def Port.empty : Port := ⟨8, 15, 64, 0, 0, 0, 0, [], false, [], none⟩

/-- R428, R430: a panel before its first boot. -/
def Panel.empty : Panel where
  state := .off
  inDomain := false
  alone := false
  vts := 0
  mapGen := 0
  beam := []
  triggered := []
  queues := []
  active := []
  waitingQ := []
  serve := 0
  hostRanges := []
  hdm := []
  hostLines := []
  bridgeLines := []
  answers := []
  ports := []
  outbound := []
  routes := []
  portsFailed := []
  logged := []
  capw := 16000
  ramp := 400
  granted := 16000
  draw := 0
  limited := false
  brkpin := false
  swbrake := false
  pinen := true
  boots := 0
  bootRec := []
  bootFull := false
  storedMap := []
  fieldLog := []
  retired := 0
  fused := 0
  fusedKey := 0
  second := FwImage.empty
  resetsLog := []
  reports := []
  msis := []
  failReports := []
  screens := []
  safe := false

/-- The machine right after reset: no panel has booted, no firmware core runs, memory lists nothing. The boot
steps of R430 are the BOOT event; cur and sched are the model's own (DESIGN CHOICE, log 1). -/
def State.reset : State where
  cur := 0
  sched := []
  tick := 0
  upset := 0
  nextId := 0
  acts := []
  tiles := []
  panels := []
  pts := []
  dies := []
  fws := []
  phys := []
  poison := []
  keys := []
  pages := []
  moved := []
  held := []
  graphs := []
  reqs := []
  early := []
  msgs := []
  copies := []

end Sys2Proof.Machine
end

