-- ==== Sys2Proof/Machine/Ops.lean ====
section
/-! DEFINITION. The named operations over the state: tables, memories, registers, the checks of an access (R126 to R138),
taking an exception (R25, R226, R375) and parking (R137, R382), slots (R79, R80, R219), ready lists, tokens and cancellation
(R215 to R226). -/

namespace Sys2Proof.Machine

/-! ### Tables: association lists with rising keys -/

/-- The entry of key k. -/
def tabFind {α : Type} : List (Nat × α) → Nat → Option α
  | [], _ => none
  | (j, x) :: t, k => if j = k then some x else tabFind t k

/-- The table with x at key k. -/
def tabSet {α : Type} : List (Nat × α) → Nat → α → List (Nat × α)
  | [], k, x => [(k, x)]
  | (j, y) :: t, k, x =>
    if j = k then (k, x) :: t else if k < j then (k, x) :: (j, y) :: t else (j, y) :: tabSet t k x

/-- The table without key k. -/
def tabErase {α : Type} (t : List (Nat × α)) (k : Nat) : List (Nat × α) := t.filter (fun e => e.1 != k)

/-! ### Byte memories: canonical lists of cells, an unlisted address reads 0 (log 3) -/

/-- The byte at address a. -/
def memRead : List Host.Cell → Nat → Byte
  | [], _ => 0
  | (b, x) :: t, a => if b = a then x else if a < b then 0 else memRead t a

/-- The memory with byte v at address a. -/
def memWrite : List Host.Cell → Nat → Byte → List Host.Cell
  | [], a, v => if v = 0 then [] else [(a, v)]
  | (b, x) :: t, a, v =>
    if b = a then (if v = 0 then t else (a, v) :: t)
    else if a < b then (if v = 0 then (b, x) :: t else (a, v) :: (b, x) :: t)
    else (b, x) :: memWrite t a v

/-- Bytes written from address a up. -/
def memWriteBytes (m : List Host.Cell) (a : Nat) : List Byte → List Host.Cell
  | [] => m
  | x :: t => memWriteBytes (memWrite m a x) (a + 1) t

/-- The canonical form: addresses strictly rising, no listed zero. -/
def Memory.wf : List Host.Cell → Bool
  | [] => true
  | [(_, x)] => x != 0
  | (a, x) :: (b, y) :: t => x != 0 && decide (a < b) && Memory.wf ((b, y) :: t)

/-- R2: the little-endian number of a list of bytes. -/
def leNat : List Byte → Nat
  | [] => 0
  | x :: t => x.toNat + 256 * leNat t

/-- R2: the n low bytes of a number, lowest first. -/
def leBytes : Nat → Nat → List Byte
  | 0, _ => []
  | n + 1, x => BitVec.ofNat 8 x :: leBytes n (x / 256)

/-- Byte i of a number. -/
def byteOf (x i : Nat) : Byte := BitVec.ofNat 8 (x / 256 ^ i)

/-- x with byte i replaced. -/
def putByte (x i : Nat) (b : Byte) : Nat := x - (byteOf x i).toNat * 256 ^ i + b.toNat * 256 ^ i

/-! ### Parts of the state -/

/-- The tile of a DT. -/
def State.tile (s : State) (dt : Nat) : Tile := (tabFind s.tiles dt).getD Tile.empty
/-- The state with another tile at a DT. -/
def State.setTile (s : State) (dt : Nat) (t : Tile) : State := { s with tiles := tabSet s.tiles dt t }
/-- The activation of a key. -/
def State.act? (s : State) (k : Nat) : Option Act := tabFind s.acts k
/-- The activation of a key, or an empty record. -/
def State.act (s : State) (k : Nat) : Act := (s.act? k).getD Act.zero
/-- The state with another activation at a key. -/
def State.setAct (s : State) (k : Nat) (a : Act) : State := { s with acts := tabSet s.acts k a }
/-- The state with the activation of a key changed, if there is one. -/
def State.updAct (s : State) (k : Nat) (f : Act → Act) : State :=
  match s.act? k with
  | some a => s.setAct k (f a)
  | none => s
/-- The issuing activation. -/
def State.here (s : State) : Act := s.act s.cur
/-- The state with the issuing activation changed. -/
def State.updHere (s : State) (f : Act → Act) : State := s.updAct s.cur f
/-- The panel of an index. -/
def State.panel (s : State) (p : Nat) : Panel := (tabFind s.panels p).getD Panel.empty
/-- The state with another panel. -/
def State.setPanel (s : State) (p : Nat) (x : Panel) : State := { s with panels := tabSet s.panels p x }
/-- The PT of a key panel × 4096 + PT. -/
def State.pt (s : State) (k : Nat) : Pt := (tabFind s.pts k).getD (Pt.spare (k % 4096))
/-- The state with another PT. -/
def State.setPt (s : State) (k : Nat) (x : Pt) : State := { s with pts := tabSet s.pts k x }
/-- The die of a key panel × 64 + die. -/
def State.die (s : State) (k : Nat) : Die := (tabFind s.dies k).getD Die.empty
/-- The state with another die. -/
def State.setDie (s : State) (k : Nat) (x : Die) : State := { s with dies := tabSet s.dies k x }
/-- The firmware core of a key panel × 256 + die × 4 + core. -/
def State.fwCore (s : State) (k : Nat) : FwCore := (tabFind s.fws k).getD FwCore.empty
/-- The state with another firmware core. -/
def State.setFw (s : State) (k : Nat) (x : FwCore) : State := { s with fws := tabSet s.fws k x }
/-- One core of a tile. -/
def Tile.core (t : Tile) (stg : Bool) : Core := if stg then t.stag else t.comp
/-- The tile with another core. -/
def Tile.setCore (t : Tile) (stg : Bool) (c : Core) : Tile := if stg then { t with stag := c } else { t with comp := c }
/-- One core of a DT. -/
def State.core (s : State) (dt : Nat) (stg : Bool) : Core := (s.tile dt).core stg
/-- The state with one core changed. -/
def State.updCore (s : State) (dt : Nat) (stg : Bool) (f : Core → Core) : State :=
  let t := s.tile dt
  s.setTile dt (t.setCore stg (f (t.core stg)))
/-- The rod of a tile. -/
def Tile.rod (t : Tile) (k : Nat) : Rod := (tabFind t.rods k).getD Rod.zero
/-- The node record of a slot. -/
def Tile.node (t : Tile) (i : Nat) : Node := (tabFind t.nodes i).getD Node.empty
/-- The leaf of a tile in a group. -/
def Tile.leaf (t : Tile) (g : Nat) : Leaf := (tabFind t.leaves g).getD Leaf.zero
/-- The node record of a slot of a DT. -/
def State.node (s : State) (dt i : Nat) : Node := (s.tile dt).node i
/-- The state with another node record; the change belongs to the next epoch (R340). -/
def State.setNode (s : State) (dt i : Nat) (n : Node) : State :=
  let t := s.tile dt
  s.setTile dt { t with nodes := tabSet t.nodes i n, dirty := true }
/-- A beam group of a panel. -/
def State.group (s : State) (p g : Nat) : BeamGroup := (tabFind (s.panel p).beam g).getD BeamGroup.empty
/-- The state with another beam group. -/
def State.setGroup (s : State) (p g : Nat) (x : BeamGroup) : State :=
  let q := s.panel p
  s.setPanel p { q with beam := tabSet q.beam g x }
/-- The firmware core of the issuing context. -/
def State.fwHere (s : State) : Nat := s.cur - Config.fwKey
/-- The panel of the issuing context. -/
def State.panelHere (s : State) : Nat := if s.here.fw then s.fwHere / 256 else s.here.dt / 4096

/-- R14, R430: a panel is part of a domain, if only of its own. -/
def Panel.joined (x : Panel) : Bool := x.inDomain || x.alone

/-- R14, R430: a panel is of the domain of another, or that panel itself. -/
def State.together (s : State) (p q : Nat) : Bool :=
  if p = q then (s.panel p).joined else (s.panel p).inDomain && (s.panel q).inDomain

/-- R14: the DT names a configured VT of a panel that is part of a domain. -/
def State.configured (s : State) (dt : Nat) : Bool :=
  (s.panel (dt / 4096)).joined && decide (dt % 4096 < (s.panel (dt / 4096)).vts)

/-- R14: the DT names a configured VT of the domain of a panel. -/
def State.names (s : State) (p dt : Nat) : Bool := s.configured dt && s.together p (dt / 4096)

/-- R12, R17: the PT that serves a VT, as its key in the table of PTs. -/
def State.ptOf (s : State) (dt : Nat) : Option Nat :=
  (s.pts.find? (fun e => e.1 / 4096 == dt / 4096 && e.2.role == .inService (dt % 4096))).map (·.1)

/-- R346: the retired PT with which a VT was lost. -/
def State.lostPt (s : State) (dt : Nat) : Option Nat :=
  (s.pts.find? (fun e => e.1 / 4096 == dt / 4096 && e.2.lostVt == some (dt % 4096))).map (·.1)

/-- The PT of a tile key, a replica's tile included; for a lost VT, the PT it was lost with. -/
def State.ptKey (s : State) (tile : Nat) : Nat :=
  if tile ≥ Config.replicaBase then tile - Config.replicaBase
  else ((s.ptOf tile).getD ((s.lostPt tile).getD (tile / 4096 * 4096)))

/-- R12: the die of a tile key, as its key in the table of dies. -/
def State.dieOf (s : State) (tile : Nat) : Nat :=
  let k := s.ptKey tile
  k / 4096 * 64 + k % 4096 / 80

/-- R15: map generation g is x or a later one, modulo 2^16. -/
def reached (g x : BitVec 16) : Bool := decide ((g - x).toNat < 2 ^ 15)

/-- R15: the position of a DT in the tile map of a router of its panel, as die and physical coordinates: a router that has not
applied the generation of a rotation still maps the VT to its outgoing PT (R335); a lost VT is still mapped to the PT with
which it was lost (R346). -/
def State.tileMap (s : State) (router dt : Nat) : Option (Nat × Nat × Nat) :=
  let p := dt / 4096
  let old := s.dies.find? (fun e => e.1 / 64 == p && e.2.phase == .window && e.2.rotVt == dt &&
    !reached (s.pt router).mapGen e.2.gen)
  (match old with
    | some e => some (p * 4096 + e.2.outPt)
    | none => match s.ptOf dt with
      | some k => some k
      | none => s.lostPt dt).map (fun k => (k % 4096 / 80, ptX (k % 4096), ptY (k % 4096)))

/-- R15: the map generation of a tile's panel as its own router holds it. -/
def State.mapGenOf (s : State) (tile : Nat) : BitVec 16 := (s.pt (s.ptKey tile)).mapGen

/-! ### Registers -/

/-- w register i. -/
def Act.wreg (a : Act) (i : BitVec 5) : Word := a.w[i.toNat]'(i.isLt)
/-- The activation with w register i set. -/
def Act.setW (a : Act) (i : BitVec 5) (x : Word) : Act := { a with w := a.w.set i.toNat x (i.isLt) }
/-- v register i. -/
def Act.vreg (a : Act) (i : BitVec 4) : Vec := a.v[i.toNat]'(i.isLt)
/-- The activation with v register i set. -/
def Act.setV (a : Act) (i : BitVec 4) (x : Vec) : Act := { a with v := a.v.set i.toNat x (i.isLt) }
/-- Mask i; m0 reads all ones (R99). -/
def Act.mreg (a : Act) (i : BitVec 3) : Word := if i = 0 then BitVec.allOnes 64 else a.m[i.toNat]'(i.isLt)
/-- The activation with mask i set. -/
def Act.setM (a : Act) (i : BitVec 3) (x : Word) : Act := { a with m := a.m.set i.toNat x (i.isLt) }
/-- Extension register i. -/
def Act.ereg (a : Act) (i : BitVec 3) : Word := a.e[i.toNat]'(i.isLt)
/-- The activation with extension register i set. -/
def Act.setE (a : Act) (i : BitVec 3) (x : Word) : Act := { a with e := a.e.set i.toNat x (i.isLt) }

/-- w register i of the issuing activation. -/
def State.w (s : State) (i : BitVec 5) : Word := s.here.wreg i
/-- The state with w register i of the issuing activation set. -/
def State.setW (s : State) (i : BitVec 5) (x : Word) : State := s.updHere (fun a => a.setW i x)

/-- R65, R101: the status doubleword. -/
def Status.toWord (x : Status) : Word :=
  (0 : BitVec 15) ++ x.rdepth ++ BitVec.ofBool x.rpl ++ BitVec.ofBool x.eff ++ x.wq ++ x.wait ++
    BitVec.ofBool x.core ++ x.slot ++ BitVec.ofBool x.disp ++ x.repdone ++ x.reppos ++ BitVec.ofBool x.rep ++
    x.mwcnt ++ BitVec.ofBool x.mw ++ BitVec.ofBool x.urg ++ x.cdepth

/-- The status fields of a doubleword that firmware stored into a parked header (R382). -/
def Status.ofWord (x : Word) : Status where
  cdepth := x.setWidth 4
  urg := x.getLsbD 4
  mw := x.getLsbD 5
  mwcnt := x.extractLsb' 6 9
  rep := x.getLsbD 15
  reppos := x.extractLsb' 16 3
  repdone := x.extractLsb' 19 16
  disp := x.getLsbD 35
  slot := x.extractLsb' 36 2
  core := x.getLsbD 38
  wait := x.extractLsb' 39 3
  wq := x.extractLsb' 42 3
  eff := x.getLsbD 45
  rpl := x.getLsbD 46
  rdepth := x.extractLsb' 47 2

/-- R102: the cause doubleword. -/
def CauseWord.toWord (x : CauseWord) : Word :=
  (0 : BitVec 41) ++ BitVec.ofBool x.nest ++ x.rword ++ x.rnum ++ x.inner ++ x.code

/-- The cause fields of a doubleword (R102). -/
def CauseWord.ofWord (x : Word) : CauseWord :=
  ⟨x.setWidth 8, x.extractLsb' 8 8, x.extractLsb' 16 4, x.extractLsb' 20 2, x.getLsbD 22⟩

/-- The tags of an activation on its core. -/
def State.tagsOf (s : State) (k : Nat) (a : Act) : List Tag :=
  if a.fw then [] else (s.core a.tile a.stg).tags.filter (fun t => t.owner == k)

/-- R112: the recipe tag map. -/
def tagMap (tags : List Tag) : Word :=
  tags.foldl (fun m t => m ||| BitVec.ofNat 64 (2 ^ (t.reg - 16) + (if t.dropped then 2 ^ (t.reg + 16) else 0))) 0

/-- Doubleword i of an activation's workspace, as its registers and header hold it (R98); vectors apart. -/
def Act.wsWord (a : Act) (tags : List Tag) (i : Nat) : Word :=
  if h : i < 32 then a.w[i]
  else if i < 0x220 then
    BitVec.ofNat 64 ((a.vreg (BitVec.ofNat 4 ((i - 32) / 32))).toNat / 2 ^ (64 * ((i - 32) % 32)))
  else if h : i - 0x220 < 8 then a.m[i - 0x220]
  else if h : i - 0x228 < 8 then a.e[i - 0x228]
  else if i = 0x230 then a.pc
  else if i = 0x231 then a.status.toWord
  else if i = 0x232 then a.cause.toWord
  else if i = 0x233 then a.value
  else if i = 0x234 then tagMap tags
  else if i = 0x235 then a.nref
  else if h : i - 0x236 < 8 then a.shadow[i - 0x236]
  else if i = 0x23E then a.leasePtr
  else a.order

/-- The code of the w or v register that holds workspace byte o (R118); w0 to w15 have codes 0 to 15. -/
def regAt (o : Nat) : Option Nat :=
  if o < 0x100 then some (o / 8)
  else if o < 0x1100 then some (32 + (o - 0x100) / 256)
  else none

/-- R100, R115: byte o of an activation's workspace; the bytes of a dropped register read 0xFF. -/
def Act.wsByte (a : Act) (tags : List Tag) (o : Nat) : Byte :=
  if (match regAt o with | some r => tags.any (fun t => t.reg == r && t.dropped) | none => false) then 0xFF
  else byteOf (a.wsWord tags (o / 8)).toNat (o % 8)

/-- R29: the PC is always a multiple of 2: bit 0 of a value put into it is dropped (log 65). -/
def evenPc (x : Word) : Word := x &&& ~~~1

/-- The activation with doubleword i of its workspace written (R100, R382). -/
def Act.setWsWord (a : Act) (i : Nat) (x : Word) : Act :=
  if h : i < 32 then { a with w := a.w.set i x }
  else if i < 0x220 then
    let n := BitVec.ofNat 4 ((i - 32) / 32)
    let sh := 64 * ((i - 32) % 32)
    let old := (a.vreg n).toNat
    a.setV n (BitVec.ofNat 2048 (old - old / 2 ^ sh % 2 ^ 64 * 2 ^ sh + x.toNat * 2 ^ sh))
  else if h : i - 0x220 < 8 then { a with m := a.m.set (i - 0x220) x }
  else if h : i - 0x228 < 8 then { a with e := a.e.set (i - 0x228) x }
  else if i = 0x230 then { a with pc := evenPc x }
  else if i = 0x231 then { a with status := Status.ofWord x }
  else if i = 0x232 then { a with cause := CauseWord.ofWord x }
  else if i = 0x233 then { a with value := x }
  else if i = 0x234 then a
  else if i = 0x235 then { a with nref := x }
  else if h : i - 0x236 < 8 then { a with shadow := a.shadow.set (i - 0x236) x }
  else if i = 0x23E then { a with leasePtr := x }
  else { a with order := x }

/-- The activation with byte o of its workspace written. -/
def Act.setWsByte (a : Act) (o : Nat) (b : Byte) : Act :=
  a.setWsWord (o / 8) (BitVec.ofNat 64 (putByte (a.wsWord [] (o / 8)).toNat (o % 8) b))

/-! ### Node records as memory -/

/-- R212: the eight doublewords of a node record. -/
def Node.word (n : Node) (i : Nat) : Word :=
  match i with
  | 0 => (0 : BitVec 1) ++ BitVec.ofBool n.abs ++ BitVec.ofNat 1 (n.beads / 2 ^ 32) ++ n.weight ++ n.retry ++
      BitVec.ofBool n.screen ++ BitVec.ofBool n.once ++ BitVec.ofBool n.urg ++ n.role ++ n.entry
  | 1 => n.attempt ++ n.state ++ n.gid ++ n.gen ++ n.count
  | 2 => BitVec.ofNat 32 n.beads ++ BitVec.ofInt 32 n.live
  | 3 => n.inboxsz ++ n.wsclass ++ n.budget ++ n.nsucc ++ n.succ
  | 4 => n.policy ++ n.cwlen ++ n.cwin ++ n.inbox
  | 5 => n.org
  | 6 => n.ext
  | _ => n.user

/-- The node record of eight doublewords (R212). -/
def Node.ofWords (f : Nat → Word) : Node where
  entry := (f 0).setWidth 48
  role := (f 0).extractLsb' 48 2
  urg := (f 0).getLsbD 50
  once := (f 0).getLsbD 51
  screen := (f 0).getLsbD 52
  retry := (f 0).extractLsb' 53 4
  weight := (f 0).extractLsb' 57 4
  beads := ((f 2).extractLsb' 32 32).toNat + (if (f 0).getLsbD 61 then 2 ^ 32 else 0)
  abs := (f 0).getLsbD 62
  count := (f 1).setWidth 16
  gen := (f 1).extractLsb' 16 16
  gid := (f 1).extractLsb' 32 16
  state := (f 1).extractLsb' 48 8
  attempt := (f 1).extractLsb' 56 8
  live := ((f 2).setWidth 32).toInt
  succ := (f 3).setWidth 22
  nsucc := (f 3).extractLsb' 22 11
  budget := (f 3).extractLsb' 33 5
  wsclass := (f 3).extractLsb' 38 10
  inboxsz := (f 3).extractLsb' 48 16
  inbox := (f 4).setWidth 22
  cwin := (f 4).extractLsb' 22 22
  cwlen := (f 4).extractLsb' 44 18
  policy := (f 4).extractLsb' 62 2
  org := f 5
  ext := f 6
  user := f 7

/-! ### Local memories -/

/-- The live workspace of a tile that holds LM offset off, with its key. -/
def State.wsAt (s : State) (tile off : Nat) : Option (Nat × Act) :=
  s.acts.find? (fun e => !e.2.fw && e.2.tile == tile && e.2.area != 0 && decide (e.2.wp ≤ off) &&
    decide (off < e.2.wp + Config.wsSize))

/-- The live activation of a tile whose lease table holds LM offset off (R150). -/
def State.leaseTableAt (s : State) (tile off : Nat) : Bool :=
  s.acts.any (fun e => !e.2.fw && e.2.tile == tile && e.2.area != 0 &&
    decide (e.2.wp + Config.wsSize ≤ off) && decide (off < e.2.wp + Config.wsSize + 128))

/-- R109: entries of queue q that its reading core sees. -/
def Tile.visible (t : Tile) (q : Fin 8) : Nat := t.queues[q].length - t.fresh[q]

/-- R109: entries of queue q as its writing core sees them, those still to be filled among them: 4 less the free space
visible to it. -/
def Tile.occupied (t : Tile) (q : Fin 8) : Nat := t.queues[q].length + t.tails[q].length + t.freed[q]

/-- R107, R396: the core that reads queue q of a tile is halted: a push waits for it. -/
def Tile.readerHalted (t : Tile) (q : Fin 8) : Bool := if q.val < 4 then t.comp.halted else t.stag.halted

/-- R108, R396: a queue of a tile lacks the entries, or the space, that an instruction needs of it, or its reader is halted. -/
def Tile.lacks (t : Tile) (n : Nat × Bool × Nat) : Bool :=
  let q := Fin.ofNat 8 n.1
  if n.2.1 then decide (4 < t.occupied q + n.2.2) || t.readerHalted q else decide (t.visible q < n.2.2)

/-- R108, R198: what the activation waits for before it can be tried again has come. -/
def State.waitOver (s : State) (a : Act) : Bool :=
  match a.wait with
  | .none => true
  | .queue needs => !needs.any (s.tile a.tile).lacks
  | .beamArrive g => !((s.tile a.dt).leaf g).up
  | _ => false

/-- R101: an activation as its header shows it: WAIT and WQ of one that waits to be tried again name what it still waits for, and
are 0 once that has come. -/
def State.facing (s : State) (a : Act) : Act :=
  match a.wait with
  | .queue needs =>
    let w : BitVec 3 × BitVec 3 := match needs.find? (s.tile a.tile).lacks with
      | some n => (if n.2.1 then 3 else 2, BitVec.ofNat 3 n.1)
      | none => (0, 0)
    { a with status := { a.status with wait := w.1, wq := w.2 } }
  | .beamArrive _ => if s.waitOver a then { a with status := { a.status with wait := 0 } } else a
  | _ => a

/-- R100, R126, R212: the byte at an offset of a tile's LM. -/
def State.lmByte (s : State) (tile off : Nat) : Byte :=
  if off < Config.nodeTableEnd then byteOf ((s.node tile (off / 64)).word (off % 64 / 8)).toNat (off % 8)
  else if off < Config.generalBase then Config.engineByte s.tick tile off
  else match s.wsAt tile off with
    | some (k, a) => (s.facing a).wsByte (s.tagsOf k a) (off - a.wp)
    | none => memRead (s.tile tile).lm off

/-- R374: the physical address of a firmware core's memory. -/
def fwBase (fw : Nat) : Nat :=
  2 ^ 48 + fw / 256 * 2 ^ 42 + fw % 256 / 4 * 2 ^ 36 + fw % 4 * 2 ^ 24

/-- R374: the firmware core and the offset of a physical address of a firmware memory, if it is one of the listed range;
bits 35 to 26 are zero in it (log 66). -/
def fwOf (pa : Nat) : Option (Nat × Nat) :=
  let die := pa / 2 ^ 36 % 64
  let core := pa / 2 ^ 24 % 4
  if pa / 2 ^ 45 = 8 ∧ die < 44 ∧ pa / 2 ^ 26 % 2 ^ 10 = 0 ∧ core < (if die < 40 then 3 else 1) ∧ pa / 2 ^ 20 % 16 = 0
  then some (pa / 2 ^ 42 % 8 * 256 + die * 4 + core, pa % 2 ^ 20)
  else none

/-- R98, R373, R375: the context of a firmware core whose workspace holds the byte at a physical address, with its key and
the byte's offset in the workspace. -/
def State.fwContext (s : State) (pa : Nat) : Option (Nat × Act × Nat) :=
  match fwOf pa with
  | none => none
  | some (fw, off) =>
    match s.act? (Config.fwKey + fw) with
    | none => none
    | some a => if a.wp ≤ off ∧ off < a.wp + Config.wsSize then some (Config.fwKey + fw, a, off - a.wp) else none

/-- R374: the physical address lies in HBM or host memory, whose lines are keyed (R155). -/
def keyed (pa : Nat) : Bool := pa / 2 ^ 48 != 1

/-- The bytes of a line of global memory under the key id it was last written under. -/
def State.lineBytes (s : State) (line : Nat) : List Byte := (List.range 128).map (fun i => memRead s.phys (128 * line + i))

/-- R100, R155, R156: the byte at a physical address as a reader with a key id sees it: a line written under another key
is decrypted under the reader's; in a firmware memory, the workspace of a context holds its registers. -/
def State.physByte (s : State) (key pa : Nat) : Byte :=
  if keyed pa then
    match tabFind s.keys (pa / 128) with
    | none => memRead s.phys pa
    | some k =>
      if k = key then memRead s.phys pa
      else (recryptLine k key (pa / 128) (s.lineBytes (pa / 128))).getD (pa % 128) 0
  else match s.fwContext pa with
    | some (_, a, o) => a.wsByte [] o
    | none => memRead s.phys pa

/-- The byte at a local address of an activation: its LM, or its firmware memory (R373). A replica reads its own
workspace on its own tile and every other byte of the home VT (R352). -/
def State.localByte (s : State) (k : Nat) (a : Act) (off : Nat) : Byte :=
  if a.fw then
    if a.wp ≤ off ∧ off < a.wp + Config.wsSize then a.wsByte [] (off - a.wp)
    else memRead s.phys (fwBase (k - Config.fwKey) + off)
  else if a.replica ∧ a.wp ≤ off ∧ off < a.wp + Config.wsSize then a.wsByte (s.tagsOf k a) (off - a.wp)
  else s.lmByte a.dt off

/-- R180, R183: a wait on rod k of a tile is pending. -/
def State.rodWaited (s : State) (tile k : Nat) : Bool :=
  s.acts.any (fun e => e.2.tile == tile && (match e.2.wait with
    | .rod j => j == k
    | .barrier j _ => j == k
    | .multi _ src => (List.range 4).any (fun i =>
        (src.getLsbD (8 * i + 7)) && (src.extractLsb' (8 * i) 7).toNat == k)
    | _ => false))

/-- R180: the rod word. -/
def Rod.toWord (r : Rod) (wtr : Bool) : Word :=
  (0 : BitVec 5) ++ BitVec.ofBool wtr ++ BitVec.ofBool r.ovf ++ BitVec.ofBool (r.p != 0) ++ r.bgen ++ r.thr ++ r.count

/-- A byte of a tile window below the control page: LM, then the sync page (R19, R128). -/
def State.winByte (s : State) (dt off : Nat) : Byte :=
  if off < Config.syncBase then s.lmByte dt off
  else
    let k := (off - Config.syncBase) / 8
    byteOf (((s.tile dt).rod k).toWord (s.rodWaited dt k)).toNat (off % 8)

/-- The byte of a home. -/
def State.homeByte (s : State) (key : Nat) (h : Home) (i : Nat) : Byte :=
  match h with
  | .lm dt off => s.winByte dt (off + i)
  | .phys pa => s.physByte key (pa + i)

/-- n bytes of a home as a little-endian number. -/
def State.homeRead (s : State) (key : Nat) (h : Home) (n : Nat) : Nat :=
  leNat ((List.range n).map (s.homeByte key h))

/-- n bytes of the issuing activation's local memory as a little-endian number. -/
def State.localRead (s : State) (off n : Nat) : Nat :=
  leNat ((List.range n).map (fun i => s.localByte s.cur s.here (off + i)))

/-- n bytes of a tile's LM as a little-endian number. -/
def State.lmRead (s : State) (tile off n : Nat) : Nat :=
  leNat ((List.range n).map (fun i => s.lmByte tile (off + i)))

/-- R158: the byte of a home lies in a poisoned word or line. -/
def State.poisoned (s : State) (h : Home) (i : Nat) : Bool :=
  match h with
  | .lm dt off => (s.tile dt).lmPoison.contains ((off + i) / 8)
  | .phys pa => s.poison.contains ((pa + i) / 128)

/-- R365: where byte i of a home lies. -/
def Home.poisonAt (h : Home) (i : Nat) : PoisonAt :=
  match h with
  | .lm dt off => .lm dt (off + i)
  | .phys pa => .global (pa + i)

/-- R158: the poisoned bytes of n bytes of a home. -/
def State.poisonedBytes (s : State) (h : Home) (n : Nat) : List PoisonAt :=
  ((List.range n).filter (s.poisoned h)).map h.poisonAt

/-- R236: a token of one bead that a fired binding sends, or an ended one; its sender is no node, and the token names 0 (DESIGN
CHOICE, log 98). -/
def bindingToken (b : Binding) (kind : Item) (origin : Nat) : Body := .token b.target 1 kind false origin 0

/-! ### Messages -/

/-- The panel of a sender: a tile, by its DT or its replica's tile key, or a firmware core, by the key of its context. -/
def agentPanel (src : Nat) : Nat :=
  if Config.fwKey ≤ src then (src - Config.fwKey) / 256
  else if Config.replicaBase ≤ src then (src - Config.replicaBase) / 4096 else src / 4096

/-- The router of a sender: its tile's, or for a firmware core the first of its die, or that of its I/O die (log 67). -/
def State.agentRouter (s : State) (src : Nat) : Nat :=
  if Config.fwKey ≤ src then
    let c := src - Config.fwKey
    c / 256 * 4096 + (if c % 256 < 160 then 80 * (c % 256 / 4) else 3160 + c % 256 / 4)
  else s.ptKey src

/-- R336: the first router of a message on a panel: the sender's own, or that of the I/O die where it enters the panel. -/
def State.routerOn (s : State) (src p : Nat) : Nat :=
  if agentPanel src = p then s.agentRouter src else p * 4096 + 3200 + entryIo p (agentPanel src)

/-- R336: the first router of a message to a tile on the panel of the tile. -/
def State.firstRouter (s : State) (src dst : Nat) : Nat := s.routerOn src (dst / 4096)

/-- The panel of a message's target: a tile, or for a trap message a firmware core (R380). -/
def Body.panel (b : Body) (dst : Nat) : Nat :=
  match b with
  | .trap _ _ _ _ => dst / 256
  | _ => dst / 4096

/-- R15, R336: the route of an access to a tile, under the map generation of its first router. -/
def State.routeTo (s : State) (src dst : Nat) : Route :=
  let r := s.firstRouter src dst
  ⟨dst, r, (s.pt r).mapGen⟩

/-- R13, R15: the routers that an access passes on the panel of its tile, to the position its first router maps the tile to. -/
def State.path (s : State) (r : Route) : List Nat :=
  match s.tileMap r.router r.dt with
  | some (_, x, y) => meshRoute (r.router % 4096) (ptAt x y)
  | none => []

/-- R342: the epoch of a number is another or comes before it. Epoch numbers have 32 bits and count on modulo 2^32, and those that
are compared lie within half of that (log 91). -/
def epochBy (e x : BitVec 32) : Bool := decide ((x - e).toNat < 2 ^ 31)

/-- R342: the retention records of a sender: a tile, or a firmware core by the key of its context. -/
def State.kept (s : State) (src : Nat) : List Retained :=
  if Config.fwKey ≤ src then (s.fwCore (src - Config.fwKey)).retained else (s.tile src).retained

/-- The retention records of a sender changed; a tile's `change` belongs to its next epoch (R340). -/
def State.updKept (s : State) (src : Nat) (change : Bool) (f : List Retained → List Retained) : State :=
  if Config.fwKey ≤ src then
    let c := s.fwCore (src - Config.fwKey)
    s.setFw (src - Config.fwKey) { c with retained := f c.retained }
  else
    let t := s.tile src
    s.setTile src { t with retained := f t.retained, dirty := t.dirty || change }

/-! ### Crossing the fabric (R424, R426) -/

/-- A port of a panel. -/
def State.port (s : State) (p n : Nat) : Port := (tabFind (s.panel p).ports n).getD Port.empty

/-- R424: sequence number n is one of the 4,096 before the one that a receiver expects: its flit has been delivered. -/
def Port.delivered (x : Port) (n : BitVec 16) : Bool := decide ((x.expect - 1 - n).toNat < 4096)

/-- R426: what goes to another panel waits for a flit of its route, which is that of its target (log 22). -/
def State.cross (s : State) (p q target : Nat) (x : Parcel) : State :=
  if p = q then s
  else
    let y := s.panel p
    s.setPanel p { y with outbound := y.outbound ++ [⟨q, target % 4, x⟩] }

/-- R424, R426: a flit that a port keeps has been delivered at the port that it leads to. -/
def State.received (s : State) (p n : Nat) (f : Flit) : Bool :=
  match portPeer p n with
  | some q => (s.port q (peerPort n)).delivered f.seq
  | none => false

/-- R424, R426: a parcel is no longer on its way between panels. -/
def State.crossed (s : State) (x : Parcel) : Bool :=
  s.panels.all (fun e => e.2.outbound.all (fun t => t.parcel != x) &&
    e.2.ports.all (fun y => y.2.buffer.all (fun f => f.load.parcel != x || s.received e.1 y.1 f)))

/-- The panel of a home, and the number that its route is chosen by: host memory is reached through the panel's own bridges. -/
def Home.hop : Home → Option (Nat × Nat)
  | .lm dt _ => some (agentPanel dt, dt)
  | .phys pa =>
    if pa < 2 ^ 45 then some (pa / 2 ^ 42, pa / 2 ^ 36)
    else (fwOf pa).map (fun x => (x.1 / 256, x.1))

/-- A message put in flight, routed first at a router under that router's map generation (R15, R336). A durable
request (R342) gets a retention record at its sender. -/
def State.send (s : State) (src dst : Nat) (b : Body) (durable : Bool) (issuer : Option Nat) : State :=
  let router := s.routerOn src (b.panel dst)
  let m : Msg := ⟨dst, src, router, (s.pt router).mapGen, b, if durable then some s.nextId else none, s.nextId⟩
  let s := ({ s with msgs := s.msgs ++ [m], nextId := s.nextId + 1 } : State).cross (agentPanel src) (b.panel dst) dst (.msg s.nextId)
  if durable then s.updKept src true (fun l => l ++ [⟨s.nextId - 1, dst, b, none, issuer, true, none⟩]) else s

/-- The record or message body is a remote rod add. -/
def Body.isRod : Body → Bool
  | .rodAdd _ _ => true
  | _ => false

/-- R188, R342: an activation of a sender has remote rod adds that are not yet performed. -/
def State.rodAddsOpen (s : State) (k src : Nat) : Bool :=
  (s.kept src).any (fun r => r.issuer == some k && r.epoch.isNone && r.body.isRod)

/-- The sender of an activation's messages: its tile, or its firmware context. -/
def State.senderOf (s : State) (k : Nat) : Nat := if (s.act k).fw then k else (s.act k).dt

/-- R217: Return(b), a message to the graph record's home. -/
def State.returnBeads (s : State) (src gid b : Nat) : State :=
  if b = 0 then s
  else
    let t := s.send src src (.beadReturn gid b) false none
    match (tabFind s.graphs gid).bind (fun g => (Home.phys g.grec).hop) with
    | some h => t.cross (agentPanel src) h.1 h.2 (.msg s.nextId)
    | none => t

/-! ### Performing writes -/

/-- A write of consecutive bytes at a home. -/
abbrev Put := Home × List Byte

/-- One byte of a tile's LM written where it lives: in the node table as a write of the record (R212; only firmware's
stores reach it, R126, R373), in a live workspace as a write of the register (R100). -/
def State.lmPutByte (s : State) (tile off : Nat) (b : Byte) : State :=
  if off < Config.nodeTableEnd then
    let n := s.node tile (off / 64)
    let word (i : Nat) : Word :=
      if i = off % 64 / 8 then BitVec.ofNat 64 (putByte (n.word i).toNat (off % 8) b) else n.word i
    s.setNode tile (off / 64) (Node.ofWords word)
  else match s.wsAt tile off with
  | some (k, a) => s.setAct k (a.setWsByte (off - a.wp) b)
  | none =>
    let t := s.tile tile
    s.setTile tile { t with lm := memWrite t.lm off b }

/-- R158: consecutive bytes written into the LM of a tile outside any workspace: the words they cover whole lose their
poison. -/
def Tile.putBytes (t : Tile) (off : Nat) (bs : List Byte) : Tile :=
  { t with
    lm := memWriteBytes t.lm off bs
    lmPoison := t.lmPoison.filter (fun w => !(decide (off ≤ 8 * w) && decide (8 * w + 8 ≤ off + bs.length))) }

/-- R156: a line written back under its tag and refetched by a writer with another key id. -/
def State.rekey (s : State) (key line : Nat) : State :=
  match tabFind s.keys line with
  | none => { s with keys := tabSet s.keys line key }
  | some k =>
    if k = key then s
    else { s with
      phys := memWriteBytes s.phys (128 * line) (recryptLine k key line (s.lineBytes line))
      keys := tabSet s.keys line key }

/-- One byte of physical memory written under a key id; in a firmware memory, a byte of a context's workspace as a
write of its register. -/
def State.physPutByte (s : State) (key pa : Nat) (b : Byte) : State :=
  if keyed pa then
    let s := s.rekey key (pa / 128)
    { s with phys := memWrite s.phys pa b }
  else match s.fwContext pa with
    | some (k, a, o) => s.setAct k (a.setWsByte o b)
    | none => { s with phys := memWrite s.phys pa b }

/-- Consecutive bytes written at a home. -/
def State.putBytes (s : State) (key : Nat) (h : Home) : List Byte → State
  | [] => s
  | b :: t =>
    match h with
    | .lm dt off => (s.lmPutByte dt off b).putBytes key (.lm dt (off + 1)) t
    | .phys pa => (s.physPutByte key pa b).putBytes key (.phys (pa + 1)) t

/-- The writes cover a byte of a home. -/
def covers (ps : List Put) (h : Home) : Bool :=
  ps.any (fun p => match p.1, h with
    | .lm dt off, .lm dt' off' => dt == dt' && decide (off ≤ off') && decide (off' < off + p.2.length)
    | .phys pa, .phys pa' => decide (pa ≤ pa') && decide (pa' < pa + p.2.length)
    | _, _ => false)

/-- R158: a write that covers a whole poisoned word or line clears its poison. -/
def State.clearPoison (s : State) (ps : List Put) : State :=
  let s := if s.poison.isEmpty then s else
    { s with poison := s.poison.filter (fun l =>
        !(List.range 128).all (fun i => covers ps (.phys (128 * l + i)))) }
  ps.foldl (fun s p => match p.1 with
    | .lm dt _ =>
      let t := s.tile dt
      if t.lmPoison.isEmpty then s else
      s.setTile dt { t with lmPoison := t.lmPoison.filter (fun w =>
        !(List.range 8).all (fun i => covers ps (.lm dt (8 * w + i)))) }
    | .phys _ => s) s

/-- R236: the watchpoints of every tile that the writes trigger fire, each with one token, and end. -/
def State.fireWatches (s : State) (ps : List Put) : State :=
  s.tiles.foldl (fun s e =>
    let hit := e.2.bindings.filter (fun b => match b.source with
      | .watch pa len mask value => ps.any (fun p => match p.1 with
          | .phys q => (List.range ((p.2.length + 14) / 8)).any (fun i =>
              let d := (q / 8 + i) * 8
              decide (pa ≤ d) && decide (d < pa + len) && decide (d < q + p.2.length) &&
                (BitVec.ofNat 64 (leNat ((List.range 8).map (fun j => memRead s.phys (d + j)))) &&& mask ==
                  value &&& mask))
          | .lm _ _ => false)
      | _ => false)
    if hit.isEmpty then s else
    let t := s.tile e.1
    let s := s.setTile e.1 { t with bindings := t.bindings.filter (fun b => !hit.contains b), dirty := true }
    hit.foldl (fun s b =>
      s.send e.1 (b.target.extractLsb' 12 15).toNat (bindingToken b .plain 0) true none) s) s

/-- R153: the line of a page has been copied, so that a write to it must be copied again: in the current round, or before it
where the round leaves the line out. -/
def Migration.settled (g : Migration) (line : Nat) : Bool :=
  decide (line < g.copied) || (match g.todo with | some ls => !ls.contains line | none => false)

/-- R153 step 3: a write to a page in migration marks its lines that have been copied dirty. -/
def State.markMigration (s : State) (ps : List Put) : State :=
  let mark (g : Migration) : Migration :=
    let lines := (ps.flatMap (fun p => match p.1 with
      | .phys pa => if g.old ≤ pa ∧ pa < g.old + g.size
          then [(pa - g.old) / 128, (pa - g.old + p.2.length - 1) / 128] else []
      | .lm _ _ => [])).filter g.settled
    { g with dirty := (g.dirty ++ lines).eraseDups }
  { s with dies := s.dies.map (fun e => (e.1, { e.2 with mig := e.2.mig.map mark })) }

/-- R153, R154: a page in migration that a physical address lies in is frozen. -/
def State.frozenAt (s : State) (pa : Nat) : Bool :=
  s.dies.any (fun e => e.2.mig.any (fun g => g.frozen && decide (g.old ≤ pa) && decide (pa < g.old + g.size)))

/-- R153: the byte at a physical address, after the writes that its frozen page holds. -/
def State.heldByte (s : State) (pa : Nat) (b : Byte) : Byte :=
  s.held.foldl (fun b h => if h.2.1 ≤ pa ∧ pa < h.2.1 + h.2.2.length then h.2.2.getD (pa - h.2.1) 0 else b) b

/-- R153: n bytes at a physical address as a graph engine or launch unit reads them: after the writes that a frozen page holds. -/
def State.heldBytes (s : State) (key pa n : Nat) : List Byte :=
  (List.range n).map (fun i =>
    let b := s.physByte key (pa + i)
    if s.frozenAt pa then s.heldByte (pa + i) b else b)

/-- R344: a write into a sourced LM region releases it; R340: the tile has a change for its next epoch. -/
def State.touchLm (s : State) (ps : List Put) : State :=
  ps.foldl (fun s p => match p.1 with
    | .lm dt off =>
      let t := s.tile dt
      if t.sourced.isEmpty ∧ t.mirrored.isEmpty then s else
      let apart (r : Region) : Bool :=
        !r.isLm || decide (off + p.2.length ≤ r.base) || decide (r.base + r.len ≤ off)
      s.setTile dt { t with
        sourced := t.sourced.filter apart
        dirty := t.dirty || !t.mirrored.all apart || !t.sourced.all apart }
    | .phys _ => s) s

/-! ### Blocking and waking (R80, R183, R190) -/

/-- R133: an acquire by any activation of a core invalidates the whole L1 of the core. -/
def State.acquire (s : State) (k : Nat) : State :=
  let a := s.act k
  if a.fw then s else s.updCore a.tile a.stg (fun c => { c with l1 := [] })

/-- An activation put into slot n of its core, no longer displaced. -/
def State.putInSlot (s : State) (tile : Nat) (stg : Bool) (n : BitVec 2) (k : Nat) : State :=
  let s := s.updCore tile stg (fun c => { c with slots := c.slots.set n.toNat (some k) (n.isLt) })
  s.updAct k (fun a => { a with place := .slot n, dispBy := none, status :=
    { a.status with slot := n, disp := false, wait := if a.wait = .none then 0 else a.status.wait } })

/-- The lowest free slot of a core. -/
def Core.freeSlot (c : Core) : Option (BitVec 2) :=
  if c.slots[0] = none then some 0 else if c.slots[1] = none then some 1
  else if c.slots[2] = none then some 2 else if c.slots[3] = none then some 3 else none

/-- R80, R219: a free slot goes to the activation displaced earliest, else to the one resumed earliest; urgent and
normal nodes start by events of their own. One resumed during a drain takes effect on the incoming tile (R331). -/
def State.refillOnce (s : State) (tile : Nat) (stg : Bool) : State :=
  let c := s.core tile stg
  match c.freeSlot, c.displaced, c.resumed.find? (fun k => (s.act k).place == .resumed) with
  | some n, k :: t, _ => (s.updCore tile stg (fun c => { c with displaced := t })).putInSlot tile stg n k
  | some n, [], some k => (s.updCore tile stg (fun c => { c with resumed := c.resumed.filter (· != k) })).putInSlot tile stg n k
  | _, _, _ => s

/-- R80, R219: every free slot that can be given is given. -/
def State.refill (s : State) (tile : Nat) (stg : Bool) : State :=
  (((s.refillOnce tile stg).refillOnce tile stg).refillOnce tile stg).refillOnce tile stg

/-- The slot of an activation freed, if it holds one; it leaves the lists of its core. -/
def State.leaveSlot (s : State) (k : Nat) : State :=
  let a := s.act k
  s.updCore a.tile a.stg (fun c => { c with
    slots := c.slots.map (fun x => if x = some k then none else x)
    displaced := c.displaced.filter (· != k)
    resumed := c.resumed.filter (· != k)
    vcache := c.vcache.filter (fun e => e.1 != k) })

/-- R62, R80, R183: the issuing activation blocks. An urgent one that displaced another gives its slot back. -/
def State.block (s : State) (k : Nat) (w : Waiting) (code wq : BitVec 3) : State :=
  let s := s.updAct k (fun a => { a with wait := w, status := { a.status with wait := code, wq := wq } })
  let a := s.act k
  if a.status.urg && (s.core a.tile a.stg).displaced.any (fun d => (s.act d).dispBy == some k) then
    let s := s.leaveSlot k
    (s.updAct k (fun a => { a with place := .blockedUrgent })).refill a.tile a.stg
  else s

/-- A wait of an activation ends: it is no longer blocked, its instruction completes as f says. -/
def State.unblock (s : State) (k : Nat) (f : Act → Act) : State :=
  s.updAct k (fun a => f { a with wait := .none, status := { a.status with wait := 0, wq := 0 } })

/-- R180: the rod is satisfied, COUNT ≥ sext(THR) as signed values. -/
def Rod.sat (r : Rod) : Bool := decide (r.thr.toInt ≤ r.count.toInt)

/-- R190: the code of the first source of a waitm that holds, with rod k taken to be r. -/
def State.waitmCode (s : State) (a : Act) (src : Word) (taken : Option (Nat × Rod)) : Option Nat :=
  let t := s.tile a.tile
  let rodAt (k : Nat) : Rod := match taken with
    | some (j, r) => if j = k then r else t.rod k
    | none => t.rod k
  let slot (i : Nat) : Bool :=
    src.getLsbD (8 * i + 7) && (rodAt (src.extractLsb' (8 * i) 7).toNat).sat
  let queue (q : Fin 8) : Bool := src.getLsbD (32 + q.val) && decide (0 < t.visible q)
  if slot 0 then some 0 else if slot 1 then some 1 else if slot 2 then some 2 else if slot 3 then some 3
  else if src.getLsbD 40 && s.lmRead a.dt ((a.ident[12]).toNat) 8 != 0 then some 4
  else ((List.finRange 8).find? queue).map (fun q => 8 + q.val)

/-- R190: every waitm of a tile whose inbox or a watched queue now holds ends. Completion through the inbox
acquires; through a queue it acquires nothing. -/
def State.wakeMulti (s : State) (tile : Nat) : State :=
  s.acts.foldl (fun s e => match e.2.wait with
    | .multi d src =>
      if e.2.tile != tile then s else
      match s.waitmCode e.2 src none with
      | some c =>
        let s := if c < 8 then s.acquire e.1 else s
        s.unblock e.1 (fun a => { a.setW d (BitVec.ofNat 64 c) with pc := a.pc + 4 })
      | none => s
    | _ => s) s

/-- R182, R183: one change of a rod. `mid` is the rod after the add, where waits are judged, and `new` the rod the
change leaves (they differ for a barr that steps BGEN). Every wait pending on the rod whose condition holds ends,
acquiring. -/
def State.changeRod (s : State) (dt k : Nat) (mid new : Rod) : State :=
  let t := s.tile dt
  let s := s.setTile dt { t with rods := tabSet t.rods k new, dirty := true }
  s.acts.foldl (fun s e =>
    if e.2.tile != dt then s else
    match e.2.wait with
    | .rod j => if j = k ∧ mid.sat = true then
        (s.acquire e.1).unblock e.1 (fun a => { a with pc := a.pc + 4 }) else s
    | .barrier j gen => if j = k ∧ new.bgen ≠ gen then
        (s.acquire e.1).unblock e.1 (fun a => { a with pc := a.pc + 4 }) else s
    | .multi d src =>
      if (List.range 4).any (fun i => src.getLsbD (8 * i + 7) && (src.extractLsb' (8 * i) 7).toNat == k) then
        match s.waitmCode e.2 src (some (k, mid)) with
        | some c => (s.acquire e.1).unblock e.1 (fun a => { a.setW d (BitVec.ofNat 64 c) with pc := a.pc + 4 })
        | none => s
      else s
    | _ => s) s

/-- R185: COUNT + x modulo 2^32, with OVF on signed overflow. -/
def Rod.add (r : Rod) (x : BitVec 32) : Rod :=
  { r with count := r.count + x, ovf := r.ovf || r.count.saddOverflow x }

/-- R185, R188: an add to rod k of a tile. -/
def State.addRod (s : State) (dt k : Nat) (x : BitVec 32) : State :=
  let r := ((s.tile dt).rod k).add x
  s.changeRod dt k r r

/-- R418: a device write to a line that the host may cache is preceded by a back-invalidate of that line. -/
def State.backInvalidate (s : State) (ps : List Put) : State :=
  if s.panels.all (fun e => e.2.hostLines.isEmpty) then s else
  let met (l : Nat) : Bool := ps.any (fun p => match p.1 with
    | .phys pa => decide (pa / 128 ≤ l) && decide (128 * l < pa + p.2.length)
    | .lm _ _ => false)
  { s with panels := s.panels.map (fun e => (e.1, { e.2 with hostLines := e.2.hostLines.filter (fun l => !met l) })) }

/-- R175, R418: a host line that an atomic is performed on under placement 0 is held by its bridge (R171), which holds 4,096. -/
def State.holdHostLine (s : State) (p pa : Nat) : State :=
  let x := s.panel p
  let l := pa / 128
  let bridge (l : Nat) : Nat := 128 * l / 2 ^ 32 % 4
  let mine := (x.bridgeLines.filter (fun y => y != l && bridge y == bridge l)) ++ [l]
  s.setPanel p { x with
    bridgeLines := x.bridgeLines.filter (fun y => bridge y != bridge l) ++ mine.drop (mine.length - 4096) }

/-- One step's writes performed at their homes, with every effect a performed write has (R158, R236, R153, R344, R418). -/
def State.perform (s : State) (key : Nat) (ps : List Put) : State :=
  let s := ps.foldl (fun s p => s.putBytes key p.1 p.2) (s.backInvalidate ps)
  let s := (((s.clearPoison ps).fireWatches ps).markMigration ps).touchLm ps
  ps.foldl (fun s p => match p.1 with | .lm dt _ => s.wakeMulti dt | .phys _ => s) s

/-- R153 step 4: a write of a graph engine or launch unit performed, or held while its page is frozen. -/
def State.performAt (s : State) (key pa : Nat) (bs : List Byte) : State :=
  if s.frozenAt pa then { s with held := s.held ++ [(key, pa, bs)] } else s.perform key [(.phys pa, bs)]

/-- One instruction's writes into the issuing context's own local memory, in order. -/
def State.putLocals (s : State) (ps : List (Nat × List Byte)) : State :=
  let a := s.here
  if a.fw then
    ps.foldl (fun s p =>
      if a.wp ≤ p.1 ∧ p.1 < a.wp + Config.wsSize then
        s.updHere (fun x => ((List.range p.2.length).zip p.2).foldl (fun x e => x.setWsByte (p.1 - a.wp + e.1) e.2) x)
      else { s with phys := memWriteBytes s.phys (fwBase s.fwHere + p.1) p.2 }) s
  else s.perform 0 (ps.map (fun p => (.lm a.tile p.1, p.2)))

/-- Bytes written into the issuing context's own local memory. -/
def State.putLocal (s : State) (off : Nat) (bs : List Byte) : State := s.putLocals [(off, bs)]


/-! ### Matrix claim (R285, R286) -/

/-- R285: the claim goes to an activation and the engine state is reset. -/
def State.grantClaim (s : State) (dt k : Nat) : State :=
  let t := s.tile dt
  s.setTile dt { t with claim := some k, accs := Vector.replicate 4 Acc.zero }

/-- R285, R286: the claim released; the earliest waiting macq is granted it and completes. -/
def State.dropClaim (s : State) (dt : Nat) : State :=
  let t := s.tile dt
  match t.waiters with
  | [] => s.setTile dt { t with claim := none }
  | k :: rest =>
    let s := s.setTile dt { t with waiters := rest }
    (s.grantClaim dt k).unblock k (fun a => { a with pc := a.pc + 4 })

/-! ### Graph records, exceptions and cancelled roots (R207 to R210) -/

/-- Bytes of a page of a size code (R138). -/
def pageBytes (size : Nat) : Nat := if size = 0 then 2 ^ 16 else if size = 1 then 2 ^ 21 else 2 ^ 30

/-- R138: the entry covers the address for the address-space id. -/
def Tlb.covers (e : Tlb) (asid : BitVec 12) (va : Nat) : Bool :=
  (e.asid == asid || e.glob) && va / pageBytes e.size == e.va / pageBytes e.size

/-- The physical address an entry gives a virtual address. -/
def Tlb.phys (e : Tlb) (va : Nat) : Nat := e.pa + va % pageBytes e.size

/-- R139: the owner's page tables, as firmware keeps them. -/
def State.walk (s : State) (asid : BitVec 12) (va : Nat) : Option Tlb := s.pages.find? (fun e => e.covers asid va)

/-- R419: a host bridge of the panel decodes the host physical address. -/
def State.hostDecodes (s : State) (p hpa : Nat) : Bool :=
  ((tabFind (s.panel p).hostRanges (hpa / 2 ^ 32 % 4)).getD []).any
    (fun r => decide (r.1 ≤ hpa) && decide (hpa < r.1 + r.2))

/-- R129, R374: the physical address lies in HBM of the domain or in host memory that a bridge decodes. -/
def State.backed (s : State) (p pa : Nat) : Bool :=
  if pa < 2 ^ 45 then
    let q := pa / 2 ^ 42
    let d := pa / 2 ^ 36 % 64
    s.together p q && decide (d < 40) && !(s.die (q * 64 + d)).excluded
  else if 2 ^ 51 ≤ pa ∧ pa < 2 ^ 52 then s.hostDecodes p (pa - 2 ^ 51)
  else false

/-- Doubleword i of a live graph's record, after the writes to it that are held. -/
def State.grec (s : State) (g : Graph) (i : Nat) : Nat :=
  leNat (s.heldBytes g.key.toNat (g.grec + 8 * i) 8)

/-- R207: doubleword i of a live graph's record written. -/
def State.setGrec (s : State) (g : Graph) (i : Nat) (x : Nat) : State :=
  s.performAt g.key.toNat (g.grec + 8 * i) (leBytes 8 x)

/-- An entry of doublewords written at an owner's virtual address, if it is still mapped and writable (R202). -/
def State.writeOwned (s : State) (g : Graph) (va : Nat) (ws : List Nat) : State :=
  match s.walk g.asid va with
  | some e => if e.w && s.backed g.panel (e.phys va) then
      s.performAt e.key.toNat (e.phys va) (ws.map (leBytes 8)).flatten else s
  | none => s

/-- R209: an exception entry posted; later ones than EXQCAP are counted only. -/
def State.postException (s : State) (gid reason cause : Nat) (target detail beads : Nat) : State :=
  match tabFind s.graphs gid with
  | none => s
  | some g =>
    let g3 := s.grec g 3
    let n := g3 / 2 ^ 32
    let s := if n < g.exqcap then
      s.writeOwned g (g.exq + 32 * n) [reason + 256 * cause, target, detail, beads] else s
    s.setGrec g 3 (g3 % 2 ^ 32 + (n + 1) % 2 ^ 32 * 2 ^ 32)

/-- R210: a cancelled root recorded. -/
def State.postRoot (s : State) (gid : Nat) (nref : Nat) (cause attempts value pc : Nat) : State :=
  match tabFind s.graphs gid with
  | none => s
  | some g =>
    let g3 := s.grec g 3
    let n := g3 % 2 ^ 32
    let s := if n < g.rootcap then
      s.writeOwned g (g.roots + 32 * n) [nref, cause + 256 * attempts, value, pc] else s
    s.setGrec g 3 (g3 / 2 ^ 32 * 2 ^ 32 + (n + 1) % 2 ^ 32)

/-- R217: G4.DROPCAN raised. -/
def State.dropCancel (s : State) (gid : Nat) : State :=
  match tabFind s.graphs gid with
  | none => s
  | some g => s.setGrec g 4 ((s.grec g 4 + 1) % 2 ^ 32)

/-! ### Node states, ready lists, tokens (R215 to R226) -/

/-- R215: state codes. -/
def stEmpty : BitVec 8 := 0
/-- R215. -/
def stArmed : BitVec 8 := 1
/-- R215. -/
def stReady : BitVec 8 := 2
/-- R215. -/
def stRunning : BitVec 8 := 3
/-- R215. -/
def stParked : BitVec 8 := 4
/-- R215. -/
def stCommitting : BitVec 8 := 5
/-- R215. -/
def stDone : BitVec 8 := 6
/-- R215. -/
def stCancelled : BitVec 8 := 7
/-- R215. -/
def stFaulted : BitVec 8 := 8

/-- R212: the node reference of a slot's binding. -/
def nodeRef (dt index : Nat) (n : Node) : Word :=
  (0 : BitVec 5) ++ n.gid ++ n.gen ++ BitVec.ofNat 15 dt ++ BitVec.ofNat 12 index

/-- R219: the node placed at the end of one core's ready lists. -/
def Core.enlist (c : Core) (i : Nat) (n : Node) : Core :=
  if n.urg then { c with urgent := c.urgent ++ [i] }
  else if c.ready.any (fun l => l.gid == n.gid.toNat) then
    { c with ready := c.ready.map (fun l => if l.gid == n.gid.toNat then { l with nodes := l.nodes ++ [i] } else l) }
  else { c with ready := c.ready ++ [⟨n.gid.toNat, 0, [i]⟩] }

/-- R219, R220: the node taken off one core's ready lists; an empty list is dropped with its deficit, and the turn
passes on. -/
def Core.delist (c : Core) (i : Nat) : Core :=
  let lists := c.ready.map (fun l => { l with nodes := l.nodes.filter (· != i) })
  let kept := lists.filter (fun l => !l.nodes.isEmpty)
  let turn := match c.turn with
    | none => none
    | some g =>
      if kept.any (fun l => l.gid == g) then some g
      else
        let after := (lists.dropWhile (fun l => l.gid != g)).drop 1 ++ lists.takeWhile (fun l => l.gid != g)
        (after.find? (fun l => !l.nodes.isEmpty)).map (·.gid)
  { c with urgent := c.urgent.filter (· != i), ready := kept, turn := turn, due := c.due || turn != c.turn }

/-- R219: a node placed on the ready lists of the cores that may run it. -/
def State.enlist (s : State) (dt i : Nat) : State :=
  let n := s.node dt i
  let t := s.tile dt
  let t := if n.role = 0 ∨ n.role = 2 then { t with comp := t.comp.enlist i n } else t
  s.setTile dt (if n.role = 1 ∨ n.role = 2 then { t with stag := t.stag.enlist i n } else t)

/-- R219: a node taken off the ready lists. -/
def State.delist (s : State) (dt i : Nat) : State :=
  let t := s.tile dt
  s.setTile dt { t with comp := t.comp.delist i, stag := t.stag.delist i }

/-- R216: Fire sets the node READY and places it on its ready lists; every Nth firing of a screenable node is
sampled (R351). -/
def State.fire (s : State) (dt i : Nat) : State :=
  let n := s.node dt i
  let s := (s.setNode dt i { n with state := stReady }).enlist dt i
  if n.screen then
    let t := s.tile dt
    let period := 2 ^ (min t.scrlog2.toNat 20)
    let rest := t.sampled.filter (· != i)
    s.setTile dt { t with
      firings := t.firings + 1
      sampled := if (t.firings + 1) % period = 0 then i :: rest else rest }
  else s

/-- R217: Hold(b) adds to the beads held, or returns b when the sum would pass 2^33 − 1. -/
def State.hold (s : State) (dt i b : Nat) : State :=
  let n := s.node dt i
  if n.beads + b > 2 ^ 33 - 1 then s.returnBeads dt n.gid.toNat b
  else s.setNode dt i { n with beads := n.beads + b }

/-- R225: the split of H beads over S items: whether it borrows, what it returns, and the items' shares. -/
def splitBeads (h n : Nat) : Bool × Nat × List Nat :=
  if n = 0 then (false, h, [])
  else
    let borrow := decide (h < n)
    let h := if borrow then h + 2 ^ 32 else h
    let back := h - n * 2 ^ 32
    let h := h - back
    let share := h / n
    (borrow, back, (List.range n).map (fun i => if i + 1 = n then share + (h - n * share) else share))

/-- R214: successor entry e of a node. -/
def State.succEntry (s : State) (dt : Nat) (n : Node) (e : Nat) : Word :=
  BitVec.ofNat 64 (s.lmRead dt (n.succ.toNat + 8 * e) 8)

/-- R217: an item sent along a successor entry with its beads; an entry with its reserved bit set or with an
unconfigured DT is a stale token, its beads returned. -/
def State.sendItem (s : State) (dt i : Nat) (entry : Word) (item : Item) (origin beads : Nat) : State :=
  let n := s.node dt i
  let sender := nodeRef dt i n
  let dst := (entry.extractLsb' 12 15).toNat
  if entry.getLsbD 63 || !s.names (dt / 4096) dst then
    (s.postException n.gid.toNat 1 0 (entry.toNat % 2 ^ 59) sender.toNat beads).returnBeads dt n.gid.toNat beads
  else
    s.send dt dst (.token (BitVec.ofNat 64 (entry.toNat % 2 ^ 59)) beads item (entry.getLsbD 62) origin sender)
      true none

/-- R226: Cancel(n, b, origin) as one step: hold, set CANCELLED, split the held beads over every successor entry
and send a cancel token of the same origin along each. Origins: 0 FAULT, 1 PRUNE, 2 HOST. -/
def State.cancel (s : State) (dt i b origin : Nat) : State :=
  let s := (s.hold dt i b).delist dt i
  let n := s.node dt i
  let split := splitBeads n.beads n.nsucc.toNat
  let s := match tabFind s.graphs n.gid.toNat with
    | some g => if split.1 then s.setGrec g 0 ((s.grec g 0 + 2 ^ 32) % 2 ^ 64) else s
    | none => s
  let s := s.setNode dt i { n with state := stCancelled, beads := 0 }
  let s := s.returnBeads dt n.gid.toNat split.2.1
  (split.2.2.zip (List.range n.nsucc.toNat)).foldl (fun s x =>
    s.sendItem dt i (s.succEntry dt n x.2) .cancel origin x.1) s

/-! ### Halt groups (R394, R396) -/

/-- R394, R396: a halt group of a panel triggered or released: its members are halted, or issue again. -/
def State.setHalt (s : State) (p g : Nat) (on : Bool) : State :=
  let q := s.panel p
  let s := s.setPanel p { q with triggered := if on then (g :: q.triggered.filter (· != g)) else q.triggered.filter (· != g) }
  let hit (h : HaltField) (old : Bool) : Bool := if h.member && h.group.toNat == g then on else old
  { s with
    tiles := s.tiles.map (fun e => if e.1 / 4096 = p ∧ e.1 < Config.replicaBase then (e.1, { e.2 with
      comp := { e.2.comp with halted := hit e.2.comp.halt e.2.comp.halted }
      stag := { e.2.stag with halted := hit e.2.stag.halt e.2.stag.halted } }) else e)
    fws := s.fws.map (fun e => if e.1 / 256 = p then (e.1, { e.2 with
      halted := hit e.2.halt e.2.halted
      idle := e.2.idle && !(e.2.halt.member && e.2.halt.group.toNat == g && !on) }) else e) }

/-! ### Taking an exception (R25, R226, R375, R380) -/

/-- What a faulting instruction reports: the cause doubleword and the fault value (R102); a POISON with the poisoned bytes
it read (R365). -/
structure Trap where
  cause : CauseWord
  value : Word
  bytes : List PoisonAt
deriving DecidableEq, Repr

/-- An instruction's checks or effect: a fault, or a result. -/
abbrev Res (α : Type) := Except Trap α

/-- A fault of a cause code with a fault value. -/
def trapOf (code : BitVec 8) (value : Word) : Trap := ⟨{ CauseWord.zero with code := code }, value, []⟩

/-- R379: cause codes. -/
def cILLEGAL : BitVec 8 := 0x01
/-- R379. -/
def cROLE : BitVec 8 := 0x02
/-- R379. -/
def cPRIV : BitVec 8 := 0x03
/-- R379. -/
def cALIGN : BitVec 8 := 0x04
/-- R379. -/
def cTMISS : BitVec 8 := 0x05
/-- R379. -/
def cNOTPRESENT : BitVec 8 := 0x06
/-- R379. -/
def cPERM : BitVec 8 := 0x07
/-- R379. -/
def cNONCANON : BitVec 8 := 0x08
/-- R379. -/
def cUNBACKED : BitVec 8 := 0x09
/-- R379. -/
def cSYNCSTORE : BitVec 8 := 0x0A
/-- R379. -/
def cWSREMOTE : BitVec 8 := 0x0B
/-- R379. -/
def cPOISON : BitVec 8 := 0x0C
/-- R379. -/
def cMATRIX : BitVec 8 := 0x0D
/-- R379. -/
def cBUDGET : BitVec 8 := 0x0E
/-- R379. -/
def cLANDING : BitVec 8 := 0x0F
/-- R379. -/
def cBOUNDS : BitVec 8 := 0x10
/-- R379. -/
def cCALLDEPTH : BitVec 8 := 0x11
/-- R379. -/
def cRETMISMATCH : BitVec 8 := 0x12
/-- R379. -/
def cRECIPE : BitVec 8 := 0x13
/-- R379. -/
def cREPLAY : BitVec 8 := 0x14
/-- R379. -/
def cLEASE : BitVec 8 := 0x15
/-- R379. -/
def cQUEUE : BitVec 8 := 0x16
/-- R379. -/
def cABORT : BitVec 8 := 0x17
/-- R379. -/
def cBREAK : BitVec 8 := 0x18
/-- R379. -/
def cSVC : BitVec 8 := 0x19
/-- R379. -/
def cWINDOW : BitVec 8 := 0x1A
/-- R379. -/
def cFPINVALID : BitVec 8 := 0x1B
/-- R379. -/
def cNODEREF : BitVec 8 := 0x1C

/-- R25, R379: the parking causes. -/
def parks (code : BitVec 8) : Bool := code = 0x05 || code = 0x06 || code = 0x18 || code = 0x19

/-- An owner key that names no activation: the requests of an activation that is gone. -/
def orphan : Nat := 2 ^ 28

/-- R380: a trap message sent to a firmware core of the PT's die: core 1 or 2 by VA bit 16 for a translation miss,
else the die service core. -/
def State.postTrap (s : State) (k : Nat) (kind : BitVec 8) : State :=
  let a := s.act k
  let code := a.cause.code
  let t0 : Word := (0 : BitVec 18) ++ a.status.slot ++ BitVec.ofBool a.stg ++ BitVec.ofNat 15 a.dt ++ a.asid ++ kind ++ code
  let n := s.node a.dt a.index
  let t1 : Word := (0 : BitVec 1) ++ n.attempt.setWidth 4 ++ a.nref.setWidth 59
  let die := s.dieOf a.tile
  let core := if code = cTMISS ∨ code = cNOTPRESENT then (if a.value.getLsbD 16 then 2 else 1) else 0
  s.send a.dt (die / 64 * 256 + die % 64 * 4 + core) (.trap t0 t1 a.value a.pc) false none

/-- R115: the tagged registers of an activation are dropped, as wherever its registers are written back. -/
def State.dropTags (s : State) (k : Nat) : State :=
  let a := s.act k
  s.updCore a.tile a.stg (fun c => { c with
    tags := c.tags.map (fun t => if t.owner = k then { t with dropped := true } else t) })

/-- R111, R115: the bytes of an activation's dropped registers read 0xFF until its workspace is released, so the
registers hold them once their tags go. -/
def State.fillDropped (s : State) (k : Nat) : State :=
  ((s.tagsOf k (s.act k)).filter (·.dropped)).foldl (fun s t => s.updAct k (fun a =>
    if t.reg < 32 then a.setW (BitVec.ofNat 5 t.reg) (BitVec.allOnes 64)
    else a.setV (BitVec.ofNat 4 (t.reg - 32)) (BitVec.allOnes 2048))) s

/-- R111: the recipe and tag entries of an activation freed. -/
def State.freeRecipes (s : State) (k : Nat) : State :=
  let s := s.fillDropped k
  let a := s.act k
  s.updCore a.tile a.stg (fun c => { c with
    recipes := c.recipes.filter (fun r => r.owner != k), tags := c.tags.filter (fun t => t.owner != k) })

/-- R149, R150: every lease of an activation ends: LIVE is cleared in its table. -/
def State.endLeases (s : State) (k : Nat) : State :=
  let a := s.act k
  let t := s.tile a.tile
  let s := s.setTile a.tile { t with lm := (List.range 8).foldl (fun m i =>
    let b := memRead m (a.wp + Config.wsSize + 16 * i + 15)
    memWrite m (a.wp + Config.wsSize + 16 * i + 15) (b &&& 0x7F)) t.lm }
  s.updAct k (fun a => { a with leases := [] })

/-- Ranges without the bytes of another: n from b on. -/
def cutRanges (l : List (Nat × Nat)) (b n : Nat) : List (Nat × Nat) :=
  l.flatMap (fun r =>
    if r.1 + r.2 ≤ b ∨ b + n ≤ r.1 then [r]
    else (if r.1 < b then [(r.1, b - r.1)] else []) ++ (if b + n < r.1 + r.2 then [(b + n, r.1 + r.2 - (b + n))] else []))

/-- R98, R223: the area of an activation freed; its bytes keep the registers' last values, and its outstanding
requests no longer have an activation to answer to. -/
def State.freeAct (s : State) (k : Nat) : State :=
  let a := s.act k
  let t := s.tile a.tile
  let lm := (List.range 576).foldl (fun m i =>
    let x := a.wsWord [] i
    if x = 0 then m else memWriteBytes m (a.wp + 8 * i) (leBytes 8 x.toNat)) t.lm
  let s := s.setTile a.tile { t with lm := lm, vacant := t.vacant ++ [(a.wp, a.area)] }
  { s with
    acts := tabErase s.acts k
    reqs := s.reqs.map (fun r => if r.owner = k then { r with owner := orphan } else r) }

/-- The open commit, block and claim of an activation that stops for good: its claim goes on (R285). -/
def State.releaseClaim (s : State) (k : Nat) : State :=
  let a := s.act k
  let t := s.tile a.tile
  let s := s.setTile a.tile { t with waiters := t.waiters.filter (· != k) }
  if t.claim = some k then s.dropClaim a.tile else s

/-- R285, R353: a screen abandoned: the replica ends with no report, its claim goes on, and the original no longer has one. -/
def State.abandon (s : State) (k : Nat) : State :=
  let a := s.act k
  let s := match a.twin with
    | some o => s.updAct o (fun b => { b with twin := none })
    | none => s
  let s := ((s.releaseClaim k).leaveSlot k).freeRecipes k
  let s : State := { s with
    acts := tabErase s.acts k
    reqs := s.reqs.map (fun r => if r.owner = k then { r with owner := orphan } else r) }
  s.refill a.tile a.stg

/-- R365: a sourced region of a tile holds a poisoned byte: of its LM, or of its tile store, whose regions count rows. -/
def Region.holds (r : Region) (dt : Nat) : PoisonAt → Bool
  | .lm d off => r.isLm && d == dt && decide (r.base ≤ off) && decide (off < r.base + r.len)
  | .store d off => !r.isLm && d == dt && decide (r.base ≤ off / 128) && decide (off / 128 < r.base + r.len)
  | .global _ => false

/-- R345, R352: the bytes of a region's source, each with its poison, unless a source page is not present or is UNBACKED, for a
tile or the tile of a Replica PT. -/
def State.sourceBytes (s : State) (dt : Nat) (r : Region) : Option (List (Byte × Bool)) :=
  (List.range (if r.isLm then r.len else 128 * r.len)).mapM (fun i =>
    match s.walk r.asid (r.src + i) with
    | some e =>
      let pa := e.phys (r.src + i)
      if s.backed (agentPanel dt) pa then some ((s.heldBytes e.key.toNat pa 1).headD 0, s.poisoned (.phys pa) 0) else none
    | none => none)

/-- R365: for POISON, the poisoned bytes the node read all lie in sourced regions whose refetch succeeds. -/
def State.poisonSourced (s : State) (a : Act) : Bool :=
  a.poisons.all (fun x => (s.tile a.dt).sourced.any (fun r =>
    r.holds a.dt x && (match s.sourceBytes a.dt r with | some bs => bs.all (fun b => !b.2) | none => false)))

/-- R226, R365: the node may be retried. -/
def State.retryAllowed (s : State) (a : Act) : Bool :=
  let n := s.node a.dt a.index
  decide (n.attempt.toNat + 1 ≤ n.retry.toNat) && !a.status.eff &&
    (a.cause.code != cPOISON || s.poisonSourced a)

/-- The units of n bytes of some fetched bytes that hold a poisoned one. -/
def poisonedUnits (n : Nat) (bs : List (Byte × Bool)) : List Nat :=
  ((((List.range bs.length).zip bs).filter (fun e => e.2.2)).map (fun e => e.1 / n)).eraseDups

/-- R345: a sourced region of a tile refetched from its source's current bytes; a poisoned byte arrives poisoned. -/
def State.refetch (s : State) (dt : Nat) (r : Region) : Option State :=
  (s.sourceBytes dt r).map (fun bs =>
    let t := s.tile dt
    let bytes := bs.map (·.1)
    if r.isLm then s.setTile dt { t with
      lm := memWriteBytes t.lm r.base bytes
      lmPoison := t.lmPoison.filter (fun w => decide (8 * w < r.base) || decide (r.base + r.len ≤ 8 * w)) ++
        (poisonedUnits 8 bs).map (fun u => r.base / 8 + u) }
    else s.setTile dt { t with
      store := (List.range r.len).foldl (fun m i =>
        tabSet m (r.base + i) (BitVec.ofNat 1024 (leNat ((bytes.drop (128 * i)).take 128)))) t.store
      tsPoison := t.tsPoison.filter (fun w => decide (w / 64 < r.base) || decide (r.base + r.len ≤ w / 64)) ++
        (poisonedUnits 2 bs).map (fun u => 64 * r.base + u) })

/-- R226, R210: a FAULTED node cancelled as a cancelled root. -/
def State.cancelRoot (s : State) (dt i : Nat) (cause : BitVec 8) (value pc : Word) : State :=
  let n := s.node dt i
  (s.postRoot n.gid.toNat (nodeRef dt i n).toNat cause.toNat ((n.attempt.toNat + 1) % 256) value.toNat pc.toNat).cancel
    dt i 0 0

/-- R326: a copy that the current attempt of a node has issued has not ended. -/
def State.copying (s : State) (dt i : Nat) : Bool :=
  s.copies.any (fun c => c.2.owner == dt * 4096 + i && c.2.nref == nodeRef dt i (s.node dt i))

/-- R226, R326: the graph engine decides the fate of a FAULTED node: left FAULTED for its retry (the NODE_RETRY row), or
cancelled, as a cancelled root unless a host CANCEL refuses a retry that is otherwise allowed. While copies of its attempt have
not ended the node is held, its fate noted. -/
def State.decideFate (s : State) (dt i : Nat) (retry : Bool) (cause : BitVec 8) (value pc : Word) : State :=
  let n := s.node dt i
  let cancelled := match tabFind s.graphs n.gid.toNat with | some g => g.cancelled | none => false
  let t := s.tile dt
  if retry then (if cancelled && !s.copying dt i then s.cancel dt i 0 2 else s)
  else if s.copying dt i then s.setTile dt { t with fates := t.fates.filter (fun f => f.1 != i) ++ [(i, cause, value, pc)] }
  else s.cancelRoot dt i cause value pc

/-- R25, R226: the aborting fault of a tile core's activation, its cause, value and PC already in its header: the
node becomes FAULTED, deferred effects, leases, recipes, claim and slot go, the trap message is sent, and the node
is retried or cancelled. A group of a member core with FLTTRIG is triggered (R394). -/
def State.abort (s : State) (k : Nat) : State :=
  let a := s.act k
  let c := s.core a.tile a.stg
  let s := if c.halt.member && c.halt.flt then s.setHalt (a.dt / 4096) c.halt.group.toNat true else s
  let retry := s.retryAllowed a
  let s := if retry && a.cause.code == cPOISON then
    (s.tile a.dt).sourced.foldl (fun s r =>
      if a.poisons.any (r.holds a.dt)
      then (s.refetch a.dt r).getD s else s) s else s
  let s := match a.twin with | some t => s.abandon t | none => s
  let s := s.postTrap k 0
  let s := (((s.releaseClaim k).endLeases k).freeRecipes k).leaveSlot k
  let s := s.freeAct k
  let s := s.setNode a.dt a.index { s.node a.dt a.index with state := stFaulted }
  let s := s.decideFate a.dt a.index retry a.cause.code a.value a.pc
  s.refill a.tile a.stg

/-- R25, R115, R137, R385: the activation parks: its tagged registers are dropped, its slot is freed, its node is
PARKED and the trap message is sent. -/
def State.park (s : State) (k : Nat) : State :=
  let a := s.act k
  let s := s.postTrap k (if a.parkTch.isSome then 2 else 1)
  let s := (s.dropTags k).leaveSlot k
  let s := s.updAct k (fun a => { a with place := .parked, wait := .none, status := { a.status with wait := 6, wq := 0 } })
  let s := s.setNode a.dt a.index { s.node a.dt a.index with state := stParked }
  s.refill a.tile a.stg

/-- R375, R394: an aborting fault of a firmware core, or a `brk`, stops it and posts a kind-0 trap message to the management
core of I/O die 0; FLTTRIG triggers its group on an aborting fault. -/
def State.stopFw (s : State) (k : Nat) : State :=
  let fw := k - Config.fwKey
  let a := s.act k
  let s := s.setFw fw { s.fwCore fw with stopped := true }
  let s := s.updAct k (fun a => { a with place := .stopped })
  let h := (s.fwCore fw).halt
  let s := if h.member && h.flt && !parks a.cause.code then s.setHalt (fw / 256) h.group.toNat true else s
  s.send 0 (fw / 256 * 256 + 160) (.trap (BitVec.ofNat 64 a.cause.code.toNat) 0 a.value a.pc) false none

/-- Taking an exception: the cause and the fault value go to the header, whose PC names the faulting instruction
(R25), and the context stops as its class and core say: a firmware core stops (R375), a replica's screen is
abandoned (R353), an activation parks or aborts (R379). -/
def State.takeTrap (s : State) (k : Nat) (t : Trap) : State :=
  let s := s.updAct k (fun a => { a with
    cause := t.cause
    value := t.value
    poisons := t.bytes ++ a.poisons })
  let a := s.act k
  if a.fw then s.stopFw k
  else if a.replica then s.abandon k
  else if parks t.cause.code then s.park k
  else s.abort k

/-- R384, R219: the return from a park: the activation named by a key continues at its header PC with its
workspace as it stands, takes the next free slot, and its node is RUNNING; during a drain it is as one suspended, which takes its
slot on the incoming tile (R331). -/
def State.resume (s : State) (k : Nat) : State :=
  let a := s.act k
  let s := s.updAct k (fun a => { a with
    place := if (s.tile a.tile).draining then .suspended else .resumed
    parkTch := none
    preread := none
    status := { a.status with wait := 0 } })
  let s := s.setNode a.dt a.index { s.node a.dt a.index with state := stRunning }
  let s := s.updCore a.tile a.stg (fun c => { c with resumed := c.resumed ++ [k] })
  s.refill a.tile a.stg

/-- A result of an instruction's checks and effect: the next state, the fault taken as an exception. -/
def State.finish (s : State) (r : Res State) : State :=
  match r with
  | .ok t => t
  | .error t => s.takeTrap s.cur t

/-- R108, R198: an instruction that waited without having issued is tried again: its wait is over while it issues. -/
def State.retrying (s : State) (w : Waiting) : State :=
  match w with
  | .queue _ => s.unblock s.cur id
  | .beamArrive _ => s.unblock s.cur id
  | _ => s

/-- The meaning of an instruction word: it needs a context to issue from; what it faults with is taken. -/
def issue (s : State) (f : State → Res State) : Out State :=
  match s.act? s.cur with
  | none => .fault .noContext
  | some a => .next ((s.retrying a.wait).finish (f (s.retrying a.wait)))

/-- The PC of the issuing context moved past an instruction of n bytes. -/
def State.advance (s : State) (n : Word) : State := s.updHere (fun a => { a with pc := a.pc + n })

/-- The activation no longer goes on with its next instruction: it parked, stopped or waits. -/
def Act.halting (a : Act) : Bool :=
  a.wait != .none || a.place == .parked || a.place == .stopped

/-- An instruction of n bytes done: the PC moves past it, unless it waits or took a fault. -/
def State.done (s : State) (n : Word) : State :=
  match s.act? s.cur with
  | none => s
  | some a => if a.halting then s else s.advance n

end Sys2Proof.Machine
end

