-- ==== Sys2Proof/Machine/Access.lean ====
section
/-! DEFINITION. The checks of an access in its space, in their order (R126 to R132, R137, R138, R144, R174), the
translation path, fetching an instruction's bytes (R29, R30), and outstanding requests (R131, R136). -/

namespace Sys2Proof.Machine

/-- What an access does, for the checks and permissions of R126, R128 and R138. -/
inductive Kind where
  | load
  | store
  | atomic
  | multi
deriving DecidableEq, Repr

/-- The space of an access: own LM, tile window, global. -/
inductive Space where
  | l
  | t
  | g
deriving DecidableEq, Repr

/-- An access whose checks passed: where it goes, with the key id and atomic placement of its translation, and
the replica homes of a replicated page. -/
structure Target where
  home  : Home
  key   : BitVec 8
  place : BitVec 2
  host  : Bool
  homes : List Nat
deriving DecidableEq, Repr

/-- The kind writes. -/
def Kind.writes (k : Kind) : Bool := k != .load

/-- A check that faults when it does not hold. -/
def require (b : Bool) (code : BitVec 8) (value : Word) : Res Unit :=
  if b then .ok () else .error (trapOf code value)

/-- R126: the fault of a byte of the LM regions for node code. -/
def regionOk (off : Nat) (write : Bool) : Bool :=
  if off < Config.nodeTableEnd then !write
  else if off < Config.mirrorEnd then false
  else if off < Config.generalBase then !write
  else true

/-- R126: the lowest byte of an access that its region refuses. -/
def regionFault (off n : Nat) (write : Bool) : Option Nat :=
  (List.range n).find? (fun i => !regionOk (off + i) write)

/-- R373: a firmware write is refused: the workspace of a RUNNING activation, or the bytes of a register of a parked
activation that is tagged or that a live recipe of it reads. `reads` says whether a recipe reads a register. -/
def State.fwRefused (s : State) (reads : List (BitVec 32) → Nat → Bool) (dt off n : Nat) : Bool :=
  match s.wsAt dt off with
  | none => false
  | some (k, a) =>
    if a.place = .parked then
      let c := s.core a.tile a.stg
      (List.range n).any (fun i => match regAt (off + i - a.wp) with
        | some r => c.tags.any (fun t => t.owner == k && (t.reg == r ||
            c.recipes.any (fun q => q.owner == k && q.num == t.num && reads q.words r)))
        | none => false)
    else (s.node a.dt a.index).state == stRunning

/-- R127, R126, R66, R100, R150, R373: the checks of a `.l` access after its alignment. -/
def checkLocal (s : State) (kind : Kind) (ea : Word) (n : Nat) : Res Target := do
  let a := s.here
  let off := ea.toNat
  if a.fw then
    require (decide (off + n ≤ Config.fwSize)) cBOUNDS ea
    return ⟨.phys (fwBase s.fwHere + off), 0, 0, false, []⟩
  else
    require (decide (off + n ≤ Config.lmSize)) cBOUNDS ea
    match regionFault off n kind.writes with
    | some _ => .error (trapOf cPERM ea)
    | none => pure ()
    if kind.writes then
      if s.leaseTableAt a.tile off then .error (trapOf cPERM ea)
      else match s.wsAt a.tile off with
        | none => pure ()
        | some (k, b) =>
          let o := off - b.wp
          if 0x1180 ≤ o ∧ o < 0x11F8 then .error (trapOf cPERM ea)
          else if k ≠ s.cur then .error (trapOf cWSREMOTE ea)
          else if 0x1100 ≤ o ∧ o < 0x1108 then .error (trapOf cPERM ea)
          else pure ()
    let own := decide (a.wp ≤ off) && decide (off < a.wp + Config.wsSize)
    return ⟨.lm (if a.replica && !own then a.dt else a.tile) off, 0, 0, false, []⟩

/-- R128, R390: the checks of a tile-window access after its alignment. -/
def checkWindow (s : State) (kind : Kind) (x : Word) (n : Nat) : Res Target := do
  let a := s.here
  let dt := (x.extractLsb' 22 15).toNat
  let off := (x.setWidth 22).toNat
  require (decide (x.toNat < 2 ^ 37)) cWINDOW x
  require (s.names s.panelHere dt) cWINDOW x
  if a.fw then
    if off + n ≤ Config.syncEnd then return ⟨.lm dt off, 0, 0, false, []⟩
    else
      require (decide (0x201000 ≤ off) && decide (off + n ≤ 0x201800)) cWINDOW x
      require (decide (n = 8)) cALIGN x
      return ⟨.lm dt off, 0, 0, false, []⟩
  else
    require (decide (off + n ≤ Config.syncEnd)) cWINDOW x
    require (!(kind.writes && decide (Config.syncBase < off + n))) cSYNCSTORE x
    match if off < Config.syncBase then regionFault off n kind.writes else none with
    | some _ => .error (trapOf cPERM x)
    | none => pure ()
    return ⟨.lm dt off, 0, 0, false, []⟩

/-- R137: the entry of the L1 TLB of the issuing core that translates an address, else of the die translation
cache. -/
def State.lookup (s : State) (a : Act) (va : Nat) : Option Tlb :=
  match (s.core a.tile a.stg).tlb.find? (fun e => e.covers a.asid va) with
  | some e => some e
  | none => (s.die (s.dieOf a.tile)).tlb.find? (fun e => e.covers a.asid va)

/-- R137: the set of the L1 TLB an entry lies in. -/
def Tlb.set (e : Tlb) : Nat :=
  if e.size = 0 then e.va / 2 ^ 16 % 64 else if e.size = 1 then e.va / 2 ^ 21 % 64 else e.va / 2 ^ 30 % 64

/-- R388: the entry replaces a matching one: the same VA and SIZE, and the same ASID or either global. -/
def Tlb.same (e f : Tlb) : Bool :=
  e.va == f.va && e.size == f.size && (e.asid == f.asid || e.glob || f.glob)

/-- R388: an entry installed in a cache of at most n entries, the newest first; which entry a full cache gives up
is the device's choice, here the oldest (log 8). -/
def installTlb (l : List Tlb) (e : Tlb) (n : Nat) : List Tlb := (e :: l.filter (fun f => !e.same f)).take n

/-- R137: an entry installed in an L1 TLB of 64 sets of 8. -/
def installL1 (l : List Tlb) (e : Tlb) : List Tlb :=
  let rest := l.filter (fun f => !e.same f)
  if (rest.filter (fun f => f.set == e.set)).length < 8 then e :: rest
  else
    let last := (rest.filter (fun f => f.set == e.set)).getLast?
    e :: rest.filter (fun f => some f != last)

/-- R377: performance counter n of a core raised. -/
def Core.count (c : Core) (n : Fin 8) (x : Nat) : Core := { c with perf := c.perf.set n (c.perf[n] + BitVec.ofNat 64 x) }

/-- R137, R377: the L1 TLB of the issuing core filled from the die translation cache for an address, a miss counted. -/
def State.touchTlb (s : State) (va : Nat) : State :=
  let a := s.here
  if a.fw then s else
  match (s.core a.tile a.stg).tlb.find? (fun e => e.covers a.asid va), s.lookup a va with
  | none, some e => s.updCore a.tile a.stg (fun c => ({ c with tlb := installL1 c.tlb e }).count 3 1)
  | _, _ => s

/-- R140: mesh distance of two dies of the grid of R9. -/
def dieDistance (d e : Nat) : Nat :=
  (max (d % 8) (e % 8) - min (d % 8) (e % 8)) + (max (d / 8) (e / 8) - min (d / 8) (e / 8))

/-- R140: the nearest of a list of replica dies, ties to the lower die number. -/
def nearest (d : Nat) (l : List Nat) : Nat :=
  l.foldl (fun b e => if dieDistance d e < dieDistance d b ∨ (dieDistance d e = dieDistance d b ∧ e < b) then e else b)
    (l.headD 0)

/-- R387: a physical address with its die field replaced. -/
def atDie (pa d : Nat) : Nat := pa - pa / 2 ^ 36 % 64 * 2 ^ 36 + d * 2 ^ 36

/-- R153, R378: an access translated to a page that has switched is forwarded to its new home. -/
def State.forwarded (s : State) (pa : Nat) : Nat :=
  match s.moved.find? (fun m => decide (m.old ≤ pa) && decide (pa < m.old + m.size)) with
  | some m => m.new + (pa - m.old)
  | none => pa

/-- R138, R140: the home of an address under an entry, seen from a die. -/
def State.homeOf (s : State) (e : Tlb) (die va : Nat) : Nat :=
  let pa := e.phys va
  s.forwarded (if e.home = 2 then atDie pa (nearest (die % 64) e.replicas) else pa)

/-- R129, R137, R138, R373: the checks of a global access of n bytes that lie in one page, after NONCANON and
alignment. -/
def checkGlobal (s : State) (kind : Kind) (ea : Word) : Res Target := do
  let a := s.here
  if a.fw then return ⟨.phys ea.toNat, (s.fwCore s.fwHere).key, 0, decide (2 ^ 51 ≤ ea.toNat), []⟩
  else
    match s.lookup a ea.toNat with
    | none => .error (trapOf cTMISS ea)
    | some e =>
      require (match kind with | .load => e.r | .store => e.w | _ => e.r && e.w) cPERM ea
      return ⟨.phys (s.homeOf e (s.dieOf a.tile) ea.toNat), e.key, e.place, e.home == 1,
        if e.home = 2 then e.replicas.map (atDie (e.phys ea.toNat)) else []⟩

/-- R129: the lowest byte address of an access that has any of bits 63..56 (for firmware, 63..52) set. -/
def nonCanonical (s : State) (ea : Word) (n : Nat) : Option Word :=
  let top := if s.here.fw then 2 ^ 52 else 2 ^ 56
  if ea.toNat ≥ top then some ea
  else if ea.toNat + n > top then some (BitVec.ofNat 64 top) else none

/-- R129: the translated page is backed; a firmware core also reaches the firmware memories of its panel and of the
domain's (R374). -/
def State.reaches (s : State) (pa : Nat) : Bool :=
  let a := s.here
  s.backed s.panelHere pa ||
    (a.fw && (match fwOf pa with
      | some (fw, _) => fw / 256 == s.fwHere / 256 || s.together (s.fwHere / 256) (fw / 256)
      | none => false))

/-- R132, R174: every issue-time check of an access of n bytes that is naturally aligned or faults, in the order of
its space; `extra` is a check of the access's own between PERM and UNBACKED (R175). -/
def checkAccess (s : State) (sp : Space) (kind : Kind) (ea : Word) (n : Nat) (extra : Target → Res Unit) :
    Res Target := do
  match sp with
  | .l =>
    require (decide (ea.toNat % n = 0)) cALIGN ea
    checkLocal s kind ea n
  | .t =>
    require (decide (ea.toNat % n = 0)) cALIGN ea
    checkWindow s kind ea n
  | .g =>
    match nonCanonical s ea n with
    | some x => .error (trapOf cNONCANON x)
    | none => pure ()
    require (decide (ea.toNat % n = 0)) cALIGN ea
    let x ← checkGlobal s kind ea
    extra x
    match x.home with
    | .phys pa => require (s.reaches pa) cUNBACKED ea
    | .lm _ _ => pure ()
    return x

/-- No check of the access's own. -/
def noExtra (_ : Target) : Res Unit := .ok ()

/-- R158: the lowest poisoned byte of a local access of n bytes faults POISON, precisely. -/
def checkPoison (s : State) (h : Home) (ea : Word) (n : Nat) : Res Unit :=
  match (List.range n).find? (s.poisoned h) with
  | some i => .error { trapOf cPOISON (ea + BitVec.ofNat 64 i) with bytes := s.poisonedBytes h n }
  | none => .ok ()

/-! ### Fetch (R29, R30, R63) -/

/-- The physical address of a fetch of the halfword at a PC, with X permission. -/
def fetchTarget (s : State) (pc at0 : Word) : Res Target := do
  let a := s.here
  match nonCanonical s pc 1 with
  | some x => .error (trapOf cNONCANON x)
  | none => pure ()
  let x ←
    if a.fw then Except.ok ⟨.phys pc.toNat, (s.fwCore s.fwHere).key, 0, false, []⟩
    else match s.lookup a pc.toNat with
      | none => Except.error (trapOf cTMISS at0)
      | some e =>
        if e.x then Except.ok ⟨.phys (s.homeOf e (s.dieOf a.tile) pc.toNat), e.key, 0, false, []⟩
        else Except.error (trapOf cPERM at0)
  match x.home with
  | .phys pa => require (s.reaches pa) cUNBACKED at0
  | .lm _ _ => pure ()
  return x

/-- The halfword at a PC, from the instruction cache where it holds it (R63). -/
def fetchHalf (s : State) (pc at0 : Word) : Res (BitVec 16) := do
  let x ← fetchTarget s pc at0
  match x.home with
  | .phys pa =>
    match tabFind (if s.here.fw then [] else (s.core s.here.tile s.here.stg).icache) pa with
    | some h => return h
    | none =>
      if s.poisoned x.home 0 then .error { trapOf cPOISON pc with bytes := s.poisonedBytes x.home 2 }
      else return BitVec.ofNat 16 (s.homeRead x.key.toNat x.home 2)
  | .lm _ _ => return 0

/-- R30: the instruction word at an address: both halfwords are checked, the fault value naming the lowest byte in
the page that failed. -/
def fetchWord (s : State) (pc : Word) : Res (BitVec 32) := do
  let h ← fetchHalf s pc pc
  let h2 ← fetchHalf s (pc + 2) (if (pc.toNat / 2 ^ 16) = ((pc + 2).toNat / 2 ^ 16) then pc else pc + 2)
  return h ++ h2

/-- R63: the halfwords of an instruction kept in the instruction cache of the issuing core, which holds 64 KiB. A miss brings
in the halfwords fetched, and no others (log 77). -/
def State.fillCode (s : State) (pc : Word) (halves : List (BitVec 16)) : State :=
  let a := s.here
  if a.fw then s else
  let new := ((List.range halves.length).zip halves).filterMap (fun e =>
    match fetchTarget s (pc + BitVec.ofNat 64 (2 * e.1)) pc with
    | .ok x => (match x.home with | .phys pa => some (pa, e.2) | .lm _ _ => none)
    | .error _ => none)
  s.updCore a.tile a.stg (fun c =>
    let others := c.icache.filter (fun e => !new.any (fun n => n.1 == e.1))
    { c with icache := new.foldl (fun l n => tabSet l n.1 n.2) (others.drop (others.length + new.length - 32768)) })

/-- R63, R137: a word read through the fetch path: the L1 TLB and the instruction cache of the issuing core filled for it. -/
def State.tookWord (s : State) (pc : Word) (w : BitVec 32) : State :=
  ((s.touchTlb pc.toNat).touchTlb (pc.toNat + 2)).fillCode pc [w.extractLsb' 16 16, w.setWidth 16]

/-! ### Scopes (R163, R164) -/

/-- R163: who an activation is among the agents of a scope instance: its tile, or its firmware context. -/
def Act.agent (a : Act) (k : Nat) : Nat := if a.fw then k else a.dt

/-- R163: the instance of a scope that holds agent a holds agent b too. -/
def inScope (scope : BitVec 2) (a b : Nat) : Bool :=
  if scope = 0 then a == b else if scope = 1 then agentPanel a == agentPanel b else true

/-- R164: each of two annotations is made inside the other's scope instance. -/
def mutuallyInScope (s1 : BitVec 2) (a1 : Nat) (s2 : BitVec 2) (a2 : Nat) : Bool := inScope s1 a1 a2 && inScope s2 a2 a1

/-! ### Outstanding requests (R131, R136, R161 to R166) -/

/-- R131, R178: the scope and the sides of an access's annotation. -/
structure Annot where
  acq   : Bool
  rel   : Bool
  scope : BitVec 2
deriving DecidableEq, Repr

/-- No annotation. -/
def Annot.none : Annot := ⟨false, false, 0⟩

/-- R47, R162: the annotation of an M-format access: ord 1 to 3 name the panel, domain and system scopes. -/
def ordAnnot (load : Bool) (ord : BitVec 2) : Annot :=
  if ord = 0 then .none else ⟨load, !load, ord⟩

/-- R162, R172: the annotation of an atomic. -/
def atomicAnnot (ord scope : BitVec 2) : Annot := ⟨ord.getLsbD 0, ord.getLsbD 1, scope⟩

/-- The DT a node request is performed at. -/
def ReqOp.target : ReqOp → Option Nat
  | .narm _ ref => some (ref.extractLsb' 12 15).toNat
  | .ndef _ ref _ => some (ref.extractLsb' 12 15).toNat
  | .nqry _ ref => some (ref.extractLsb' 12 15).toNat
  | .evu _ id => some (id.extractLsb' 4 15).toNat
  | .tresume _ h _ => some (h.extractLsb' 12 15).toNat
  | .tabort _ h _ => some (h.extractLsb' 12 15).toNat
  | _ => none

/-- The tiles that a request goes to. -/
def requestTiles (op : ReqOp) (elems : List Elem) : List Nat :=
  (elems.filterMap (fun e => match e.home with | .lm dt _ => some dt | .phys _ => none) ++ op.target.toList).eraseDups

/-- R426: the panels and targets that requests go to. -/
def requestHops (parts : List (ReqOp × List Elem)) : List (Nat × Nat) :=
  (parts.flatMap (fun p => p.2.filterMap (fun e => e.home.hop) ++ p.1.target.toList.map (fun dt => (dt / 4096, dt)))).eraseDups

/-- Requests of the issuing activation put among the outstanding ones, under one id: each an operation with its elements. -/
def State.requests (s : State) (space : Nat) (parts : List (ReqOp × List Elem)) (o : Annot) : State :=
  let a := s.here
  (requestHops parts).foldl (fun t h => t.cross (agentPanel (a.agent s.cur)) h.1 h.2 (.req s.nextId)) { s with
    reqs := s.reqs ++ parts.map (fun p => ⟨s.cur, a.nref, a.pc, p.1, space, p.2, o.acq, o.rel, o.scope, [],
      if a.fw then none else some (a.tile, a.stg),
      (requestTiles p.1 p.2).map (s.routeTo (a.agent s.cur)), s.nextId⟩)
    nextId := s.nextId + 1 }

/-- A request of the issuing activation put among the outstanding ones. -/
def State.request (s : State) (op : ReqOp) (space : Nat) (elems : List Elem) (o : Annot) : State :=
  s.requests space [(op, elems)] o

/-- The number of bytes of each element of a request. -/
def ReqOp.size : ReqOp → Nat
  | .load _ n => n
  | .store n _ => n
  | .vload _ e => 2 ^ e.toNat
  | .vloadq _ _ e => 2 ^ e.toNat
  | .vstore e => 2 ^ e.toNat
  | .atomic _ _ n _ _ => n
  | .multi n _ => n
  | _ => 0

/-- Two homes of n and m bytes share a byte. -/
def Home.overlaps (h : Home) (n : Nat) (j : Home) (m : Nat) : Bool :=
  match h, j with
  | .lm d o, .lm e p => d == e && decide (o < p + m) && decide (p < o + n)
  | .phys o, .phys p => decide (o < p + m) && decide (p < o + n)
  | _, _ => false

/-- Two requests share a location. -/
def Req.touches (r q : Req) : Bool := r.elems.any (fun x => q.elems.any (fun y => x.home.overlaps r.op.size y.home q.op.size))

/-- R161: an earlier request of the same activation and a later one share a location of one space. -/
def Req.meets (r q : Req) : Bool := r.space == q.space && r.touches q

/-- R161, R162: an earlier request of the same activation is ordered before a later one: it acquires, or the later
one releases, or they share a location of one space, or both are of own LM. The replica writes of one `st.m` are not ordered
(R178). -/
def Req.before (r q : Req) : Bool :=
  r.owner == q.owner && r.id != q.id && (r.acq || q.rel || (r.space == 0 && q.space == 0) || r.meets q)

/-- The register an outstanding request will write (R131): the code of R118, v registers from 32. -/
def ReqOp.dest : ReqOp → Option Nat
  | .load d _ => some d.toNat
  | .vload d _ => if d.toNat < 16 then some (32 + d.toNat) else none
  | .atomic _ d _ _ _ => some d.toNat
  | .narm d _ => some d.toNat
  | .ndef d _ _ => some d.toNat
  | .nqry d _ => some d.toNat
  | .evb d _ _ _ => some d.toNat
  | .evu d _ => some d.toNat
  | .tresume d _ _ => some d.toNat
  | .tabort d _ _ => some d.toNat
  | .tlbfill d _ => some d.toNat
  | _ => none

/-- R164, R166: a release of the issuing activation that is performed while earlier requests of it are outstanding is
noted: an acquire inside its scope instance waits for them. -/
def State.releaseEarly (s : State) (h : Home) (n : Nat) (scope : BitVec 2) (both : Bool) : State :=
  let ids := (s.reqs.filter (fun r => r.owner == s.cur)).map (·.id)
  if ids.isEmpty then s
  else { s.updHere (fun a => { a with hasty := false }) with
    early := s.early ++ [⟨h, n, s.here.agent s.cur, s.cur, scope, both, ids⟩] }

/-- R164, R166: an acquire of an agent at some bytes, or anywhere in a total order of R166 (`both`), would synchronise with a
release whose earlier accesses are outstanding: it waits for them. -/
def State.mustWait (s : State) (hits : Home → Nat → Bool) (agent : Nat) (scope : BitVec 2) (both : Bool) : Bool :=
  s.early.any (fun e => mutuallyInScope e.scope e.issuer scope agent &&
    (hits e.home e.size || (both && e.both && e.scope == scope)))

/-- R162, R166: a later access of the activation that made an acquire-release early is ordered after the accesses that this
still awaits: it waits for those that share a location with it, whatever their space. -/
def State.behindEarly (s : State) (owner id : Nat) (hits : Home → Nat → Bool) : Bool :=
  s.early.any (fun e => e.both && e.owner == owner && !e.waits.contains id &&
    s.reqs.any (fun q => e.waits.contains q.id && q.elems.any (fun x => hits x.home q.op.size)))

/-- The activation has an outstanding request. -/
def State.outstanding (s : State) (k : Nat) : Bool := s.reqs.any (fun r => r.owner == k)

end Sys2Proof.Machine
end

