-- ==== Sys2Proof/Machine/Flags.lean ====
section
/-! DEFINITION. The floating-point formats (R239), the five exception flags (R249), rounding (R245), overflow
(R246) and the flag each of them raises (R250, R253). -/

namespace Sys2Proof.Machine

/-- R249: the flags NV, DZ, OF, UF, NX in bits 0 to 4. -/
abbrev Flags := BitVec 5

/-- R249: invalid operation. -/
def fNV : Flags := 1
/-- R249: division by zero. -/
def fDZ : Flags := 2
/-- R249: overflow. -/
def fOF : Flags := 4
/-- R249: underflow. -/
def fUF : Flags := 8
/-- R249: inexact. -/
def fNX : Flags := 16

/-- R239: how the all-ones exponent reads. -/
inductive Special where
  | ieee
  | e4m3
  | e2m1
deriving DecidableEq, Repr

/-- R239: a floating-point element format: exponent bits w, significant bits p, bias. -/
structure Fmt where
  w    : Nat
  p    : Nat
  bias : Nat
  sp   : Special
deriving DecidableEq, Repr

/-- R239. -/
def fp64 : Fmt := ⟨11, 53, 1023, .ieee⟩
/-- R239. -/
def fp32 : Fmt := ⟨8, 24, 127, .ieee⟩
/-- R239. -/
def fp16 : Fmt := ⟨5, 11, 15, .ieee⟩
/-- R239. -/
def bf16 : Fmt := ⟨8, 8, 127, .ieee⟩
/-- R239. -/
def e4m3 : Fmt := ⟨4, 4, 7, .e4m3⟩
/-- R239. -/
def e5m2 : Fmt := ⟨5, 3, 15, .ieee⟩
/-- R239. -/
def e2m1 : Fmt := ⟨2, 2, 1, .e2m1⟩

/-- The width of an element. -/
def Fmt.bits (f : Fmt) : Nat := f.w + f.p
/-- R239: emin = 1 − B. -/
def Fmt.emin (f : Fmt) : Int := 1 - f.bias
/-- R239: the code of the largest finite magnitude. -/
def Fmt.maxCode (f : Fmt) : Nat :=
  match f.sp with
  | .ieee => (2 ^ f.w - 1) * 2 ^ (f.p - 1) - 1
  | .e4m3 => 2 ^ (f.w + f.p - 1) - 2
  | .e2m1 => 2 ^ (f.w + f.p - 1) - 1
/-- R240: the default NaN. -/
def Fmt.nan (f : Fmt) : Nat :=
  match f.sp with
  | .ieee => (2 ^ f.w - 1) * 2 ^ (f.p - 1) + 2 ^ (f.p - 2)
  | .e4m3 => 0x7F
  | .e2m1 => 0
/-- The sign bit of a format, set when b holds. -/
def Fmt.sign (f : Fmt) (b : Bool) : Nat := if b then 2 ^ (f.bits - 1) else 0
/-- The code of an infinity. -/
def Fmt.inf (f : Fmt) (neg : Bool) : Nat := f.sign neg + f.maxCode + 1

/-- The value of an element: a NaN, an infinity, or (−1)^neg × m × 2^e. -/
inductive Val where
  | nan (sig : Bool)
  | inf (neg : Bool)
  | fin (neg : Bool) (m : Nat) (e : Int)
deriving DecidableEq, Repr

/-- R239: the value an encoding stands for. -/
def Fmt.decode (f : Fmt) (x : Nat) : Val :=
  let neg := x.testBit (f.bits - 1)
  let mag := x % 2 ^ (f.bits - 1)
  let e := mag / 2 ^ (f.p - 1)
  let frac := mag % 2 ^ (f.p - 1)
  if mag ≤ f.maxCode then
    if e = 0 then .fin neg frac (f.emin - (f.p - 1 : Nat))
    else .fin neg (frac + 2 ^ (f.p - 1)) ((e : Int) - f.bias - (f.p - 1 : Nat))
  else if f.sp = .ieee ∧ frac = 0 then .inf neg
  else .nan (f.sp = .ieee && !frac.testBit (f.p - 2))

/-- R42, R245: the rounding modes. -/
inductive Rounding where
  | rne
  | rtz
  | rup
  | rdn
  | rsr (rnd : Nat)
deriving DecidableEq, Repr

/-- floor(num × 2^e ÷ den) and whether anything is left over, with the top 16 bits of the fraction. -/
def scaleDiv (num den : Nat) (e : Int) : Nat × Nat × Nat :=
  let n := if 0 ≤ e then num * 2 ^ e.toNat else num
  let d := if 0 ≤ e then den else den * 2 ^ (-e).toNat
  (n / d, n % d, d)

/-- floor(log2(num ÷ den)) for positive numbers. -/
def log2Ratio (num den : Nat) : Int :=
  let k : Int := (Nat.log2 num : Int) - (Nat.log2 den : Int)
  let small := if 0 ≤ k then num < den * 2 ^ k.toNat else num * 2 ^ (-k).toNat < den
  if small then k - 1 else k

/-- R245: whether the magnitude lo × q with remainder r of d rounds up. -/
def roundsUp (rm : Rounding) (neg : Bool) (lo r d : Nat) : Bool :=
  if r = 0 then false
  else match rm with
    | .rne => decide (d < 2 * r) || (decide (2 * r = d) && decide (lo % 2 = 1))
    | .rtz => false
    | .rup => !neg
    | .rdn => neg
    | .rsr rnd => decide (2 ^ 16 ≤ r * 2 ^ 16 / d + rnd)

/-- R246: what a finite overflow gives: the IEEE rule says infinity or max by the mode and sign. -/
def Fmt.overflow (f : Fmt) (rm : Rounding) (sat neg : Bool) : Nat :=
  let ieeeInf := match rm with
    | .rne => true
    | .rtz => false
    | .rup => !neg
    | .rdn => neg
    | .rsr _ => true
  match f.sp with
  | .ieee => if sat || !ieeeInf then f.sign neg + f.maxCode else f.inf neg
  | .e4m3 => if sat || !ieeeInf then f.sign neg + f.maxCode else f.nan
  | .e2m1 => f.sign neg + f.maxCode

/-- R245, R246, R250: the exact value (−1)^neg × num ÷ den × 2^e, num > 0, rounded to a format, with the flags. -/
def Fmt.round (f : Fmt) (rm : Rounding) (sat neg : Bool) (num den : Nat) (e : Int) : Nat × Flags :=
  let k0 := log2Ratio num den + e
  let k := if k0 < f.emin then f.emin else k0
  let q := k - (f.p - 1 : Nat)
  let (lo, r, d) := scaleDiv num den (e - q)
  let n := if roundsUp rm neg lo r d then lo + 1 else lo
  let code := (k - f.emin).toNat * 2 ^ (f.p - 1) + n
  if f.maxCode < code then (f.overflow rm sat neg, fOF ||| fNX)
  else
    (f.sign neg + code,
      (if r = 0 then 0 else fNX) ||| (if r ≠ 0 ∧ k0 < f.emin then fUF else 0))

/-- A value rounded to a format by RNE without saturation: the result of an arithmetic operation (R269). -/
def Fmt.ofVal (f : Fmt) (v : Val) : Nat × Flags :=
  match v with
  | .nan _ => (f.nan, 0)
  | .inf neg => (f.inf neg, 0)
  | .fin neg m e => if m = 0 then (f.sign neg, 0) else f.round .rne false neg m 1 e

/-- The value is a signalling NaN. -/
def Val.isSig : Val → Bool
  | .nan s => s
  | _ => false

/-- The value is a NaN. -/
def Val.isNan : Val → Bool
  | .nan _ => true
  | _ => false

/-- The value is a zero. -/
def Val.isZero : Val → Bool
  | .fin _ m _ => m == 0
  | _ => false

/-- The sign of a value. -/
def Val.neg : Val → Bool
  | .nan _ => false
  | .inf n => n
  | .fin n _ _ => n

/-- The value with its sign inverted. -/
def Val.negate : Val → Val
  | .nan s => .nan s
  | .inf n => .inf (!n)
  | .fin n m e => .fin (!n) m e

end Sys2Proof.Machine
end

