-- ==== Sys2Proof/Machine/Fp.lean ====
section
/-! DEFINITION. Floating-point operations on one element: arithmetic (R269, R270), minimumNumber and
maximumNumber (R271), classes (R272), the two estimates (R273, R274), conversion (R253), the rounding stream (R247)
and block scales (R243, R244, R256). -/

namespace Sys2Proof.Machine

/-- The exact sum of two finite values with the zero rule of R269. -/
def finAdd (n1 : Bool) (m1 : Nat) (e1 : Int) (n2 : Bool) (m2 : Nat) (e2 : Int) : Val :=
  let e := min e1 e2
  let a : Int := (m1 * 2 ^ (e1 - e).toNat : Nat)
  let b : Int := (m2 * 2 ^ (e2 - e).toNat : Nat)
  let x := (if n1 then -a else a) + (if n2 then -b else b)
  if x = 0 then .fin (n1 && n2 && m1 == 0 && m2 == 0) 0 e else .fin (x < 0) x.natAbs e

/-- R269: the exact sum, and NV for opposite infinities or a signalling NaN. -/
def Val.add (x y : Val) : Val × Flags :=
  match x, y with
  | .nan s, y => (.nan false, if s || y.isSig then fNV else 0)
  | _, .nan s => (.nan false, if s then fNV else 0)
  | .inf a, .inf b => if a = b then (.inf a, 0) else (.nan false, fNV)
  | .inf a, .fin _ _ _ => (.inf a, 0)
  | .fin _ _ _, .inf b => (.inf b, 0)
  | .fin n1 m1 e1, .fin n2 m2 e2 => (finAdd n1 m1 e1 n2 m2 e2, 0)

/-- R269: the exact product, and NV for 0 × ∞ or a signalling NaN. -/
def Val.mul (x y : Val) : Val × Flags :=
  match x, y with
  | .nan s, y => (.nan false, if s || y.isSig then fNV else 0)
  | _, .nan s => (.nan false, if s then fNV else 0)
  | .inf a, .inf b => (.inf (a != b), 0)
  | .inf a, .fin n m _ => if m = 0 then (.nan false, fNV) else (.inf (a != n), 0)
  | .fin n m _, .inf b => if m = 0 then (.nan false, fNV) else (.inf (n != b), 0)
  | .fin n1 m1 e1, .fin n2 m2 e2 => (.fin (n1 != n2) (m1 * m2) (e1 + e2), 0)

/-- A value with flags rounded to a format by RNE (R269). -/
def Fmt.finish (f : Fmt) (x : Val × Flags) : Nat × Flags :=
  let r := f.ofVal x.1
  (r.1, r.2 ||| x.2)

/-- R270: A + B. -/
def Fmt.add (f : Fmt) (a b : Nat) : Nat × Flags := f.finish ((f.decode a).add (f.decode b))
/-- R270: A − B. -/
def Fmt.sub (f : Fmt) (a b : Nat) : Nat × Flags := f.finish ((f.decode a).add (f.decode b).negate)
/-- R270: A × B. -/
def Fmt.mul (f : Fmt) (a b : Nat) : Nat × Flags := f.finish ((f.decode a).mul (f.decode b))

/-- R269, R270: ±(A × B) ± D rounded once. -/
def Fmt.fma (f : Fmt) (d a b : Nat) (negProd negD : Bool) : Nat × Flags :=
  let (p, fl) := (f.decode a).mul (f.decode b)
  let p := if negProd then p.negate else p
  let y := f.decode d
  let y := if negD then y.negate else y
  let (r, fl2) := y.add p
  f.finish (r, fl ||| fl2)

/-- R269, R270: A ÷ B. -/
def Fmt.div (f : Fmt) (a b : Nat) : Nat × Flags :=
  match f.decode a, f.decode b with
  | .nan s, y => (f.nan, if s || y.isSig then fNV else 0)
  | _, .nan s => (f.nan, if s then fNV else 0)
  | .inf _, .inf _ => (f.nan, fNV)
  | .inf x, .fin y _ _ => (f.inf (x != y), 0)
  | .fin x _ _, .inf y => (f.sign (x != y), 0)
  | .fin x m e, .fin y n g =>
    if n = 0 then (if m = 0 then (f.nan, fNV) else (f.inf (x != y), fDZ))
    else if m = 0 then (f.sign (x != y), 0)
    else f.round .rne false (x != y) m n (e - g)

/-- The integer square root of n, deciding bit i of b bits at a time, the highest first. -/
def isqrtBits (n r : Nat) : Nat → Nat
  | 0 => r
  | i + 1 => isqrtBits n (if (r + 2 ^ i) * (r + 2 ^ i) ≤ n then r + 2 ^ i else r) i

/-- The integer square root. -/
def natSqrt (n : Nat) : Nat := isqrtBits n 0 (Nat.log2 n / 2 + 1)

/-- R269, R270: the square root. -/
def Fmt.sqrt (f : Fmt) (a : Nat) : Nat × Flags :=
  match f.decode a with
  | .nan s => (f.nan, if s then fNV else 0)
  | .inf neg => if neg then (f.nan, fNV) else (f.inf false, 0)
  | .fin neg m e =>
    if m = 0 then (f.sign neg, 0)
    else if neg then (f.nan, fNV)
    else
      let sh := 2 * f.p + 6
      let sh := if (e - (sh : Nat)) % 2 = 0 then sh else sh + 1
      let n := m * 2 ^ sh
      let r := natSqrt n
      f.round .rne false false (2 * r + (if r * r = n then 0 else 1)) 1 ((e - (sh : Nat)) / 2 - 1)

/-- R271: a key that orders a format's non-NaN encodings, −0 below +0. -/
def Fmt.key (f : Fmt) (x : Nat) : Int :=
  let mag : Int := (x % 2 ^ (f.bits - 1) : Nat)
  if x.testBit (f.bits - 1) then -mag - 1 else mag

/-- R271: minimumNumber and maximumNumber. -/
def Fmt.minMax (f : Fmt) (isMax : Bool) (a b : Nat) : Nat × Flags :=
  let x := f.decode a
  let y := f.decode b
  let fl := if x.isSig || y.isSig then fNV else 0
  if x.isNan then (if y.isNan then (f.nan, fl) else (b, fl))
  else if y.isNan then (a, fl)
  else if isMax then (if f.key a ≥ f.key b then a else b, fl)
  else (if f.key a ≤ f.key b then a else b, fl)

/-- R272: the class code. -/
def Fmt.classify (f : Fmt) (a : Nat) : Nat :=
  let mag := a % 2 ^ (f.bits - 1)
  match f.decode a with
  | .nan s => if s then 2 ^ 8 else 2 ^ 9
  | .inf neg => if neg then 1 else 2 ^ 7
  | .fin neg m _ =>
    if m = 0 then (if neg then 2 ^ 3 else 2 ^ 4)
    else if mag < 2 ^ (f.p - 1) then (if neg then 2 ^ 2 else 2 ^ 5)
    else (if neg then 2 else 2 ^ 6)

/-- R273, R274: e and the 8 fraction bits t of a positive value m × 2^g. -/
def normalise (m : Nat) (g : Int) : Int × Nat :=
  let k := Nat.log2 m
  ((k : Int) + g, (m * 256 / 2 ^ k) - 256)

/-- R273: the reciprocal square-root estimate. -/
def Fmt.rsqe (f : Fmt) (a : Nat) : Nat × Flags :=
  match f.decode a with
  | .nan s => (f.nan, if s then fNV else 0)
  | .inf neg => if neg then (f.nan, fNV) else (f.sign false, 0)
  | .fin neg m g =>
    if m = 0 then (f.inf neg, fDZ)
    else if neg then (f.nan, fNV)
    else
      let (e, t) := normalise m g
      let p := (e % 2).toNat
      let q := (e - p) / 2
      let n := (natSqrt (2 ^ 26 * 512 / (2 ^ p * (2 * t + 513))) + 1) / 2
      f.round .rne false false n 1 (-12 - q)

/-- R274: the reciprocal estimate. -/
def Fmt.rcpe (f : Fmt) (a : Nat) : Nat × Flags :=
  match f.decode a with
  | .nan s => (f.nan, if s then fNV else 0)
  | .inf neg => (f.sign neg, 0)
  | .fin neg m g =>
    if m = 0 then (f.inf neg, fDZ)
    else
      let (e, t) := normalise m g
      let n := (2 ^ 13 * 512 / (2 * t + 513) + 1) / 2
      f.round .rne false neg n 1 (-12 - e)

/-- R279: the floating-point compares: equal, less, less or equal, unordered. -/
def Fmt.compare (f : Fmt) (op : Nat) (a b : Nat) : Bool × Flags :=
  let x := f.decode a
  let y := f.decode b
  let anyNan := x.isNan || y.isNan
  let anySig := x.isSig || y.isSig
  let both0 := x.isZero && y.isZero
  match op with
  | 8 => (!anyNan && (both0 || f.key a == f.key b), if anySig then fNV else 0)
  | 9 => (!anyNan && !both0 && decide (f.key a < f.key b), if anyNan then fNV else 0)
  | 10 => (!anyNan && (both0 || decide (f.key a ≤ f.key b)), if anyNan then fNV else 0)
  | _ => (anyNan, if anySig then fNV else 0)

/-! ### Conversion (R253) -/

/-- R42: a vcvt format: floating point, or an integer of a width and signedness. -/
inductive CvtFmt where
  | fp (f : Fmt)
  | int (bits : Nat) (signed : Bool)
deriving DecidableEq, Repr

/-- R42: the format codes of vcvt. -/
def cvtFmt (c : BitVec 4) : CvtFmt :=
  match c.toNat with
  | 0 => .fp fp64
  | 1 => .fp fp32
  | 2 => .fp fp16
  | 3 => .fp bf16
  | 4 => .fp e4m3
  | 5 => .fp e5m2
  | 6 => .fp e2m1
  | 7 => .int 32 true
  | 8 => .int 16 true
  | 9 => .int 8 true
  | _ => .int 8 false

/-- The width of a vcvt format. -/
def CvtFmt.bits : CvtFmt → Nat
  | .fp f => f.bits
  | .int b _ => b

/-- R6: an exact integer clamped to the range of an integer format. -/
def clampInt (bits : Nat) (signed : Bool) (x : Int) : Int :=
  let lo : Int := if signed then -(2 ^ (bits - 1) : Nat) else 0
  let hi : Int := if signed then (2 ^ (bits - 1) : Nat) - 1 else (2 ^ bits : Nat) - 1
  if x < lo then lo else if hi < x then hi else x

/-- R245: a value rounded to an integer, with whether it was inexact. -/
def roundInt (rm : Rounding) (neg : Bool) (m : Nat) (e : Int) : Int × Bool :=
  let (lo, r, d) := scaleDiv m 1 e
  let n : Int := ((if roundsUp rm neg lo r d then lo + 1 else lo : Nat) : Int)
  (if neg then -n else n, r != 0)

/-- R246: an infinite source. -/
def Fmt.ofInf (f : Fmt) (sat neg : Bool) : Nat × Flags :=
  match f.sp with
  | .ieee => if sat then (f.sign neg + f.maxCode, 0) else (f.inf neg, 0)
  | .e4m3 => if sat then (f.sign neg + f.maxCode, 0) else (f.nan, fNV)
  | .e2m1 => (f.sign neg + f.maxCode, if sat then 0 else fNV)

/-- R253: Convert(x, D, rm, sat) of a value read in a floating-point format. An infinite value between equal formats follows its
row of the table, which saturates it (DEDUCED, log 99). -/
def convertVal (v : Val) (dst : CvtFmt) (rm : Rounding) (sat : Bool) : Nat × Flags :=
  match dst with
  | .fp f =>
    match v with
    | .nan s => if f.sp = .e2m1 then (0, fNV) else (f.nan, if s then fNV else 0)
    | .inf neg => f.ofInf sat neg
    | .fin neg m e => if m = 0 then (f.sign neg, 0) else f.round rm sat neg m 1 e
  | .int bits signed =>
    match v with
    | .nan _ => (0, fNV)
    | .inf neg =>
      (lowBits bits (clampInt bits signed (if neg then -(2 ^ 40 : Nat) else (2 ^ 40 : Nat))), if sat then 0 else fNV)
    | .fin neg m e =>
      let (n, inexact) := roundInt rm neg m e
      let c := clampInt bits signed n
      if c = n then (lowBits bits n, if inexact then fNX else 0)
      else (lowBits bits c, if sat then fNX else fNV)

/-- R253: Convert of an element of any format. -/
def convert (x : Nat) (src dst : CvtFmt) (rm : Rounding) (sat : Bool) : Nat × Flags :=
  match src with
  | .fp f => convertVal (f.decode x) dst rm sat
  | .int bits signed =>
    let n : Int := if signed then signedOf bits x else (x : Int)
    match dst with
    | .fp _ => convertVal (.fin (n < 0) n.natAbs 0) dst rm sat
    | .int b sg => (lowBits b (if sat then clampInt b sg n else n), 0)

/-! ### The rounding stream (R247) -/

/-- R247: one step of the stream. -/
def streamStep (l : BitVec 32) : BitVec 32 :=
  if l.getLsbD 31 then (l <<< 1) ^^^ 0x00400007 else l <<< 1

/-- n applications of a function. -/
def iter {α : Type} (f : α → α) : Nat → α → α
  | 0, x => x
  | n + 1, x => iter f n (f x)

/-- R247: one draw: the state after it, whose top 16 bits are rnd. -/
def streamDraw (l : BitVec 32) : BitVec 32 := iter streamStep 16 l

/-- n draws: the states after each. -/
def streamDraws : Nat → BitVec 32 → List (BitVec 32)
  | 0, _ => []
  | n + 1, l => streamDraw l :: streamDraws n (streamDraw l)

/-- R42, R247: the rounding modes of n elements, and the stream state after them. -/
def roundings (rm : BitVec 3) (n : Nat) (l : BitVec 32) : List Rounding × BitVec 32 :=
  match rm.toNat with
  | 0 => (List.replicate n .rne, l)
  | 1 => (List.replicate n .rtz, l)
  | 2 => (List.replicate n .rup, l)
  | 3 => (List.replicate n .rdn, l)
  | _ =>
    let d := streamDraws n l
    (d.map (fun x => .rsr (x.toNat / 2 ^ 16)), d.getLastD l)

/-! ### Block scales (R242 to R244, R256) -/

/-- R42: target codes with SB scales. -/
def sbTarget (t : BitVec 3) : Bool := t.toNat < 2

/-- R242: the element format of a target; none for MXINT8. -/
def targetFmt (t : BitVec 3) : Option Fmt :=
  match t.toNat with
  | 0 => some e4m3
  | 1 => some e2m1
  | 2 => some e4m3
  | 3 => some e5m2
  | 4 => some e2m1
  | _ => none

/-- R242: Emax of a target as a value m × 2^e. -/
def targetMax (t : BitVec 3) : Nat × Int :=
  match targetFmt t with
  | some f => match f.decode f.maxCode with
    | .fin _ m e => (m, e)
    | _ => (0, 0)
  | none => (127, -6)

/-- R242: the width of a target's elements. -/
def targetBits (t : BitVec 3) : Nat := match targetFmt t with | some f => f.bits | none => 8

/-- R257: the NaN code of a target's scale. -/
def scaleNan (t : BitVec 3) : Nat := if sbTarget t then 0x3FC else 0xFF

/-- R243, R244: the value of a scale code as m × 2^e, or none for a NaN code. -/
def scaleVal (sb : Bool) (c : Nat) : Option (Nat × Int) :=
  if sb then
    let c := c % 2 ^ 10
    if c / 4 = 255 then none else some (4 + c % 4, ((c / 4 : Nat) : Int) - 129)
  else
    let c := c % 2 ^ 8
    if c = 255 then none else some (1, ((c : Nat) : Int) - 127)

/-- m × 2^e ≤ n × 2^g. -/
def leScaled (m : Nat) (e : Int) (n : Nat) (g : Int) : Bool :=
  let k := min e g
  decide (m * 2 ^ (e - k).toNat ≤ n * 2 ^ (g - k).toNat)

/-- R256: the smallest of the n codes from c up that meets the bound, else the last. -/
def deriveFrom (t : BitVec 3) (m : Nat) (e : Int) (c : Nat) : Nat → Nat
  | 0 => c
  | n + 1 =>
    let (em, ee) := targetMax t
    match scaleVal (sbTarget t) c with
    | some (sm, se) => if leScaled m e (em * sm) (ee + se) then c else deriveFrom t m e (c + 1) n
    | none => c

/-- R256: Derive(m × 2^e, target). The search starts just below the answer: a code whose value times Emax lies
below the bound by a factor of four. -/
def derive (t : BitVec 3) (m : Nat) (e : Int) : Nat :=
  if m = 0 then 0
  else
    let (em, ee) := targetMax t
    let k := (Nat.log2 m : Int) + e - ((Nat.log2 em : Int) + ee) - 2 + 127
    let per := if sbTarget t then 4 else 1
    let last := if sbTarget t then 0x3FB else 254
    let start := min (k.toNat * per) last
    deriveFrom t m e start (min (last - start) (4 * per))

end Sys2Proof.Machine
end

