-- ==== Sys2Proof/Machine/Operands.lean ====
section
/-! DEFINITION. The operand forms: elements, lanes and masks (R261, R262), vector fields that name registers or
queues (R107 to R110), own-LM loads as operands (R132, R141), and the signature fold (R354). -/

namespace Sys2Proof.Machine

/-! ### Elements and masks -/

/-- R261: element k of width W. -/
def elemOf (W : Nat) (x : Vec) (k : Nat) : Nat := (x.toNat >>> (W * k)) % 2 ^ W

/-- R261: elements packed from bit 0. -/
def packElems (W : Nat) (xs : List Nat) : Nat := xs.foldr (fun x r => x % 2 ^ W + 2 ^ W * r) 0

/-- R261: the number of elements of width W. -/
def elemCount (W : Nat) : Nat := 2048 / W

/-- R262: element k of width W is active under a mask value. -/
def isActive (W : Nat) (mask : Word) (k : Nat) : Bool :=
  mask.getLsbD (if W = 64 then 2 * k else k * W / 32)

/-- R262, R264: one result and its flags for each active element, old elements elsewhere. -/
def mapElems (W : Nat) (mask : Word) (old : Vec) (f : Nat → Nat × Flags) : List (Nat × Flags) :=
  (List.range (elemCount W)).map (fun k => if isActive W mask k then f k else (elemOf W old k, 0))

/-- R252, R264: FPINVALID with the lowest element index that raised NV, when FPCTL.TRAPNV = 1. -/
def checkInvalid (a : Act) (fl : List Flags) : Res Unit :=
  if a.trapnv then
    match (List.range fl.length).find? (fun k => (fl.getD k 0).getLsbD 0) with
    | some k => .error (trapOf cFPINVALID (BitVec.ofNat 64 k))
    | none => .ok ()
  else .ok ()

/-- R249: the flags of all elements. -/
def orFlags (fl : List Flags) : Flags := fl.foldl (· ||| ·) 0

/-- R249: flags ORed into FPFLAGS of the issuing activation. -/
def State.raiseFlags (s : State) (fl : Flags) : State := s.updHere (fun a => { a with fpflags := a.fpflags ||| fl })

/-! ### Queues (R107 to R110) -/

/-- R107: the queue number of a vector field, if it names one. -/
def queueOf (f : BitVec 5) : Option (Fin 8) :=
  if 16 ≤ f.toNat ∧ f.toNat < 24 then some (Fin.ofNat 8 (f.toNat - 16)) else none

/-- R107: the issuing core may use queue q: as a source the compute core q0 to q3 and the staging core q4 to q7, as
a destination the other four. A firmware core may use none (R373). -/
def queueAllowed (a : Act) (q : Fin 8) (write : Bool) : Bool :=
  !a.fw && ((decide (q.val < 4)) == (a.stg == write))

/-- R107: QUEUE with the lowest queue number of the fields that name a queue in a direction its core may not use. -/
def checkQueues (a : Act) (srcs dsts : List (BitVec 5)) : Res Unit :=
  let bad := srcs.filterMap (fun f => (queueOf f).bind (fun q => if queueAllowed a q false then none else some q.val)) ++
    dsts.filterMap (fun f => (queueOf f).bind (fun q => if queueAllowed a q true then none else some q.val))
  match bad with
  | [] => .ok ()
  | q :: t => .error (trapOf cQUEUE (BitVec.ofNat 64 (t.foldl min q)))

/-- R108: the queues that an instruction names, each with the entries, or the space, it needs there: sources before destinations,
in increasing number (log 69). -/
def queueNeeds (srcs dsts : List (BitVec 5)) : List (Nat × Bool × Nat) :=
  let named (full : Bool) (fs : List (BitVec 5)) : List (Nat × Bool × Nat) :=
    ((List.finRange 8).map (fun q => (q.val, full, (fs.filter (fun f => queueOf f == some q)).length))).filter (fun n => n.2.2 != 0)
  named false srcs ++ named true dsts

/-- R108: what the instruction must wait for, if any: a source queue with too few visible entries, or a destination
queue with too little visible space. Where it waits for several, WAIT and WQ name the first (log 69). -/
def queueWait (t : Tile) (srcs dsts : List (BitVec 5)) : Option (Nat × Bool × Nat) := (queueNeeds srcs dsts).find? t.lacks

/-- R108, R110: the oldest entry popped; the space it frees is visible to the writer from the next cycle. -/
def State.popQueue (s : State) (q : Fin 8) : Vec × State :=
  let t := s.tile s.here.tile
  match t.queues[q] with
  | [] => (0, s)
  | x :: rest => (x, s.setTile s.here.tile { t with
      queues := t.queues.set q rest, freed := t.freed.set q (t.freed[q] + 1), dirty := true })

/-- R108: the entries of queue q in order, each with the request that is yet to fill it, or with its value. -/
def Tile.entries (t : Tile) (q : Fin 8) : List (Nat × Option Vec) := t.queues[q].map (fun x => (0, some x)) ++ t.tails[q]

/-- R108, R109: the entries of queue q made others: those before the first to be filled are whole, and what the reader sees of
them stays. -/
def Tile.setEntries (t : Tile) (q : Fin 8) (l : List (Nat × Option Vec)) : Tile :=
  let whole := (l.takeWhile (fun e => e.2.isSome)).filterMap (·.2)
  { t with
    queues := t.queues.set q whole
    tails := t.tails.set q (l.dropWhile (fun e => e.2.isSome))
    fresh := t.fresh.set q (whole.length - t.visible q)
    dirty := true }

/-- R108, R109, R319: an entry that a core pushes: it is visible to the reader from the next cycle, and comes before what a copy
engine has pushed in the same cycle. -/
def State.pushEntry (s : State) (tile : Nat) (q : Fin 8) (e : Nat × Option Vec) : State :=
  let t := s.tile tile
  let l := t.entries q
  let n := l.length - t.engined[q]
  s.setTile tile { t.setEntries q (l.take n ++ [e] ++ l.drop n) with pushed := t.pushed.set q (t.pushed[q] + 1) }

/-- R108: a whole entry pushed by a core. -/
def State.pushQueue (s : State) (tile : Nat) (q : Fin 8) (x : Vec) : State := s.pushEntry tile q (0, some x)

/-- R108: the entry of a vector load pushed at its issue, to be filled by the request of an id. -/
def State.pushPending (s : State) (tile : Nat) (q : Fin 8) (id : Nat) : State := s.pushEntry tile q (id, none)

/-- R319: an entry pushed by a copy engine. -/
def State.pushEngine (s : State) (tile : Nat) (q : Fin 8) (x : Vec) : State :=
  let t := s.tile tile
  s.setTile tile { t.setEntries q (t.entries q ++ [(0, some x)]) with
    pushed := t.pushed.set q (t.pushed[q] + 1), engined := t.engined.set q (t.engined[q] + 1) }

/-- R108, R145: the entry of a request filled, or, if its load faulted, withdrawn; the entries that are then whole from the
head of the tail on join the queue. -/
def State.fillQueue (s : State) (tile : Nat) (q : Fin 8) (id : Nat) (x : Option Vec) : State :=
  let t := s.tile tile
  s.setTile tile (t.setEntries q (match x with
    | some v => (t.entries q).map (fun e => if e.1 = id ∧ e.2 = none then (0, some v) else e)
    | none => (t.entries q).filter (fun e => !(e.1 == id && e.2.isNone))))

/-- R108, R263: the values of source fields, in order, queues popped. -/
def State.readFields (s : State) : List (BitVec 5) → List Vec × State
  | [] => ([], s)
  | f :: t =>
    match queueOf f with
    | some q =>
      let (x, s) := s.popQueue q
      let (xs, s) := s.readFields t
      (x :: xs, s)
    | none =>
      let (xs, s) := s.readFields t
      (s.here.vreg (f.setWidth 4) :: xs, s)

/-- R108: a result written to a destination field. -/
def State.writeField (s : State) (f : BitVec 5) (x : Vec) : State :=
  match queueOf f with
  | some q => s.pushQueue s.here.tile q x
  | none => s.updHere (fun a => a.setV (f.setWidth 4) x)

/-- The old value of a destination field that is a register. -/
def Act.vfield (a : Act) (f : BitVec 5) : Vec := a.vreg (f.setWidth 4)

/-- R108: the issuing activation blocked on the queues it needs, of which it lacks one, its instruction not issued. -/
def State.blockQueue (s : State) (needs : List (Nat × Bool × Nat)) (lack : Nat × Bool × Nat) : State :=
  s.block s.cur (.queue needs) (if lack.2.1 then 3 else 2) (BitVec.ofNat 3 lack.1)

/-- R107, R108, R110, R264: an instruction over vector fields. The QUEUE check comes first, then the checks that
depend on scalars only, then the wait for entries and space; then all pops, the effect on the values, and the
pushes. An aborting fault of the effect leaves popped entries consumed; an access that parks executes again from its
start and has popped nothing. A replica abandons its screen at a queue (R353). -/
def vectorInstr (srcs dsts : List (BitVec 5)) (pre : State → Res Unit) (f : List Vec → State → Res State)
    (s : State) : Res State := do
  checkQueues s.here srcs dsts
  if s.here.replica && (srcs ++ dsts).any (fun x => (queueOf x).isSome) then return s.abandon s.cur
  pre s
  match queueWait (s.tile s.here.tile) srcs dsts with
  | some lack => return s.blockQueue (queueNeeds srcs dsts) lack
  | none =>
    let (xs, s1) := s.readFields srcs
    match f xs s1 with
    | .ok s2 => return s2
    | .error t =>
      if srcs.any (fun x => (queueOf x).isSome) && !parks t.cause.code then return s1.takeTrap s1.cur t else .error t

/-- No check of scalars. -/
def noPre (_ : State) : Res Unit := .ok ()

/-! ### Own-LM loads -/

/-- R132, R158: a checked load of n bytes of own LM, POISON precise. -/
def loadLocal (s : State) (ea : Word) (n : Nat) : Res Nat := do
  let t ← checkAccess s .l .load ea n noExtra
  match checkPoison s t.home ea n with
  | .ok _ => pure ()
  | .error t => .error t
  return s.localRead ea.toNat n

/-- R144: of the faults of a list of elements, the one of the lowest-addressed failing byte. -/
def lowestFault (l : List (Res Target)) : Option Trap :=
  l.foldl (fun b r => match r, b with
    | .error t, none => some t
    | .error t, some u => if t.value.toNat < u.value.toNat then some t else some u
    | .ok _, b => b) none

/-- R144: the targets of the active elements, or the fault of the lowest failing byte. -/
def checkElems (s : State) (sp : Space) (kind : Kind) (addrs : List (Nat × Word)) (n : Nat) :
    Res (List (Nat × Word × Target)) := do
  let checks := addrs.map (fun a => (a, checkAccess s sp kind a.2 n noExtra))
  match lowestFault (checks.map (·.2)) with
  | some t => .error t
  | none => return checks.filterMap (fun c => match c.2 with | .ok t => some (c.1.1, c.1.2, t) | .error _ => none)

/-- R143: the addresses of the active elements: contiguous, strided, indexed. -/
def elemAddrs (n : Nat) (mask : Word) (addr : Nat → Word) : List (Nat × Word) :=
  ((List.range (256 / n)).filter (fun k => isActive (8 * n) mask k)).map (fun k => (k, addr k))

/-- R143: the address of element k, by form: 0 contiguous, 1 strided by wb, 2 indexed by elements of a vector. -/
def elemAddr (form : Nat) (n : Nat) (base stride : Word) (idx : Vec) (k : Nat) : Word :=
  match form with
  | 0 => base + BitVec.ofNat 64 (k * n)
  | 1 => base + BitVec.ofNat 64 k * stride
  | _ => base + BitVec.ofInt 64 (signedOf (8 * n) (elemOf (8 * n) idx k))

/-- R145: the value of a vector load from own LM over old: active elements read, POISON of the lowest poisoned
byte. -/
def loadElems (s : State) (old : Vec) (n : Nat) (ts : List (Nat × Word × Target)) : Res Vec := do
  let bad := ts.filterMap (fun t => match checkPoison s t.2.2.home t.2.1 n with
    | .ok _ => none
    | .error e => some e.value.toNat)
  match bad with
  | x :: r => .error { trapOf cPOISON (BitVec.ofNat 64 (r.foldl min x)) with
      bytes := ts.flatMap (fun t => s.poisonedBytes t.2.2.home n) }
  | [] =>
    let W := 8 * n
    return BitVec.ofNat 2048 (packElems W ((List.range (256 / n)).map (fun k =>
      match ts.find? (fun t => t.1 == k) with
      | some t => s.localRead t.2.1.toNat n
      | none => elemOf W old k)))

/-! ### The screening signature (R354) -/

/-- R354: one bit of the CRC-64. -/
def foldBit (x : Word) : Word := if x.getLsbD 63 then (x <<< 1) ^^^ 0x42F0E1EBA9EA3693 else x <<< 1

/-- R354: Fold of one byte. -/
def foldByte (x : Word) (b : Byte) : Word := iter foldBit 8 (x ^^^ (b.setWidth 64 <<< 56))

/-- R354: a record folded into the signature of a screenable node's activation. -/
def State.fold (s : State) (bs : List Byte) : State :=
  s.updHere (fun a => if a.screen then { a with sig := bs.foldl foldByte a.sig } else a)

end Sys2Proof.Machine
end

