-- ==== Sys2Proof/Machine/Matrix.lean ====
section
/-! DEFINITION. The matrix engine and the tile store (R282 to R302): the claim, the exact K-groups and their
closing, the checksum rerun, skip streams, and the meanings of majors 0x34 to 0x36. -/

namespace Sys2Proof.Machine

/-! ### Formats (R287) -/

/-- R287: the element format of a code; none for INT8. -/
def mmaFmt (f : BitVec 4) : Option Fmt :=
  match f.toNat with
  | 0 => some bf16
  | 1 => some fp16
  | 2 => some e4m3
  | 3 => some e5m2
  | 4 => some e2m1
  | 5 => none
  | 6 => some e4m3
  | 7 => some e2m1
  | 8 => some e4m3
  | 9 => some e5m2
  | _ => some e2m1

/-- R287: K-values per mma. -/
def kpm (f : BitVec 4) : Nat :=
  if f.toNat < 2 then 2 else if f = 4 ∨ f = 7 ∨ f = 10 then 8 else 4

/-- R287: K-values of a group. -/
def groupSize (f : BitVec 4) : Nat := if f.toNat < 2 then 16 else 32

/-- R287: rows per group. -/
def rowsPerGroup (f : BitVec 4) : Nat := if kpm f = 8 then 8 else 16

/-- R287: the value of an element of a format. -/
def mmaVal (f : BitVec 4) (x : Nat) : Val :=
  match mmaFmt f with
  | some g => g.decode x
  | none => let n := signedOf 8 x; .fin (n < 0) n.natAbs 0

/-! ### Groups (R289 to R291) -/

/-- R289: a finite value in units of 2^-266; the products of every format are whole numbers of them. -/
def inUnits (neg : Bool) (m : Nat) (e : Int) : Int :=
  let n : Int := (m * 2 ^ (e + 266).toNat : Nat)
  if neg then -n else n

/-- What the products of one element add to a group: the sum, and whether it meets a NaN, +∞, −∞ or an invalid. -/
structure Partial where
  sum : Int
  nan : Bool
  pin : Bool
  nin : Bool
  nv  : Bool
deriving DecidableEq, Repr

/-- R299: one product added. -/
def Partial.step (p : Partial) (x y : Val) : Partial :=
  let p := if x.isSig || y.isSig then { p with nv := true } else p
  if x.isNan || y.isNan then { p with nan := true }
  else match x, y with
    | .fin n1 m1 e1, .fin n2 m2 e2 => { p with sum := p.sum + inUnits (n1 != n2) (m1 * m2) (e1 + e2) }
    | x, y =>
      if x.isZero || y.isZero then { p with nan := true, nv := true }
      else if x.neg == y.neg then { p with pin := true } else { p with nin := true }

/-- R289: P of element i of an accumulator. -/
def Acc.pAt (acc : Acc) (i : Nat) : Int := acc.p.getD i 0

/-- R290: the value a group adds to element i, with its flags. -/
def Acc.groupVal (acc : Acc) (i : Nat) : Nat × Flags :=
  let nan := acc.nanf.getLsbD i
  let pin := acc.pinf.getLsbD i
  let nin := acc.ninf.getLsbD i
  let nv : Flags := if pin && nin then fNV else 0
  let sa := if acc.fmt.toNat < 6 then some (1, 0)
    else scaleVal (decide (acc.fmt.toNat < 8)) (elemOf 32 acc.sa (i / 64))
  let sb := if acc.fmt.toNat < 6 then some (1, 0)
    else scaleVal (decide (acc.fmt.toNat < 8)) (elemOf 32 acc.sb (i % 64))
  match sa, sb with
  | some (m1, e1), some (m2, e2) =>
    if nan || (pin && nin) then (fp32.nan, nv)
    else if pin then (fp32.inf false, nv)
    else if nin then (fp32.inf true, nv)
    else
      let x := acc.pAt i
      if x = 0 then (0, nv)
      else
        let r := fp32.round .rne false (x < 0) (x.natAbs * m1 * m2) 1 (e1 + e2 - 266)
        (r.1, r.2 ||| nv)
  | _, _ => (fp32.nan, nv)

/-- R290: Close: every element gets its group's rounded sum; the flags of the close. -/
def Acc.close (acc : Acc) : Acc × Flags :=
  let rows := (List.finRange 64).map (fun m =>
    (List.range 64).map (fun n =>
      let g := acc.groupVal (64 * m.val + n)
      let c := fp32.add (elemOf 32 acc.rows[m] n) g.1
      (c.1, c.2 ||| g.2)))
  let fl := orFlags ((rows.map (fun r => orFlags (r.map (·.2)))))
  let vecs := rows.map (fun r => BitVec.ofNat 2048 (packElems 32 (r.map (·.1))))
  ({ acc with
    rows := Vector.ofFn (fun i : Fin 64 => vecs.getD i.val 0)
    isOpen := false, fmt := 0, cnt := 0, p := [], nanf := 0, pinf := 0, ninf := 0, nvf := false },
    fl ||| (if acc.nvf then fNV else 0))

/-- R291: an open group closed; a closed one left. -/
def Acc.closeIfOpen (acc : Acc) : Acc × Flags := if acc.isOpen then acc.close else (acc, 0)

/-- R291: the group discarded without adding it. -/
def Acc.discard (acc : Acc) : Acc :=
  { acc with isOpen := false, fmt := 0, cnt := 0, p := [], nanf := 0, pinf := 0, ninf := 0, nvf := false }

/-- R296, R299: every element +0. -/
def Acc.zeroRows (acc : Acc) : Acc := { acc with rows := Vector.replicate 64 0 }

/-- R299: a group opened with its format and its latched scales. -/
def Acc.openGroup (acc : Acc) (f : BitVec 4) (sa : Vec) : Acc :=
  { acc with isOpen := true, fmt := f, cnt := 0, p := [], nanf := 0, pinf := 0, ninf := 0, nvf := false
             sa := sa, sb := if 6 ≤ f.toNat then acc.bscl else acc.sb }

/-- R287: K-value j of row m of A. -/
def aElem (f : BitVec 4) (A : Vec) (m j : Nat) : Val :=
  mmaVal f (A.toNat >>> (32 * m + 32 / kpm f * j) % 2 ^ (32 / kpm f))

/-- R287: K-value j of column n of B, from rows t and t + 1. -/
def bElem (f : BitVec 4) (r0 r1 : BitVec 1024) (n j : Nat) : Val :=
  let w := 32 / kpm f
  let half := kpm f / 2
  let row := if j < half then r0 else r1
  mmaVal f (row.toNat >>> (16 * n + w * (j % half)) % 2 ^ w)

/-- R299: the products of one mma added to the open group. -/
def Acc.addProducts (acc : Acc) (f : BitVec 4) (A : Vec) (r0 r1 : BitVec 1024) : Acc :=
  let js := List.range (kpm f)
  let cols := (List.range 64).map (fun n => js.map (bElem f r0 r1 n))
  let parts := (List.range 64).map (fun m =>
    let row := js.map (aElem f A m)
    cols.map (fun col => (row.zip col).foldl (fun p xy => p.step xy.1 xy.2) ⟨0, false, false, false, false⟩))
  let flat := parts.flatten
  let bits (g : Partial → Bool) : BitVec 4096 := BitVec.ofNat 4096 (flat.foldr (fun p r => (if g p then 1 else 0) + 2 * r) 0)
  { acc with
    p := if acc.p.isEmpty then flat.map (·.sum) else (acc.p.zip flat).map (fun x => x.1 + x.2.sum)
    nanf := acc.nanf ||| bits (·.nan)
    pinf := acc.pinf ||| bits (·.pin)
    ninf := acc.ninf ||| bits (·.nin)
    nvf := acc.nvf || flat.any (·.nv) }

/-! ### Checks -/

/-- R282, R373: a matrix instruction on the staging core or on a firmware core takes ROLE. -/
def checkMatrixRole (a : Act) : Res Unit := require (!a.fw && !a.stg) cROLE 0

/-- R285: the issuing activation holds the claim of its tile. -/
def State.hasClaim (s : State) : Bool := (s.tile s.here.tile).claim == some s.cur

/-- R285: ROLE with fault value 1 without the claim. -/
def checkClaim (s : State) : Res Unit := require s.hasClaim cROLE 1

/-- R284: rows e7 to e7 + n − 1 lie in the tile store. -/
def checkRows (e7 : Word) (n : Nat) : Res Unit := do
  require (decide (e7.toNat < 2 ^ 16)) cBOUNDS e7
  require (decide (e7.toNat + n ≤ 65536)) cBOUNDS 65536

/-- R283: a row of the tile store. -/
def Tile.row (t : Tile) (r : Nat) : BitVec 1024 := (tabFind t.store r).getD 0

/-- R283, R299, R300: the lowest poisoned slice of rows t and t + 1, as its byte offset. -/
def Tile.poisonedRows (t : Tile) (r : Nat) : Option Nat :=
  (List.range 128).findSome? (fun i => if t.tsPoison.contains (64 * r + i) then some (128 * r + 2 * i) else none)

/-- R365: the poisoned slices of rows t and t + 1. -/
def State.poisonedSlices (s : State) (r : Nat) : List PoisonAt :=
  ((List.range 128).filter (fun i => (s.tile s.here.tile).tsPoison.contains (64 * r + i))).map
    (fun i => .store s.here.tile (128 * r + 2 * i))

/-- R299, R300: POISON of the slice at a byte offset of rows r and r + 1. -/
def State.slicePoison (s : State) (r off : Nat) : Trap :=
  { trapOf cPOISON (BitVec.ofNat 64 off) with bytes := s.poisonedSlices r }

/-- The accumulator of a field. -/
def Tile.acc (t : Tile) (n : BitVec 5) : Acc := t.accs[n.toNat % 4]'(Nat.mod_lt _ (by decide))

/-- The state with an accumulator of the issuing tile replaced. -/
def State.setAcc (s : State) (n : BitVec 5) (acc : Acc) : State :=
  let t := s.tile s.here.tile
  s.setTile s.here.tile { t with accs := t.accs.set (n.toNat % 4) acc (Nat.mod_lt _ (by decide)) }

/-- R290: accumulator n's open group closed, its flags raised. -/
def State.closeAcc (s : State) (n : BitVec 5) : State :=
  let (acc, fl) := ((s.tile s.here.tile).acc n).closeIfOpen
  (s.setAcc n acc).raiseFlags fl

/-- R344: a write of tile-store rows releases the sourced regions it touches, a change for the next epoch (R340). -/
def State.writeRows (s : State) (tile r : Nat) (rows : List (BitVec 1024)) : State :=
  let t := s.tile tile
  let n := rows.length
  let apart (g : Region) : Bool := g.isLm || decide (r + n ≤ g.base) || decide (g.base + g.len ≤ r)
  s.setTile tile { t with
    store := ((List.range n).zip rows).foldl (fun m x => tabSet m (r + x.1) x.2) t.store
    tsPoison := t.tsPoison.filter (fun w => decide (w / 64 < r) || decide (r + n ≤ w / 64))
    sourced := t.sourced.filter apart
    dirty := t.dirty || !t.sourced.all apart }

/-! ### Effects of majors 0x34 to 0x36 -/

/-- R296: macq. A blocked macq completes when the claim is granted to it. -/
def matAcquire (s : State) : Res State := do
  checkMatrixRole s.here
  let t := s.tile s.here.tile
  match t.claim with
  | none => return s.grantClaim s.here.tile s.cur
  | some k =>
    if k = s.cur then return s
    else return (s.setTile s.here.tile { t with waiters := t.waiters ++ [s.cur] }).block s.cur .claim 4 0

/-- R291, R296: every open group closed and the claim released. -/
def matRelease (s : State) : Res State := do
  checkMatrixRole s.here
  if s.hasClaim then
    return ((((s.closeAcc 0).closeAcc 1).closeAcc 2).closeAcc 3).dropClaim s.here.tile
  else return s

/-- R296: mzero. -/
def matZero (n : BitVec 5) (s : State) : Res State := do
  checkMatrixRole s.here
  checkClaim s
  let s := s.closeAcc n
  return s.setAcc n ((s.tile s.here.tile).acc n).zeroRows

/-- R296: mrd. -/
def matRead (d n b : BitVec 5) (s : State) : Res State := do
  checkMatrixRole s.here
  vectorInstr [] [d] (fun s => do
    checkClaim s
    require (decide ((s.w b).toNat < 64)) cBOUNDS (s.w b)) (fun _ s =>
    let i := (s.w b).toNat % 64
    let s := s.closeAcc n
    .ok (s.writeField d (((s.tile s.here.tile).acc n).rows[i]'(Nat.mod_lt _ (by decide))))) s

/-- R296: mwr. -/
def matWrite (n a b : BitVec 5) (s : State) : Res State := do
  checkMatrixRole s.here
  vectorInstr [a] [] (fun s => do
    checkClaim s
    require (decide ((s.w b).toNat < 64)) cBOUNDS (s.w b)) (fun xs s =>
    let i := (s.w b).toNat % 64
    let s := s.closeAcc n
    let acc := (s.tile s.here.tile).acc n
    .ok (s.setAcc n { acc with rows := acc.rows.set i (xs.headD 0) (Nat.mod_lt _ (by decide)) })) s

/-- R296: mscl. -/
def matScale (n a : BitVec 5) (s : State) : Res State := do
  checkMatrixRole s.here
  vectorInstr [a] [] checkClaim (fun xs s =>
    .ok (s.setAcc n { (s.tile s.here.tile).acc n with bscl := xs.headD 0 })) s

/-- R297: the summary of an accumulator. -/
def Acc.summary (acc : Acc) : Word :=
  (0 : BitVec 36) ++ BitVec.ofBool acc.inj ++ (if acc.isOpen then acc.fmt else 0) ++
    BitVec.ofNat 6 (if acc.isOpen then acc.cnt else 0) ++ BitVec.ofBool acc.isOpen ++ acc.rerun

/-- R297: mchk. -/
def matCheck (d n : BitVec 5) (s : State) : Res State := do
  checkMatrixRole s.here
  checkClaim s
  return s.setW d ((s.tile s.here.tile).acc n).summary

/-- R294, R296: sset. -/
def matSkip (a : BitVec 5) (s : State) : Res State := do
  checkMatrixRole s.here
  return s.updHere (fun x => x.setE 6 (x.wreg a))

/-- R294: the skip entry at e6. An e6 of more than 22 bits takes BOUNDS, even where it is odd (DEDUCED, log 96). -/
def readSkip (s : State) : Res Nat := do
  let e6 := s.here.ereg 6
  require (decide (e6.toNat < 2 ^ 22)) cBOUNDS e6
  require (!e6.getLsbD 0) cALIGN e6
  loadLocal s e6 2

/-- R299: the group an mma of a format finds: its accumulator after init and a format change, the flags of the
close, and whether it opens a group. -/
def Acc.ready (acc : Acc) (f : BitVec 4) (init : Bool) : Acc × Flags × Bool :=
  let acc := if init then acc.discard.zeroRows else acc
  let (acc, fl) := if acc.isOpen && acc.fmt != f then acc.close else (acc, 0)
  (acc, fl, !acc.isOpen)

/-- Whether an mma opens a group, before anything closes (R291). -/
def Acc.willOpen (acc : Acc) (f : BitVec 4) (init : Bool) : Bool := init || !acc.isOpen || acc.fmt != f

/-- R294: e6 and e7 after the skip entry of an mma that opens a group. -/
def skipPointers (s : State) (f : BitVec 4) (opening sp : Bool) : Res (Word × Word) := do
  let a := s.here
  if opening && sp then
    let n ← readSkip s
    return (a.ereg 6 + 2, a.ereg 7 + BitVec.ofNat 64 (n * rowsPerGroup f))
  else return (a.ereg 6, a.ereg 7)

/-- R361: the charge of an mma, charged again for a rerun. -/
def mmaCharge (f : BitVec 4) : Nat :=
  if f.toNat < 2 then 128
  else (if kpm f = 8 then 96 else 112) + (if 6 ≤ f.toNat then 8 else 0)

/-- R357: ageing counter i of a PT raised. -/
def State.raiseAgeing (s : State) (pt i : Nat) : State :=
  let p := s.pt pt
  s.setPt pt { p with ageing := tabSet p.ageing i ((tabFind p.ageing i).getD 0 + 1) }

/-- R292, R356: a mismatch that was not injected is counted and followed by a targeted self-test. -/
def State.countMismatch (s : State) : State :=
  let pt := s.ptKey s.here.tile
  let s := { (s.raiseAgeing pt 17) with upset := s.upset - 1 }
  s.setPt pt { s.pt pt with testDue := true }

/-- R292, R293: what the checksums find: the state after its counts, the number of mismatches (0 to 2) and whether
the last was injected. -/
def State.mismatches (s : State) : State × Nat × Bool :=
  let inj := min s.here.mxinj.toNat 2
  if inj = 2 then (s, 2, true)
  else if inj = 1 then
    if s.upset = 0 then (s, 1, true) else (s.countMismatch, 2, false)
  else if s.upset = 0 then (s, 0, false)
  else
    let s := s.countMismatch
    if s.upset = 0 then (s, 1, false) else (s.countMismatch, 2, false)

/-- R360, R370: a charge taken from the reserve of a tile and added to its power counter. -/
def Tile.charge (t : Tile) (n : Nat) : Tile :=
  { t with
    reserve := t.reserve - (n : Int)
    units := (t.units + n) % 64
    power0 := t.power0 + BitVec.ofNat 64 ((t.units + n) / 64) }

/-- R361: the charge of a rerun taken. -/
def State.chargeRerun (s : State) (f : BitVec 4) : State :=
  s.setTile s.here.tile ((s.tile s.here.tile).charge (mmaCharge f))

/-- R131, R292, R299: a fault that an issued `mma` finds: taken at a later boundary, the `mma` having no effect but its pops. -/
def State.lateFault (s : State) (t : Trap) : State :=
  let x := s.here.status
  s.request (.matrix t.cause.code t.value t.bytes x.rep x.reppos x.repdone) 3 [] .none

/-- R299: mma. The checks in their order; then the products, the checksum compare and rerun (R292), the close of a
full group and the step of e7. -/
def matMultiply (d a b : BitVec 5) (f : BitVec 4) (inc sp init : Bool) (s : State) : Res State := do
  checkMatrixRole s.here
  let opening := ((s.tile s.here.tile).acc d).willOpen f init
  let scaled := decide (6 ≤ f.toNat)
  let srcs := if scaled && opening then [a, b] else [a]
  let fields := if scaled then [a, b] else [a]
  checkQueues s.here fields []
  vectorInstr srcs [] (fun s => do
    checkClaim s
    let (_, e7) ← skipPointers s f opening sp
    checkRows e7 2) (fun xs s => do
    let (e6, e7) ← skipPointers s f opening sp
    let t := s.tile s.here.tile
    let r := e7.toNat
    match t.poisonedRows r with
    | some off => return (s.updHere (fun x => { x with mxinj := 0 })).lateFault (s.slicePoison r off)
    | none =>
      let (s, bad, injected) := s.mismatches
      let s := s.updHere (fun x => { x with mxinj := 0 })
      if bad = 2 then
        let value : Word := BitVec.ofNat 64 (d.toNat % 4 + (if injected then 256 else 0))
        return (s.chargeRerun f).lateFault (trapOf cMATRIX value)
      else
        let (acc, fl, _) := (t.acc d).ready f init
        let acc := if opening then acc.openGroup f (if scaled then xs.getD 1 0 else acc.sa) else acc
        let acc := acc.addProducts f (xs.headD 0) (t.row r) (t.row (r + 1))
        let acc := { acc with cnt := acc.cnt + kpm f }
        let acc := if bad = 0 then acc else
          { acc with rerun := if acc.rerun = 0xFFFF then 0xFFFF else acc.rerun + 1, inj := injected }
        let (acc, fl2) := if acc.cnt = groupSize f then acc.close else (acc, 0)
        let s := (s.setAcc d acc).raiseFlags (fl ||| fl2)
        let s := if bad = 0 then s else s.chargeRerun f
        return s.updHere (fun x => (x.setE 6 e6).setE 7 (if inc then e7 + 2 else e7))) s

/-- R300: tsld. -/
def tsLoad (d : BitVec 5) (s : State) : Res State := do
  checkMatrixRole s.here
  vectorInstr [] [d] (fun s => do
    let e7 := s.here.ereg 7
    checkRows e7 2
    match (s.tile s.here.tile).poisonedRows e7.toNat with
    | some off => .error (s.slicePoison e7.toNat off)
    | none => .ok ()) (fun _ s =>
    let t := s.tile s.here.tile
    let r := (s.here.ereg 7).toNat
    .ok (s.writeField d ((t.row (r + 1) ++ t.row r : BitVec 2048)))) s

/-- R300, R352, R354: rows written with the two halves of a vector, and folded; a replica's are discarded. No row pair
written leaves everything as it is. -/
def State.storePairs (s : State) (r n : Nat) (x : Vec) : State :=
  let lo : BitVec 1024 := x.setWidth 1024
  let hi : BitVec 1024 := (x >>> 1024).setWidth 1024
  let pair := leBytes 128 lo.toNat ++ leBytes 128 hi.toNat
  if n = 0 then s else
  let s := s.fold (0x05 :: leBytes 8 r ++ (List.replicate n pair).flatten)
  if s.here.replica then s
  else s.writeRows s.here.tile r ((List.range n).map (fun _ => [lo, hi])).flatten

/-- R300: tsst. -/
def tsStore (a : BitVec 5) (s : State) : Res State := do
  checkMatrixRole s.here
  vectorInstr [a] [] (fun s => checkRows (s.here.ereg 7) 2) (fun xs s =>
    .ok (s.storePairs (s.here.ereg 7).toNat 1 (xs.headD 0))) s

/-- R300: tsfill. -/
def tsFill (a b : BitVec 5) (s : State) : Res State := do
  checkMatrixRole s.here
  vectorInstr [a] [] (fun s => do
    let e7 := s.here.ereg 7
    require (decide (e7.toNat < 2 ^ 16)) cBOUNDS e7
    require (decide (e7.toNat + 2 * (s.w b).toNat ≤ 65536)) cBOUNDS 65536) (fun xs s =>
    .ok (s.storePairs (s.here.ereg 7).toNat ((s.w b).toNat) (xs.headD 0))) s

end Sys2Proof.Machine
end

