-- ==== Sys2Proof/Machine/Pure.lean ====
section
/-! DEFINITION. The operations that only compute on registers: their kinds as plain data (so that a recipe or a
repetition block can hold them, R82, R113), what each computes, which registers it reads and writes (R114, R116),
their decoding from a word, and recipes: replay and pinning (R116 to R119). -/

namespace Sys2Proof.Machine

/-- R37: the operations of major 0x08, and of the forms with its effects. -/
inductive IntOp where
  | add | sub | and | or | xor | andn | shl | shr | sha | ror | mul | mulh | mulhu | div | divu | rem | remu
  | min | max | minu | maxu | slt | sltu | seq | clz | ctz | popc | brev | bswap | sext | zext
  | adds1 | adds2 | adds3 | vta | sel
deriving DecidableEq, Repr

/-- The operations in the order of their codes (R37). -/
def intOps : List IntOp :=
  [.add, .sub, .and, .or, .xor, .andn, .shl, .shr, .sha, .ror, .mul, .mulh, .mulhu, .div, .divu, .rem, .remu] ++
  [.min, .max, .minu, .maxu, .slt, .sltu, .seq, .clz, .ctz, .popc, .brev, .bswap, .sext, .zext] ++
  [.adds1, .adds2, .adds3, .vta, .sel]

/-- R90: the zero bits above the highest set bit of an n-bit value. -/
def leadingZeros (n x : Nat) : Nat := if x = 0 then n else n - 1 - Nat.log2 x

/-- R90: the zero bits below the lowest set bit. -/
def trailingZeros (n x : Nat) : Nat := ((List.range n).find? (fun i => x.testBit i)).getD n

/-- R90: the number of set bits. -/
def bitCount (n x : Nat) : Nat := ((List.range n).filter (fun i => x.testBit i)).length

/-- R90: the bits reversed. -/
def bitReverse (n x : Nat) : Nat :=
  (List.range n).foldl (fun r i => 2 * r + (if x.testBit i then 1 else 0)) 0

/-- R90: the bytes reversed. -/
def byteReverse (n x : Nat) : Nat :=
  (List.range (n / 8)).foldl (fun r i => 256 * r + x / 256 ^ i % 256) 0

/-- R90, R91: the exact result r of an operation at width N on the unsigned readings of A and B; the final
assignment of R89 keeps its low N bits. `d` is the old wd, `k` the b field. -/
def intResult (op : IntOp) (N A B d k : Nat) : Int :=
  let a := signedOf N A
  let b := signedOf N B
  let s := B % N
  match op with
  | .add => A + B
  | .sub => (A : Int) - B
  | .and => (A &&& B : Nat)
  | .or => (A ||| B : Nat)
  | .xor => (A ^^^ B : Nat)
  | .andn => (A &&& (B ^^^ (2 ^ N - 1)) : Nat)
  | .shl => (A * 2 ^ s : Nat)
  | .shr => (A / 2 ^ s : Nat)
  | .sha => Int.fdiv a (2 ^ s : Nat)
  | .ror => (A / 2 ^ s + A * 2 ^ (N - s) : Nat)
  | .mul => (A * B : Nat)
  | .mulh => Int.fdiv (a * b) (2 ^ N : Nat)
  | .mulhu => (A * B / 2 ^ N : Nat)
  | .div => if B = 0 then -1 else Int.tdiv a b
  | .divu => if B = 0 then -1 else (A / B : Nat)
  | .rem => if B = 0 then a else Int.tmod a b
  | .remu => if B = 0 then A else (A % B : Nat)
  | .min => if a ≤ b then a else b
  | .max => if a ≥ b then a else b
  | .minu => if A ≤ B then A else B
  | .maxu => if A ≥ B then A else B
  | .slt => if a < b then 1 else 0
  | .sltu => if A < B then 1 else 0
  | .seq => if A = B then 1 else 0
  | .clz => leadingZeros N A
  | .ctz => trailingZeros N A
  | .popc => bitCount N A
  | .brev => bitReverse N A
  | .bswap => byteReverse N A
  | .sext => signedOf (8 * 2 ^ k) A
  | .zext => (A % 2 ^ (8 * 2 ^ k) : Nat)
  | .adds1 => (A + 2 * B : Nat)
  | .adds2 => (A + 4 * B : Nat)
  | .adds3 => (A + 8 * B : Nat)
  | .vta => (A % 2 ^ 15 * 2 ^ 22 + B % 2 ^ 22 : Nat)
  | .sel => if d ≠ 0 then A else B

/-- R89: an operation of major 0x08 on 64-bit registers, W forms on the low 32 bits with a sign-extended result. -/
def intOp (op : IntOp) (w : Bool) (a b d : Word) (k : Nat) : Word :=
  if w then BitVec.ofInt 64 (signedOf 32 (lowBits 32 (intResult op 32 (a.toNat % 2 ^ 32) (b.toNat % 2 ^ 32) d.toNat k)))
  else BitVec.ofInt 64 (intResult op 64 a.toNat b.toNat d.toNat k)

/-- R93, R95: the immediate operations. -/
inductive ImmOp where
  | addi | andi | ori | xori
deriving DecidableEq, Repr

/-- R93: the result of an immediate operation. -/
def immOp (op : ImmOp) (a : Word) (imm : BitVec 14) : Word :=
  match op with
  | .addi => a + imm.signExtend 64
  | .andi => a &&& imm.setWidth 64
  | .ori => a ||| imm.setWidth 64
  | .xori => a ^^^ imm.setWidth 64

/-! ### Vector operations (R267 to R280) -/

/-- R267: the integer vector operations in the order of their codes. -/
inductive VIntOp where
  | add | sub | mul | mulh | min | max | minu | maxu | and | or | xor | shl | shr | sha | addsat | subsat
deriving DecidableEq, Repr

/-- R267: the codes. -/
def vintOps : List VIntOp :=
  [.add, .sub, .mul, .mulh, .min, .max, .minu, .maxu, .and, .or, .xor, .shl, .shr, .sha, .addsat, .subsat]

/-- R267: the result of an integer vector operation on W-bit elements. -/
def vintResult (op : VIntOp) (W A B : Nat) : Nat :=
  let a := signedOf W A
  let b := signedOf W B
  let s := B % W
  lowBits W (match op with
    | .add => A + B
    | .sub => (A : Int) - B
    | .mul => (A * B : Nat)
    | .mulh => Int.fdiv (a * b) (2 ^ W : Nat)
    | .min => if a ≤ b then a else b
    | .max => if a ≥ b then a else b
    | .minu => if A ≤ B then A else B
    | .maxu => if A ≥ B then A else B
    | .and => (A &&& B : Nat)
    | .or => (A ||| B : Nat)
    | .xor => (A ^^^ B : Nat)
    | .shl => (A * 2 ^ s : Nat)
    | .shr => (A / 2 ^ s : Nat)
    | .sha => Int.fdiv a (2 ^ s : Nat)
    | .addsat => clampInt W true (a + b)
    | .subsat => clampInt W true (a - b))

/-- R270: the floating-point vector operations in the order of their codes. -/
inductive VFpOp where
  | add | sub | mul | ma | ms | nma | min | max | div | sqrt | rsqe | rcpe | abs | neg | cpys | class
deriving DecidableEq, Repr

/-- R270: the codes. -/
def vfpOps : List VFpOp :=
  [.add, .sub, .mul, .ma, .ms, .nma, .min, .max, .div, .sqrt, .rsqe, .rcpe, .abs, .neg, .cpys, .class]

/-- R268: the element format of esz. -/
def eszFmt (e : BitVec 2) : Fmt := if e = 0 then bf16 else if e = 1 then fp16 else if e = 2 then fp32 else fp64

/-- R270 to R274: the result of a floating-point vector operation. -/
def vfpResult (op : VFpOp) (f : Fmt) (d a b : Nat) : Nat × Flags :=
  match op with
  | .add => f.add a b
  | .sub => f.sub a b
  | .mul => f.mul a b
  | .ma => f.fma d a b false false
  | .ms => f.fma d a b true false
  | .nma => f.fma d a b false true
  | .min => f.minMax false a b
  | .max => f.minMax true a b
  | .div => f.div a b
  | .sqrt => f.sqrt a
  | .rsqe => f.rsqe a
  | .rcpe => f.rcpe a
  | .abs => (a % 2 ^ (f.bits - 1), 0)
  | .neg => (a ^^^ 2 ^ (f.bits - 1), 0)
  | .cpys => (a % 2 ^ (f.bits - 1) + f.sign (b.testBit (f.bits - 1)), 0)
  | .class => (f.classify a, 0)

/-- R270: the operation reads d, b. -/
def VFpOp.readsD : VFpOp → Bool
  | .ma => true | .ms => true | .nma => true | _ => false

/-- R268: the operation reads b. -/
def VFpOp.readsB : VFpOp → Bool
  | .sqrt => false | .rsqe => false | .rcpe => false | .abs => false | .neg => false | .class => false | _ => true

/-- R275: the moves and permutes, vext and vins apart. -/
inductive VMovOp where
  | mov | bcst | sel | perm | rot | zip | unzip | iota
deriving DecidableEq, Repr

/-- R275: element k of a move or permute. -/
def vmovResult (op : VMovOp) (W : Nat) (A B : Vec) (b : Word) (act : Bool) (k : Nat) : Nat :=
  let E := elemCount W
  match op with
  | .mov => elemOf W A k
  | .bcst => b.toNat % 2 ^ W
  | .sel => if act then elemOf W A k else elemOf W B k
  | .perm => elemOf W A (elemOf W B k % E)
  | .rot => elemOf W A ((k + b.toNat) % E)
  | .zip => if k % 2 = 0 then elemOf W A (k / 2) else elemOf W B ((k - 1) / 2)
  | .unzip => if k < E / 2 then elemOf W A (2 * k) else elemOf W B (2 * k - E)
  | .iota => k

/-- R277: the integer reductions in the order of their codes, and the floating-point ones. -/
inductive VRedOp where
  | add | max | min | maxu | minu | fadd | fmax | fmin | popc | first
deriving DecidableEq, Repr

/-- R277: the codes. -/
def vredOps : List VRedOp := [.add, .max, .min, .maxu, .minu, .fadd, .fmax, .fmin, .popc, .first]

/-- R277: an integer reduction of the active elements (index, value). -/
def vredResult (op : VRedOp) (W : Nat) (l : List (Nat × Nat)) : Word :=
  match op with
  | .add => BitVec.ofInt 64 (l.foldl (fun s x => s + signedOf W x.2) 0)
  | .max => BitVec.ofInt 64 (l.foldl (fun s x => max s (signedOf W x.2)) (-(2 ^ (W - 1) : Nat)))
  | .min => BitVec.ofInt 64 (l.foldl (fun s x => min s (signedOf W x.2)) ((2 ^ (W - 1) : Nat) - 1))
  | .maxu => BitVec.ofNat 64 (l.foldl (fun s x => max s x.2) 0)
  | .minu => BitVec.ofNat 64 (l.foldl (fun s x => min s x.2) (2 ^ W - 1))
  | .popc => BitVec.ofNat 64 (l.foldl (fun s x => s + bitCount W x.2) 0)
  | .first => ((l.find? (fun x => x.2 != 0)).map (fun x => BitVec.ofNat 64 x.1)).getD (BitVec.allOnes 64)
  | _ => 0

/-- R278: one operand of the tree: its encoding, or absent, and the lowest index of the active elements that feed it, past
every element where none does (log 25). -/
abbrev Leaf' := Option Nat × Nat

/-- R278: Op(x, y), its flags, and the lowest element index of its operands. -/
def treeOp (op : VRedOp) (f : Fmt) (x y : Leaf') : Leaf' × Flags :=
  match x.1, y.1 with
  | none, _ => ((y.1, min x.2 y.2), 0)
  | _, none => ((x.1, min x.2 y.2), 0)
  | some a, some b =>
    let r := match op with
      | .fadd => f.add a b
      | .fmax => f.minMax true a b
      | _ => f.minMax false a b
    ((some r.1, min x.2 y.2), r.2)

/-- R278: one round: element i with element i + s, and the steps' flags in order with their indices. -/
def treeRound (op : VRedOp) (f : Fmt) (l : List Leaf') (s : Nat) : List Leaf' × List (Nat × Flags) :=
  let r := ((l.take s).zip (l.drop s)).map (fun p => treeOp op f p.1 p.2)
  (r.map (·.1), r.map (fun x => (x.1.2, x.2)))

/-- R278: the rounds of decreasing s. -/
def treeRounds (op : VRedOp) (f : Fmt) : Nat → List Leaf' → List Leaf' × List (Nat × Flags)
  | 0, l => (l, [])
  | n + 1, l =>
    let (l, a) := treeRound op f l (2 ^ n)
    let (l, b) := treeRounds op f n l
    (l, a ++ b)

/-- R278: exact widening of BF16 or FP16 to FP32; a NaN keeps its kind, and its sign and payload are those of the model
(DESIGN CHOICE, log 100). -/
def widen (f : Fmt) (x : Nat) : Nat :=
  match f.decode x with
  | .nan s => if s then 0x7F800001 else 0x7FC00000
  | .inf n => fp32.inf n
  | .fin n m e => if m = 0 then fp32.sign n else (fp32.round .rne false n m 1 e).1

/-- R278: a floating-point reduction: the encoding of the result and the flags of every step with their indices. -/
def fpReduce (op : VRedOp) (e : BitVec 2) (A : Vec) (mask : Word) : Nat × List (Nat × Flags) :=
  let f := eszFmt e
  let W := f.bits
  let enter (k : Nat) : Leaf' :=
    if isActive W mask k then (some (elemOf W A k), k)
    else if op = .fadd then (some 0, 256) else (none, 256)
  let wide (x : Leaf') : Leaf' := (x.1.map (widen f), x.2)
  let empty (g : Fmt) : Nat := if op = .fmax then g.inf true else if op = .fmin then g.inf false else 0
  if e.toNat ≤ 1 then
    let r := (List.range 64).map (fun i => treeOp op fp32 (wide (enter (2 * i))) (wide (enter (2 * i + 1))))
    let (l, fl) := treeRounds op fp32 6 (r.map (·.1))
    (((l.headD (none, 0)).1).getD (empty fp32), r.map (fun x => (x.1.2, x.2)) ++ fl)
  else
    let (l, fl) := treeRounds op f (if e = 2 then 6 else 5) ((List.range (elemCount W)).map enter)
    (((l.headD (none, 0)).1).getD (empty f), fl)

/-- R279: the mask a compare writes: bit i when lane i is active and every element of it compares true; both bits
of a 64-bit element. -/
def compareMask (W : Nat) (mask : Word) (t : Nat → Bool) : Word :=
  BitVec.ofNat 64 (((List.range 64).foldr (fun i r => (if
    (if W = 64 then mask.getLsbD (2 * (i / 2)) && t (i / 2)
     else mask.getLsbD i && (List.range (32 / W)).all (fun j => t (32 / W * i + j))) then 1 else 0) + 2 * r) 0))

/-- R279: an integer compare. -/
def intCompare (op : Nat) (W A B : Nat) : Bool :=
  match op with
  | 0 => A == B
  | 1 => A != B
  | 2 => decide (signedOf W A < signedOf W B)
  | 3 => decide (signedOf W A ≤ signedOf W B)
  | 4 => decide (A < B)
  | _ => decide (A ≤ B)

/-- R280: the mask operations. -/
inductive MaskOp where
  | and | or | xor | andn | not | firstn | cnt
deriving DecidableEq, Repr

/-! ### The operations as data -/

/-- The register-only operations, with their raw fields. -/
inductive PureOp where
  | int (op : IntOp) (d a b : BitVec 5) (w : Bool)
  | imm (op : ImmOp) (d a : BitVec 5) (imm : BitVec 14)
  | lih (d : BitVec 5) (imm : BitVec 19)
  | shift (op : IntOp) (d a : BitVec 5) (w : Bool) (amt : BitVec 6)
  | ldl (t a : BitVec 5) (ord sz : BitVec 2) (off : BitVec 10)
  | vldl (form : Nat) (d a b : BitVec 5) (m : BitVec 3) (esz : BitVec 2)
  | vint (scalar : Bool) (op : VIntOp) (d a b : BitVec 5) (m : BitVec 3) (esz : BitVec 2)
  | vfp (scalar : Bool) (op : VFpOp) (d a b : BitVec 5) (m : BitVec 3) (esz : BitVec 2)
  | vmov (op : VMovOp) (d a b : BitVec 5) (m : BitVec 3) (esz : BitVec 2)
  | vext (d a b : BitVec 5) (esz : BitVec 2)
  | vins (d a b : BitVec 5) (esz : BitVec 2)
  | vred (op : VRedOp) (d a : BitVec 5) (m : BitVec 3) (esz : BitVec 2)
  | vcmp (op : Nat) (d a b : BitVec 5) (m : BitVec 3) (esz : BitVec 2)
  | mask (op : MaskOp) (d a b : BitVec 5)
  | vcvt (d a : BitVec 5) (rm : BitVec 3) (dst src : BitVec 4) (sat : Bool)
  | qnt (d a b : BitVec 5) (tgt rm : BitVec 3) (sat : Bool)
  | dqt (d a b : BitVec 5) (tgt : BitVec 3)
  | bamax (d a : BitVec 5)
  | scld (d a : BitVec 5) (tgt : BitVec 3)
  | mzero (a : BitVec 5)
  | mrd (d a b : BitVec 5)
  | mwr (d a b : BitVec 5)
  | mscl (d a : BitVec 5)
  | mchk (d a : BitVec 5)
  | sset (a : BitVec 5)
  | mma (d a b : BitVec 5) (fmt : BitVec 4) (inc sp init : Bool)
  | tsld (d : BitVec 5)
  | tsst (a : BitVec 5)
  | tsfill (a b : BitVec 5)
deriving DecidableEq, Repr

/-- R254: results placed in vd: replaced, or a narrowing's shifted in from the top. -/
def placeResults (old : Vec) (P Y : Nat) : Vec :=
  if P = 2048 then BitVec.ofNat 2048 Y else BitVec.ofNat 2048 (old.toNat >>> P + Y * 2 ^ (2048 - P))

/-- R255: vcvt. -/
def convertVec (d a : BitVec 5) (rm : BitVec 3) (dst src : BitVec 4) (sat : Bool) : State → Res State :=
  vectorInstr [a] [d] noPre (fun xs s => do
    let S := cvtFmt src
    let T := cvtFmt dst
    let N := 2048 / max S.bits T.bits
    let (rms, l) := roundings rm N s.here.seed
    let x := xs.headD 0
    let ys := ((List.range N).zip rms).map (fun k => convert (elemOf S.bits x k.1) S T k.2 sat)
    checkInvalid s.here (ys.map (·.2))
    let P := if T.bits < S.bits then N * T.bits else 2048
    let y := placeResults (s.here.vfield d) P (packElems T.bits (ys.map (·.1)))
    let s := s.writeField d y
    return (s.updHere (fun a => { a with seed := l })).raiseFlags (orFlags (ys.map (·.2))))

/-- R257: A_h of bamax, over 32 FP32 lanes. -/
def blockMax (x : Vec) (h : Nat) : Nat :=
  let l := (List.range 32).map (fun i => elemOf 32 x (32 * h + i))
  if l.any (fun y => (fp32.decode y).isNan) then 0x7FC00000
  else l.foldl (fun m y => max m (y % 2 ^ 31)) 0

/-- R257: bamax. -/
def bamaxVec (d a : BitVec 5) : State → Res State :=
  vectorInstr [a] [] noPre (fun xs s =>
    let x := xs.headD 0
    .ok (s.setW d (BitVec.ofNat 64 (blockMax x 1 * 2 ^ 32 + blockMax x 0))))

/-- R257: the scale code of one half of scld. -/
def scaleCode (t : BitVec 3) (x : Nat) : Nat :=
  match fp32.decode (x % 2 ^ 31) with
  | .fin _ m e => derive t m e
  | _ => scaleNan t

/-- R257: scld. -/
def scldOp (d a : BitVec 5) (t : BitVec 3) (s : State) : Res State :=
  let x := (s.w a).toNat
  .ok (s.setW d (BitVec.ofNat 64 (scaleCode t (x / 2 ^ 32) * 2 ^ 16 + scaleCode t (x % 2 ^ 32))))

/-- R258: one block of qnt: its scale code, its elements and their flags, and whether it raises NV. -/
def quantBlock (t : BitVec 3) (sat : Bool) (xs : List Nat) (rms : List Rounding) : Nat × List Nat × Flags × Bool :=
  let vs := xs.map fp32.decode
  let hasInf := vs.any (fun v => match v with | .inf _ => true | _ => false)
  if vs.any (·.isNan) || (!sat && hasInf) then (scaleNan t, xs.map (fun _ => 0), fNV, true)
  else
    let top := (xs.zip vs).foldl (fun m x => match x.2 with | .fin _ _ _ => max m (x.1 % 2 ^ 31) | _ => m) 0
    let c := scaleCode t top
    let (sm, se) := (scaleVal (sbTarget t) c).getD (1, 0)
    let one (v : Val) (rm : Rounding) : Nat × Flags :=
      match v, targetFmt t with
      | .fin n m e, some f => if m = 0 then (f.sign n, 0) else f.round rm true n m sm (e - se)
      | .fin n m e, none =>
        let (lo, r, d) := scaleDiv m sm (e - se + 6)
        let mag : Int := ((if roundsUp rm n lo r d then lo + 1 else lo : Nat) : Int)
        let y := if n then -mag else mag
        let z := clampInt 8 true y
        (lowBits 8 z, if z = y then (if r = 0 then 0 else fNX) else fNX)
      | v, some f => (f.sign v.neg + f.maxCode, 0)
      | v, none => (lowBits 8 (if v.neg then -127 else 127), 0)
    let ys := (vs.zip rms).map (fun x => one x.1 x.2)
    (c, ys.map (·.1), orFlags (ys.map (·.2)), false)

/-- R258: qnt. -/
def quantVec (d a b : BitVec 5) (t rm : BitVec 3) (sat : Bool) : State → Res State :=
  vectorInstr [a] [] noPre (fun xs s => do
    let x := xs.headD 0
    let (rms, l) := roundings rm 64 s.here.seed
    let lanes (h : Nat) := (List.range 32).map (fun i => elemOf 32 x (32 * h + i))
    let (c0, y0, f0, n0) := quantBlock t sat (lanes 0) (rms.take 32)
    let (c1, y1, f1, n1) := quantBlock t sat (lanes 1) (rms.drop 32)
    require (!(s.here.trapnv && (n0 || n1))) cFPINVALID (if n0 then 0 else 32)
    let W := targetBits t
    let s := s.updHere (fun z => ((z.setV (d.setWidth 4)
      (placeResults (z.vfield d) (64 * W) (packElems W (y0 ++ y1)))).setW b (BitVec.ofNat 64 (c1 * 2 ^ 16 + c0))))
    return (s.updHere (fun z => { z with seed := l })).raiseFlags (f0 ||| f1))

/-- R259: one lane of dqt. -/
def dequant (t : BitVec 3) (x c : Nat) : Nat × Flags :=
  match scaleVal (sbTarget t) c with
  | none => (fp32.nan, 0)
  | some (sm, se) =>
    match targetFmt t with
    | some f =>
      match f.decode x with
      | .nan _ => (fp32.nan, 0)
      | .inf n => (fp32.inf n, 0)
      | .fin n m e => if m = 0 then (fp32.sign n, 0) else fp32.round .rne false n (m * sm) 1 (e + se)
    | none =>
      let q := signedOf 8 x
      if q = 0 then (0, 0) else fp32.round .rne false (q < 0) (q.natAbs * sm) 1 (se - 6)

/-- R259: dqt. -/
def dequantVec (d a b : BitVec 5) (t : BitVec 3) : State → Res State :=
  vectorInstr [a] [d] noPre (fun xs s =>
    let x := xs.headD 0
    let wb := (s.w b).toNat
    let W := targetBits t
    let ys := (List.range 64).map (fun k => dequant t (elemOf W x k) (wb / 2 ^ (16 * (k / 32)) % 2 ^ 16))
    let s := s.writeField d (BitVec.ofNat 2048 (packElems 32 (ys.map (·.1))))
    .ok (s.raiseFlags (orFlags (ys.map (·.2)))))

/-- R143: a vector load of own LM. -/
def loadVec (form : Nat) (d a b : BitVec 5) (m : BitVec 3) (esz : BitVec 2) : State → Res State :=
  vectorInstr (if form = 2 then [b] else []) [d] noPre (fun xs s => do
    let n := 2 ^ esz.toNat
    let addr := elemAddr form n (s.w a) (s.w b) (xs.headD 0)
    let ts ← checkElems s .l .load (elemAddrs n (s.here.mreg m) addr) n
    let x ← loadElems s (s.here.vfield d) n ts
    return s.writeField d x)

/-- The vector source fields a, b of an operation, b a w register in the scalar forms. -/
def fieldsAB (scalar : Bool) (a b : BitVec 5) : List (BitVec 5) := if scalar then [a] else [a, b]

/-- R266, R267: an integer vector operation. -/
def vintVec (scalar : Bool) (op : VIntOp) (d a b : BitVec 5) (m : BitVec 3) (esz : BitVec 2) : State → Res State :=
  vectorInstr (fieldsAB scalar a b) [d] noPre (fun xs s =>
    let W := 8 * 2 ^ esz.toNat
    let B (k : Nat) := if scalar then (s.w b).toNat % 2 ^ W else elemOf W (xs.getD 1 0) k
    let ys := mapElems W (s.here.mreg m) (s.here.vfield d) (fun k => (vintResult op W (elemOf W (xs.headD 0) k) (B k), 0))
    .ok (s.writeField d (BitVec.ofNat 2048 (packElems W (ys.map (·.1))))))

/-- R268 to R274: a floating-point vector operation. -/
def vfpVec (scalar : Bool) (op : VFpOp) (d a b : BitVec 5) (m : BitVec 3) (esz : BitVec 2) : State → Res State :=
  vectorInstr (if op.readsB then fieldsAB scalar a b else [a]) [d] noPre (fun xs s => do
    let f := eszFmt esz
    let W := f.bits
    let old := s.here.vfield d
    let B (k : Nat) := if scalar then (s.w b).toNat % 2 ^ W else elemOf W (xs.getD 1 0) k
    let ys := mapElems W (s.here.mreg m) old (fun k => vfpResult op f (elemOf W old k) (elemOf W (xs.headD 0) k) (B k))
    checkInvalid s.here (ys.map (·.2))
    return (s.writeField d (BitVec.ofNat 2048 (packElems W (ys.map (·.1))))).raiseFlags (orFlags (ys.map (·.2))))

/-- R275: the vector sources of a move or permute. -/
def VMovOp.sources (op : VMovOp) (a b : BitVec 5) : List (BitVec 5) :=
  match op with
  | .mov => [a] | .bcst => [] | .rot => [a] | .iota => [] | _ => [a, b]

/-- R275: a move or permute. -/
def vmovVec (op : VMovOp) (d a b : BitVec 5) (m : BitVec 3) (esz : BitVec 2) : State → Res State :=
  vectorInstr (op.sources a b) [d] noPre (fun xs s =>
    let W := 8 * 2 ^ esz.toNat
    let mask := s.here.mreg m
    let all := if op = .sel then BitVec.allOnes 64 else mask
    let ys := mapElems W all (s.here.vfield d) (fun k =>
      (vmovResult op W (xs.headD 0) (xs.getD 1 0) (s.w b) (isActive W mask k) k, 0))
    .ok (s.writeField d (BitVec.ofNat 2048 (packElems W (ys.map (·.1))))))

/-- R276: the index check of vext and vins. -/
def checkIndex (b : BitVec 5) (esz : BitVec 2) (s : State) : Res Unit :=
  require (decide ((s.w b).toNat < 256 / 2 ^ esz.toNat)) cBOUNDS (s.w b)

/-- R275, R276: vext. -/
def vextOp (d a b : BitVec 5) (esz : BitVec 2) : State → Res State :=
  vectorInstr [a] [] (checkIndex b esz) (fun xs s =>
    .ok (s.setW d (BitVec.ofNat 64 (elemOf (8 * 2 ^ esz.toNat) (xs.headD 0) (s.w b).toNat))))

/-- R275, R276: vins. -/
def vinsOp (d a b : BitVec 5) (esz : BitVec 2) : State → Res State :=
  vectorInstr [] [d] (checkIndex b esz) (fun _ s =>
    let W := 8 * 2 ^ esz.toNat
    let old := s.here.vfield d
    .ok (s.writeField d (BitVec.ofNat 2048 (packElems W ((List.range (elemCount W)).map (fun k =>
      if k = (s.w b).toNat then (s.w a).toNat % 2 ^ W else elemOf W old k))))))

/-- R277, R278: a reduction. -/
def vredOp (op : VRedOp) (d a : BitVec 5) (m : BitVec 3) (esz : BitVec 2) : State → Res State :=
  vectorInstr [a] [] noPre (fun xs s => do
    let x := xs.headD 0
    let mask := s.here.mreg m
    if op = .fadd ∨ op = .fmax ∨ op = .fmin then
      let (r, fl) := fpReduce op esz x mask
      match if s.here.trapnv then fl.find? (fun y => y.2.getLsbD 0) else none with
      | some y => .error (trapOf cFPINVALID (BitVec.ofNat 64 y.1))
      | none => return (s.setW d (BitVec.ofNat 64 r)).raiseFlags (orFlags (fl.map (·.2)))
    else
      let W := 8 * 2 ^ esz.toNat
      let l := ((List.range (elemCount W)).filter (isActive W mask)).map (fun k => (k, elemOf W x k))
      return s.setW d (vredResult op W l))

/-- R262: W of a compare: of the format for ops 8 to 11. -/
def compareWidth (op : Nat) (esz : BitVec 2) : Nat := if op < 8 then 8 * 2 ^ esz.toNat else (eszFmt esz).bits

/-- R279: a compare. -/
def vcmpOp (op : Nat) (d a b : BitVec 5) (m : BitVec 3) (esz : BitVec 2) : State → Res State :=
  vectorInstr [a, b] [] noPre (fun xs s => do
    let W := compareWidth op esz
    let mask := s.here.mreg m
    let A := elemOf W (xs.headD 0)
    let B := elemOf W (xs.getD 1 0)
    if op < 8 then
      return s.updHere (fun z => z.setM (d.setWidth 3) (compareMask W mask (fun k => intCompare op W (A k) (B k))))
    else
      let f := eszFmt esz
      let rs := (List.range (elemCount W)).map (fun k =>
        if isActive W mask k then f.compare op (A k) (B k) else (false, 0))
      checkInvalid s.here (rs.map (·.2))
      let s := s.updHere (fun z => z.setM (d.setWidth 3) (compareMask W mask (fun k => (rs.getD k (false, 0)).1)))
      return s.raiseFlags (orFlags (rs.map (·.2))))

/-- R280: a mask operation. -/
def maskOp (op : MaskOp) (d a b : BitVec 5) (s : State) : Res State :=
  let x := s.here
  let ma := x.mreg (a.setWidth 3)
  let mb := x.mreg (b.setWidth 3)
  let put (y : Word) : State := s.updHere (fun z => z.setM (d.setWidth 3) y)
  .ok (match op with
    | .and => put (ma &&& mb)
    | .or => put (ma ||| mb)
    | .xor => put (ma ^^^ mb)
    | .andn => put (ma &&& ~~~mb)
    | .not => put (~~~ma)
    | .firstn => put (BitVec.ofNat 64 (2 ^ (min (x.wreg a).toNat 64) - 1))
    | .cnt => s.setW d (BitVec.ofNat 64 (bitCount 64 ma.toNat)))

/-- R105, R106, R141: the effective address of an M-format access. -/
def effAddr (s : State) (a : BitVec 5) (sz : BitVec 2) (off : BitVec 10) : Word :=
  s.w a + off.signExtend 64 * BitVec.ofNat 64 (2 ^ sz.toNat)

/-- R141: ld.l; an ordered one acquires. -/
def loadL (t a : BitVec 5) (ord sz : BitVec 2) (off : BitVec 10) (s : State) : Res State := do
  let x ← loadLocal s (effAddr s a sz off) (2 ^ sz.toNat)
  let s := s.setW t (BitVec.ofNat 64 x)
  return if ord = 0 then s else s.acquire s.cur

/-- The effect of a register-only operation on the issuing activation; it moves no PC. -/
def execPure (op : PureOp) (s : State) : Res State :=
  match op with
  | .int op d a b w => .ok (s.setW d (intOp op w (s.w a) (s.w b) (s.w d) b.toNat))
  | .imm op d a i => .ok (s.setW d (immOp op (s.w a) i))
  | .lih d i => .ok (s.setW d (i.signExtend 64 <<< 14))
  | .shift op d a w amt => .ok (s.setW d (intOp op w (s.w a) (amt.setWidth 64) (s.w d) 0))
  | .ldl t a ord sz off => loadL t a ord sz off s
  | .vldl form d a b m esz => loadVec form d a b m esz s
  | .vint sc op d a b m esz => vintVec sc op d a b m esz s
  | .vfp sc op d a b m esz => vfpVec sc op d a b m esz s
  | .vmov op d a b m esz => vmovVec op d a b m esz s
  | .vext d a b esz => vextOp d a b esz s
  | .vins d a b esz => vinsOp d a b esz s
  | .vred op d a m esz => vredOp op d a m esz s
  | .vcmp op d a b m esz => vcmpOp op d a b m esz s
  | .mask op d a b => maskOp op d a b s
  | .vcvt d a rm dst src sat => convertVec d a rm dst src sat s
  | .qnt d a b tgt rm sat => quantVec d a b tgt rm sat s
  | .dqt d a b tgt => dequantVec d a b tgt s
  | .bamax d a => bamaxVec d a s
  | .scld d a tgt => scldOp d a tgt s
  | .mzero a => matZero a s
  | .mrd d a b => matRead d a b s
  | .mwr d a b => matWrite d a b s
  | .mscl d a => matScale d a s
  | .mchk d a => matCheck d a s
  | .sset a => matSkip a s
  | .mma d a b fmt inc sp init => matMultiply d a b fmt inc sp init s
  | .tsld d => tsLoad d s
  | .tsst a => tsStore a s
  | .tsfill a b => tsFill a b s

/-! ### Registers read and written (R114, R116, R118) -/

/-- The code of a w register (R118). -/
def wCode (r : BitVec 5) : List Nat := [r.toNat]

/-- The code of a vector field that names a register (R118). -/
def vCode (f : BitVec 5) : List Nat := if f.toNat < 16 then [32 + f.toNat] else []

/-- The codes of the registers an operation reads, a merge's destination included (R116). -/
def PureOp.reads : PureOp → List Nat
  | .int op d a b _ => match op with
    | .clz => wCode a | .ctz => wCode a | .popc => wCode a | .brev => wCode a | .bswap => wCode a
    | .sext => wCode a | .zext => wCode a
    | .sel => wCode a ++ wCode b ++ wCode d
    | _ => wCode a ++ wCode b
  | .imm _ _ a _ => wCode a
  | .lih _ _ => []
  | .shift _ _ a _ _ => wCode a
  | .ldl _ a _ _ _ => wCode a
  | .vldl form d a b m _ => wCode a ++ (if form = 1 then wCode b else if form = 2 then vCode b else []) ++
      (if m = 0 then [] else vCode d)
  | .vint sc _ d a b m _ => vCode a ++ (if sc then wCode b else vCode b) ++ (if m = 0 then [] else vCode d)
  | .vfp sc op d a b m _ => vCode a ++ (if op.readsB then (if sc then wCode b else vCode b) else []) ++
      (if m = 0 && !op.readsD then [] else vCode d)
  | .vmov op d a b m _ => (match op with
      | .mov => vCode a | .bcst => wCode b | .rot => vCode a ++ wCode b | .iota => [] | _ => vCode a ++ vCode b) ++
      (if m = 0 || op == .sel then [] else vCode d)
  | .vext _ a b _ => vCode a ++ wCode b
  | .vins d a b _ => wCode a ++ wCode b ++ vCode d
  | .vred _ _ a _ _ => vCode a
  | .vcmp _ _ a b _ _ => vCode a ++ vCode b
  | .mask op _ a _ => if op = .firstn then wCode a else []
  | .vcvt d a _ dst src _ => vCode a ++ (if (cvtFmt dst).bits < (cvtFmt src).bits then vCode d else [])
  | .qnt d a _ _ _ _ => vCode a ++ vCode d
  | .dqt _ a b _ => vCode a ++ wCode b
  | .bamax _ a => vCode a
  | .scld _ a _ => wCode a
  | .mzero _ => []
  | .mrd _ _ b => wCode b
  | .mwr _ a b => vCode a ++ wCode b
  | .mscl _ a => vCode a
  | .mchk _ _ => []
  | .sset a => wCode a
  | .mma _ a b fmt _ _ _ => vCode a ++ (if 6 ≤ fmt.toNat then vCode b else [])
  | .tsld _ => []
  | .tsst a => vCode a
  | .tsfill a b => vCode a ++ wCode b

/-- The codes of the registers an operation writes. -/
def PureOp.writes : PureOp → List Nat
  | .int _ d _ _ _ => wCode d
  | .imm _ d _ _ => wCode d
  | .lih d _ => wCode d
  | .shift _ d _ _ _ => wCode d
  | .ldl t _ _ _ _ => wCode t
  | .vldl _ d _ _ _ _ => vCode d
  | .vint _ _ d _ _ _ _ => vCode d
  | .vfp _ _ d _ _ _ _ => vCode d
  | .vmov _ d _ _ _ _ => vCode d
  | .vext d _ _ _ => wCode d
  | .vins d _ _ _ => vCode d
  | .vred _ d _ _ _ => wCode d
  | .vcmp _ _ _ _ _ _ => []
  | .mask op d _ _ => if op = .cnt then wCode d else []
  | .vcvt d _ _ _ _ _ => vCode d
  | .qnt d _ b _ _ _ => vCode d ++ wCode b
  | .dqt d _ _ _ => vCode d
  | .bamax d _ => wCode d
  | .scld d _ _ => wCode d
  | .mrd d _ _ => vCode d
  | .mchk d _ => wCode d
  | .tsld d => vCode d
  | .mzero _ => [] | .mwr _ _ _ => [] | .mscl _ _ => [] | .sset _ => [] | .mma _ _ _ _ _ _ _ => []
  | .tsst _ => [] | .tsfill _ _ => []

/-- R288: the codes of the registers an operation reads in a state: an `mma` that continues a group reads no scales. -/
def PureOp.readsIn (op : PureOp) (s : State) : List Nat :=
  match op with
  | .mma d a b fmt _ _ init =>
    vCode a ++ (if 6 ≤ fmt.toNat && ((s.tile s.here.tile).acc d).willOpen fmt init then vCode b else [])
  | op => op.reads

end Sys2Proof.Machine
end

