-- ==== Sys2Proof/Machine/Recipes.lean ====
section
/-! DEFINITION. The register-only operations as words (R33, R37 to R43): their decoding for recipes and repetition
blocks (R82, R113) and the staggering of their fields (R83, R281); recipes: replay (R116, R117), pinning (R118)
and the rule that every instruction reads and writes registers through them. -/

namespace Sys2Proof.Machine

/-! ### Words of register-only operations -/

/-- Field d of a word. -/
def fieldD (w : BitVec 32) : BitVec 5 := w.extractLsb' 19 5
/-- Field a of a word. -/
def fieldA (w : BitVec 32) : BitVec 5 := w.extractLsb' 14 5
/-- Field b of a word. -/
def fieldB (w : BitVec 32) : BitVec 5 := w.extractLsb' 9 5
/-- Field m of a word. -/
def fieldM (w : BitVec 32) : BitVec 3 := w.extractLsb' 6 3
/-- Field esz of a word. -/
def fieldE (w : BitVec 32) : BitVec 2 := w.extractLsb' 4 2

/-- The operation if its fields are legal (R33). -/
def legal (b : Bool) (op : PureOp) : Option PureOp := if b then some op else none

open WellFormed in
/-- R90, R92: major 0x08. -/
def pureInt (w : BitVec 32) : Option PureOp :=
  let n := (w.extractLsb' 0 8).toNat
  (intOps[n]?).bind (fun op => legal
    (if 24 ≤ n ∧ n ≤ 28 then fieldB w == 0
     else if n = 29 ∨ n = 30 then !w.getLsbD 8 && widthCode (fieldB w)
     else if n = 34 ∨ n = 35 then !w.getLsbD 8 else true)
    (.int op (fieldD w) (fieldA w) (fieldB w) (w.getLsbD 8)))

open WellFormed in
/-- R94: major 0x0E. -/
def pureShift (w : BitVec 32) : Option PureOp :=
  let op : IntOp := match (w.extractLsb' 12 2).toNat with | 0 => .shl | 1 => .shr | 2 => .sha | _ => .ror
  legal (w.extractLsb' 7 5 == 0 && shiftAmount (w.getLsbD 6) (w.extractLsb' 0 6))
    (.shift op (fieldD w) (fieldA w) (w.getLsbD 6) (w.extractLsb' 0 6))

open WellFormed in
/-- R143: the loads of own LM of major 0x1A. -/
def pureLoad (w : BitVec 32) : Option PureOp :=
  let d := fieldD w
  let m := fieldM w
  match (w.extractLsb' 0 4).toNat with
  | 0 => legal (fieldB w == 0 && vecDest d m) (.vldl 0 d (fieldA w) 0 m (fieldE w))
  | 3 => legal (vecDest d m && wideElement (fieldE w)) (.vldl 1 d (fieldA w) (fieldB w) m (fieldE w))
  | 5 => legal (vecDest d m && wideElement (fieldE w) && vecField (fieldB w))
      (.vldl 2 d (fieldA w) (fieldB w) m (fieldE w))
  | _ => none

open WellFormed in
/-- R267: majors 0x28 and 0x29. -/
def pureVInt (scalar : Bool) (w : BitVec 32) : Option PureOp :=
  (vintOps[(w.extractLsb' 0 4).toNat]?).bind (fun op => legal
    (vecDest (fieldD w) (fieldM w) && vecField (fieldA w) && (scalar || vecField (fieldB w)))
    (.vint scalar op (fieldD w) (fieldA w) (fieldB w) (fieldM w) (fieldE w)))

open WellFormed in
/-- R270: majors 0x2A and 0x2B; the operations of one source have no scalar form. -/
def pureVFp (scalar : Bool) (w : BitVec 32) : Option PureOp :=
  (vfpOps[(w.extractLsb' 0 4).toNat]?).bind (fun op => legal
    ((if op.readsD then low16 (fieldD w) else vecDest (fieldD w) (fieldM w)) && vecField (fieldA w) &&
      (if op.readsB then scalar || vecField (fieldB w) else !scalar && fieldB w == 0))
    (.vfp scalar op (fieldD w) (fieldA w) (fieldB w) (fieldM w) (fieldE w)))

open WellFormed in
/-- R275: major 0x2C. -/
def pureVMov (w : BitVec 32) : Option PureOp :=
  let d := fieldD w
  let a := fieldA w
  let b := fieldB w
  let m := fieldM w
  let e := fieldE w
  match (w.extractLsb' 0 4).toNat with
  | 0 => legal (b == 0 && vecDest d m && vecField a) (.vmov .mov d a 0 m e)
  | 1 => legal (a == 0 && vecDest d m) (.vmov .bcst d 0 b m e)
  | 2 => legal (m == 0 && vecField a) (.vext d a b e)
  | 3 => legal (m == 0 && low16 d) (.vins d a b e)
  | 4 => legal (vecField d && vecField a && vecField b) (.vmov .sel d a b m e)
  | 5 => legal (vecDest d m && vecField a && vecField b) (.vmov .perm d a b m e)
  | 6 => legal (vecDest d m && vecField a) (.vmov .rot d a b m e)
  | 7 => legal (vecDest d m && vecField a && vecField b) (.vmov .zip d a b m e)
  | 8 => legal (vecDest d m && vecField a && vecField b) (.vmov .unzip d a b m e)
  | 9 => legal (a == 0 && b == 0 && vecDest d m) (.vmov .iota d 0 0 m e)
  | _ => none

open WellFormed in
/-- R280: major 0x2F. -/
def pureMask (w : BitVec 32) : Option PureOp :=
  let d := fieldD w
  let a := fieldA w
  let b := fieldB w
  let z := w.extractLsb' 4 5 == 0
  match (w.extractLsb' 0 4).toNat with
  | 0 => legal (z && writtenMask d && low8 a && low8 b) (.mask .and d a b)
  | 1 => legal (z && writtenMask d && low8 a && low8 b) (.mask .or d a b)
  | 2 => legal (z && writtenMask d && low8 a && low8 b) (.mask .xor d a b)
  | 3 => legal (z && writtenMask d && low8 a && low8 b) (.mask .andn d a b)
  | 4 => legal (z && b == 0 && writtenMask d && low8 a) (.mask .not d a 0)
  | 5 => legal (z && b == 0 && writtenMask d) (.mask .firstn d a 0)
  | 6 => legal (z && b == 0 && low8 a) (.mask .cnt d a 0)
  | _ => none

open WellFormed in
/-- R296: major 0x34, the claim apart. -/
def pureMatrix (w : BitVec 32) : Option PureOp :=
  let d := fieldD w
  let a := fieldA w
  let b := fieldB w
  match (w.extractLsb' 0 9).toNat with
  | 2 => legal (d == 0 && b == 0 && accField a) (.mzero a)
  | 3 => legal (vecField d && accField a) (.mrd d a b)
  | 4 => legal (accField d && vecField a) (.mwr d a b)
  | 5 => legal (b == 0 && accField d && vecField a) (.mscl d a)
  | 6 => legal (b == 0 && accField a) (.mchk d a)
  | 7 => legal (d == 0 && b == 0) (.sset a)
  | _ => none

open WellFormed in
/-- The register-only operation of a word, if it is a legal word of one: majors 0x08 to 0x0E, 0x14, the own-LM loads
of 0x1A, 0x28 to 0x33, 0x34 with fn 2 to 7, 0x35 and 0x36 (R82, R113). -/
def decodePure (w : BitVec 32) : Option PureOp :=
  let d := fieldD w
  let a := fieldA w
  let b := fieldB w
  match (w.extractLsb' 24 8).toNat with
  | 0xC8 => pureInt w
  | 0xC9 => some (.imm .addi d a (w.extractLsb' 0 14))
  | 0xCA => some (.imm .andi d a (w.extractLsb' 0 14))
  | 0xCB => some (.imm .ori d a (w.extractLsb' 0 14))
  | 0xCC => some (.imm .xori d a (w.extractLsb' 0 14))
  | 0xCD => some (.lih d (w.extractLsb' 0 19))
  | 0xCE => pureShift w
  | 0xD4 => some (.ldl d a (w.extractLsb' 12 2) (w.extractLsb' 10 2) (w.extractLsb' 0 10))
  | 0xDA => pureLoad w
  | 0xE8 => pureVInt false w
  | 0xE9 => pureVInt true w
  | 0xEA => pureVFp false w
  | 0xEB => pureVFp true w
  | 0xEC => pureVMov w
  | 0xED => (vredOps[(w.extractLsb' 0 4).toNat]?).bind (fun op =>
      legal (b == 0 && vecField a) (.vred op d a (fieldM w) (fieldE w)))
  | 0xEE =>
    let op := (w.extractLsb' 0 4).toNat
    legal ((op < 6 || (8 ≤ op && op < 12)) && writtenMask d && vecField a && vecField b)
      (.vcmp op d a b (fieldM w) (fieldE w))
  | 0xEF => pureMask w
  | 0xF0 =>
    let rm : BitVec 3 := w.extractLsb' 11 3
    let dst : BitVec 4 := w.extractLsb' 5 4
    let src : BitVec 4 := w.extractLsb' 1 4
    legal (w.extractLsb' 9 2 == 0 && rounding rm && formatCode dst && formatCode src && convDest d dst src && vecField a)
      (.vcvt d a rm dst src (w.getLsbD 0))
  | 0xF1 =>
    let rm : BitVec 3 := w.extractLsb' 3 3
    legal (w.extractLsb' 0 2 == 0 && target (fieldM w) && rounding rm && low16 d && vecField a)
      (.qnt d a b (fieldM w) rm (w.getLsbD 2))
  | 0xF2 => legal (w.extractLsb' 0 6 == 0 && target (fieldM w) && vecField d && vecField a) (.dqt d a b (fieldM w))
  | 0xF3 =>
    if w.extractLsb' 0 3 == 0 then legal (w.extractLsb' 3 11 == 0 && vecField a) (.bamax d a)
    else legal (w.extractLsb' 0 6 == 1 && b == 0 && target (fieldM w)) (.scld d a (fieldM w))
  | 0xF4 => pureMatrix w
  | 0xF5 => legal (w.extractLsb' 0 2 == 0 && formatCode (w.extractLsb' 5 4) && accField d && vecField a &&
      scaleField (w.extractLsb' 5 4) b) (.mma d a b (w.extractLsb' 5 4) (w.getLsbD 4) (w.getLsbD 3) (w.getLsbD 2))
  | 0xF6 => match (w.extractLsb' 0 9).toNat with
    | 0 => legal (a == 0 && b == 0 && vecField d) (.tsld d)
    | 1 => legal (d == 0 && b == 0 && vecField a) (.tsst a)
    | 2 => legal (d == 0 && vecField a) (.tsfill a b)
    | _ => none
  | _ => none

/-! ### Staggering (R83, R281) -/

/-- What a d, a or b field names. -/
inductive FieldClass where
  | none
  | w
  | vec
  | mask
  | acc
deriving DecidableEq, Repr

/-- R83: the classes of fields d, a and b of an operation. -/
def PureOp.fields : PureOp → FieldClass × FieldClass × FieldClass
  | .int _ _ _ _ _ => (.w, .w, .w)
  | .imm _ _ _ _ => (.w, .w, .none)
  | .lih _ _ => (.w, .none, .none)
  | .shift _ _ _ _ _ => (.w, .w, .none)
  | .ldl _ _ _ _ _ => (.w, .w, .none)
  | .vldl form _ _ _ _ _ => (.vec, .w, if form = 1 then .w else if form = 2 then .vec else .none)
  | .vint sc _ _ _ _ _ _ => (.vec, .vec, if sc then .w else .vec)
  | .vfp sc op _ _ _ _ _ => (.vec, .vec, if op.readsB then (if sc then .w else .vec) else .none)
  | .vmov op _ _ _ _ _ => match op with
    | .mov => (.vec, .vec, .none)
    | .bcst => (.vec, .none, .w)
    | .rot => (.vec, .vec, .w)
    | .iota => (.vec, .none, .none)
    | _ => (.vec, .vec, .vec)
  | .vext _ _ _ _ => (.w, .vec, .w)
  | .vins _ _ _ _ => (.vec, .w, .w)
  | .vred _ _ _ _ _ => (.w, .vec, .none)
  | .vcmp _ _ _ _ _ _ => (.mask, .vec, .vec)
  | .mask op _ _ _ => match op with
    | .not => (.mask, .mask, .none)
    | .firstn => (.mask, .w, .none)
    | .cnt => (.w, .mask, .none)
    | _ => (.mask, .mask, .mask)
  | .vcvt _ _ _ _ _ _ => (.vec, .vec, .none)
  | .qnt _ _ _ _ _ _ => (.vec, .vec, .w)
  | .dqt _ _ _ _ => (.vec, .vec, .w)
  | .bamax _ _ => (.w, .vec, .none)
  | .scld _ _ _ => (.w, .w, .none)
  | .mzero _ => (.none, .acc, .none)
  | .mrd _ _ _ => (.vec, .acc, .w)
  | .mwr _ _ _ => (.acc, .vec, .w)
  | .mscl _ _ => (.acc, .vec, .none)
  | .mchk _ _ => (.w, .acc, .none)
  | .sset _ => (.none, .w, .none)
  | .mma _ _ _ fmt _ _ _ => (.acc, .vec, if 6 ≤ fmt.toNat then .vec else .none)
  | .tsld _ => (.vec, .none, .none)
  | .tsst _ => (.none, .vec, .none)
  | .tsfill _ _ => (.none, .vec, .w)

/-- R83, R281: Wrap of a field of a class, k steps on. -/
def wrapField (c : FieldClass) (x : BitVec 5) (k : Nat) : BitVec 5 :=
  match c with
  | .none => x
  | .w => BitVec.ofNat 5 (x.toNat + k)
  | .vec => if x.toNat < 16 then BitVec.ofNat 5 ((x.toNat + k) % 16) else BitVec.ofNat 5 (16 + (x.toNat - 16 + k) % 8)
  | .mask => BitVec.ofNat 5 ((x.toNat + k) % 8)
  | .acc => BitVec.ofNat 5 ((x.toNat + k) % 4)

/-- R83: a block word with its register fields staggered for repetition j. -/
def staggered (w : BitVec 32) (op : PureOp) (j : Nat) (sd sa sb : BitVec 4) : BitVec 32 :=
  let c := op.fields
  w.extractLsb' 24 8 ++ wrapField c.1 (fieldD w) (j * sd.toNat) ++ wrapField c.2.1 (fieldA w) (j * sa.toNat) ++
    wrapField c.2.2 (fieldB w) (j * sb.toNat) ++ w.extractLsb' 0 9

/-- R82: the operation may stand in a repetition block. -/
def PureOp.repeatable : PureOp → Bool
  | .int _ _ _ _ _ => false
  | .imm _ _ _ _ => false
  | .lih _ _ => false
  | .shift _ _ _ _ _ => false
  | .ldl _ _ _ _ _ => false
  | .vldl _ _ _ _ _ _ => false
  | _ => true

/-- The operation belongs to majors 0x34 to 0x36. -/
def PureOp.isMatrix : PureOp → Bool
  | .mzero _ => true | .mrd _ _ _ => true | .mwr _ _ _ => true | .mscl _ _ => true | .mchk _ _ => true
  | .sset _ => true | .mma _ _ _ _ _ _ _ => true | .tsld _ => true | .tsst _ => true | .tsfill _ _ => true
  | _ => false

/-! ### Words of a recipe (R113) -/

/-- R113: the operation's major and op may stand in a recipe. -/
def PureOp.recipeOp : PureOp → Bool
  | .vcmp _ _ _ _ _ _ => false
  | .mask _ _ _ _ => false
  | op => !op.isMatrix

/-- R113: its m field is 0, no vector field names a queue, nothing rounds by RSR and no load is ordered. -/
def PureOp.recipeForm (op : PureOp) (w : BitVec 32) : Bool :=
  let c := op.fields
  let plain (k : FieldClass) (x : BitVec 5) : Bool := k != .vec || x.ult 16
  plain c.1 (fieldD w) && plain c.2.1 (fieldA w) && plain c.2.2 (fieldB w) &&
  (match op with
    | .ldl _ _ ord _ _ => ord == 0
    | .vldl _ _ _ _ m _ => m == 0
    | .vint _ _ _ _ _ m _ => m == 0
    | .vfp _ _ _ _ _ m _ => m == 0
    | .vmov _ _ _ _ m _ => m == 0
    | .vred _ _ _ m _ => m == 0
    | .vcvt _ _ rm _ _ _ => rm != 4
    | .qnt _ _ _ _ rm _ => rm != 4
    | _ => true)

/-- R125: the reason a captured word is refused, by its first halfword and itself. -/
def recipeReason (w : BitVec 32) : Option (BitVec 64) :=
  if w.extractLsb' 30 2 ≠ 3 then some 1
  else match decodePure w with
    | none => some 2
    | some op => if !op.recipeOp then some 2 else if !op.recipeForm w then some 3 else none

/-! ### Replay and pinning (R114 to R118) -/

/-- The words of recipe n of an activation. -/
def Core.recipe (c : Core) (k : Nat) (n : BitVec 4) : List (BitVec 32) :=
  match c.recipes.find? (fun r => r.owner == k && r.num == n) with
  | some r => r.words
  | none => []

/-- The words read register r. -/
def wordsRead (words : List (BitVec 32)) (r : Nat) : Bool :=
  words.any (fun w => match decodePure w with | some op => op.reads.contains r | none => false)

/-- R114: the words, as a recipe of register x, read register r. -/
def sourceOf (words : List (BitVec 32)) (x r : Nat) : Bool := r != x && wordsRead words r

/-- The core of the issuing activation. -/
def State.hereCore (s : State) : Core := s.core s.here.tile s.here.stg

/-- The state with the core of the issuing activation changed. -/
def State.updHereCore (s : State) (f : Core → Core) : State := s.updCore s.here.tile s.here.stg f

/-- The tags of the issuing activation. -/
def State.hereTags (s : State) : List Tag := s.tagsOf s.cur s.here

/-- The tag of register r of the issuing activation. -/
def State.tagOf (s : State) (r : Nat) : Option Tag := s.hereTags.find? (fun t => t.reg == r)

/-- The recipe words of a tag of the issuing activation. -/
def State.tagWords (s : State) (t : Tag) : List (BitVec 32) := s.hereCore.recipe s.cur t.num

/-- The tag of register r of the issuing activation removed. -/
def State.untag (s : State) (r : Nat) : State :=
  s.updHereCore (fun c => { c with tags := c.tags.filter (fun t => !(t.owner == s.cur && t.reg == r)) })

/-- The dropped bit of the tag of register r of the issuing activation. -/
def State.setDropped (s : State) (r : Nat) (b : Bool) : State :=
  s.updHereCore (fun c => { c with
    tags := c.tags.map (fun t => if t.owner == s.cur && t.reg == r then { t with dropped := b } else t) })

/-- R113: the bytes a recipe load reads: their addresses and the number at each. -/
def loadSpans (s : State) : PureOp → List (Word × Nat)
  | .ldl _ a _ sz off => [(effAddr s a sz off, 2 ^ sz.toNat)]
  | .vldl form _ a b _ esz =>
    let n := 2 ^ esz.toNat
    (List.range (256 / n)).map (fun k => (elemAddr form n (s.w a) (s.w b) (s.here.vreg (b.setWidth 4)) k, n))
  | _ => []

/-- R113: the lowest byte of the spans outside the inbox and the constant window, which a BOUNDS inside a replay reports
(R116, log 70). -/
def outsideWindows (a : Act) (spans : List (Word × Nat)) : Option Nat :=
  let inside (x : Nat) : Bool :=
    (decide (a.ident[12].toNat ≤ x) && decide (x < a.ident[12].toNat + a.ident[13].toNat)) ||
    (decide (a.ident[14].toNat ≤ x) && decide (x < a.ident[14].toNat + a.ident[15].toNat))
  let bad := (spans.filterMap (fun p => ((List.range p.2).find? (fun i => !inside (p.1.toNat + i))).map (p.1.toNat + ·)))
  match bad with
  | [] => none
  | x :: t => some (t.foldl min x)

/-- R117: the fault of a replay; one of a nested replay is already named. -/
def replayTrap (num : BitVec 4) (i : Nat) (nested : Bool) (t : Trap) : Trap :=
  if t.cause.code = cREPLAY then t
  else ⟨⟨cREPLAY, t.cause.code, num, BitVec.ofNat 2 i, nested⟩, t.value, t.bytes⟩

/-- R116: the words of a recipe executed in order, the registers of each read by `read`. -/
def replayWords (read : Nat → State → Res State) (num : BitVec 4) (nested : Bool) (x : Nat) :
    List (BitVec 32) → Nat → State → Res State
  | [], _, s => .ok s
  | w :: t, i, s =>
    match decodePure w with
    | none => .ok s
    | some op => do
      let s ← (op.reads.filter (· != x)).foldlM (fun s r => read r s) s
      match outsideWindows s.here (loadSpans s op) with
      | some o => .error (replayTrap num i nested (trapOf cBOUNDS (BitVec.ofNat 64 o)))
      | none => pure ()
      match execPure op s with
      | .error e => .error (replayTrap num i nested e)
      | .ok s => replayWords read num nested x t (i + 1) s

/-- R116: RDEPTH of the issuing activation set, and RPL, which says that it is not zero. -/
def State.replayDepth (s : State) (d : BitVec 2) : State :=
  s.updHere (fun a => { a with status := { a.status with rdepth := d, rpl := d != 0 } })

/-- R116: ReadReg of register r: a dropped register is replayed, to a depth of two (R119). -/
def readReg : Nat → Nat → State → Res State
  | 0, _, s => .ok s
  | depth + 1, r, s =>
    match s.tagOf r with
    | none => .ok s
    | some t =>
      if t.dropped then do
        let d := s.here.status.rdepth
        let s ← replayWords (readReg depth) t.num (decide (depth = 0)) r (s.tagWords t) 0 (s.replayDepth (d + 1))
        return (s.setDropped r false).replayDepth d
      else .ok s

/-- R116: the registers of a list read, in its order: that of the fields a, b and d (log 71). -/
def readRegs (rs : List Nat) (s : State) : Res State := rs.foldlM (fun s r => readReg 2 r s) s

/-- R118, step 1: the tagged registers whose recipe reads one of ys. -/
def State.dependents (s : State) (ys : List Nat) : List Nat :=
  (s.hereTags.filter (fun t => ys.any (sourceOf (s.tagWords t) t.reg))).map (·.reg)

/-- R118, step 1: S for a write of y, in increasing order of code. Chains have at most two recipes (R119). -/
def State.pinned (s : State) (y : Nat) : List Nat :=
  let direct := s.dependents [y]
  let all := direct ++ s.dependents direct
  (List.range 48).filter (fun r => all.contains r)

/-- R118, step 2: every register of S replayed if it is dropped, and untagged. -/
def pin (y : Nat) (s : State) : Res State :=
  (s.pinned y).foldlM (fun s r => do
    let s ← readReg 2 r s
    return s.untag r) s

/-- R118, steps 1 to 4, for a write of register y, which the instruction also reads if `reads` names it. -/
def beforeWrite (reads : List Nat) (y : Nat) (s : State) : Res State := do
  let s ← pin y s
  let s ← if reads.contains y then readReg 2 y s else .ok s
  return s.untag y

/-- R118 for the registers of a list. -/
def beforeWrites (reads ys : List Nat) (s : State) : Res State := ys.foldlM (fun s y => beforeWrite reads y s) s

/-- The activation waits with its instruction not issued (R108, R198). -/
def Waiting.retries : Waiting → Bool
  | .queue _ => true
  | .beamArrive _ => true
  | _ => false

/-- R116, R117, R118: an instruction that reads and writes the named registers. With no tag of the activation it is
its effect alone. With tags, the registers it only reads are replayed first. If its own checks then fault, or it waits
to be tried again, it writes nothing and pins nothing; else the recipes that read what it writes are pinned, and what it
reads and writes is replayed, before the write. One that has popped a queue and raises FPINVALID is past its checks: its pins come
first (DESIGN CHOICE, log 71). -/
def withRegs (reads writes : List Nat) (body : State → Res State) (s : State) : Res State :=
  if s.hereTags.isEmpty then body s
  else do
    let s1 ← readRegs (reads.filter (fun r => !writes.contains r)) s
    let write : Res State := do
      let s2 ← beforeWrites reads writes s1
      body s2
    match readRegs (reads.filter writes.contains) s1 with
    | .error _ => write
    | .ok s1 =>
      let t ← body s1
      if t.here.wait.retries then return t else write

/-- R34, R282: the role check of an operation, which comes before any register is read. -/
def PureOp.checkRole (op : PureOp) (s : State) : Res Unit := if op.isMatrix then checkMatrixRole s.here else .ok ()

/-- The meaning of a register-only operation of one word. -/
def pureInstr (op : PureOp) (s : State) : Out State :=
  issue s (fun s => do
    op.checkRole s
    let t ← withRegs (op.readsIn s) op.writes (execPure op) s
    return t.done 4)

/-- The meaning of a word that reads and writes the named registers and is followed by the next word. -/
def plainInstr (reads writes : List Nat) (f : State → Res State) (s : State) : Out State :=
  issue s (fun s => do
    let t ← withRegs reads writes f s
    return t.done 4)

/-- R34, R373: an instruction that firmware cores do not run. -/
def nodeOnly (s : State) : Res Unit := require (!s.here.fw) cROLE 0

/-- R34, R372: a privileged instruction; the fault value is its word. -/
def privileged (word : BitVec 32) (s : State) : Res Unit := require s.here.fw cPRIV (word.setWidth 64)

/-! ### Recipe instructions (R120 to R125) -/

/-- R125: a RECIPE fault. -/
def recipeFault (v : Word) : Trap := trapOf cRECIPE v

/-- R123: the registers computed from X materialised and untagged, then X, if it is tagged. -/
def untagReg (x : Nat) (s : State) : Res State := do
  let s ← pin x s
  let s ← readReg 2 x s
  return s.untag x

/-- R121, R124: every register tagged with recipe n materialised and untagged, in increasing code order. -/
def clearRecipe (n : BitVec 4) (s : State) : Res State :=
  ((List.range 48).filter (fun r => s.hereTags.any (fun t => t.reg == r && t.num == n))).foldlM
    (fun s r => untagReg r s) s

/-- R30: the words at a PC; the checks on both halfwords of each, in order of address. -/
def fetchWords : Nat → Word → State → Res (List (BitVec 32) × State)
  | 0, _, s => .ok ([], s)
  | n + 1, pc, s => do
    let w ← fetchWord s pc
    let (t, s) ← fetchWords n (pc + 4) (s.tookWord pc w)
    return (w :: t, s)

/-- R121: rcp.def. -/
def defineRecipe (n : BitVec 4) (len : Nat) (s : State) : Res State := do
  nodeOnly s
  let (words, s) ← fetchWords len (s.here.pc + 4) s
  match ((List.range words.length).zip words).findSome? (fun x =>
      (recipeReason x.2).map (fun r => r + BitVec.ofNat 64 (16 * x.1))) with
  | some v => .error (recipeFault v)
  | none => pure ()
  let c := s.hereCore
  let known := c.recipes.any (fun r => r.owner == s.cur && r.num == n)
  if !known && 16 ≤ c.recipes.length then .error (recipeFault 4) else pure ()
  let s ← clearRecipe n s
  let s := s.updHereCore (fun c => { c with
    recipes := c.recipes.filter (fun r => !(r.owner == s.cur && r.num == n)) ++ [⟨s.cur, n, words⟩] })
  return s.done (BitVec.ofNat 64 (4 + 4 * len))

/-- R119: with the tags given, no tagged register's recipe reads a tagged register whose own recipe reads one. -/
def chainOk (words : BitVec 4 → List (BitVec 32)) (tags : List (Nat × BitVec 4)) : Bool :=
  tags.all (fun x => tags.all (fun z =>
    !(sourceOf (words x.2) x.1 z.1 && tags.any (fun y => sourceOf (words z.2) z.1 y.1))))

/-- R122: rcp.tag.w and rcp.tag.v. -/
def tagReg (x : Nat) (n : BitVec 4) (s : State) : Res State := do
  nodeOnly s
  let c := s.hereCore
  match c.recipes.find? (fun r => r.owner == s.cur && r.num == n) with
  | none => .error (recipeFault 5)
  | some r =>
    let ops := r.words.filterMap decodePure
    if ops.any (fun op => op.writes != [x]) || ((ops.head?).map (fun op => op.reads.contains x)).getD false
    then .error (recipeFault 6) else pure ()
    let gone := s.pinned x
    let left := (s.hereTags.filter (fun t => t.reg != x && !gone.contains t.reg)).map (fun t => (t.reg, t.num))
    if !chainOk (c.recipe s.cur) ((x, n) :: left) then .error (recipeFault 7) else pure ()
    if (s.tagOf x).isNone && 32 ≤ c.tags.length - gone.length then .error (recipeFault 8) else pure ()
    let s ← pin x s
    let s := s.untag x
    return s.updHereCore (fun c => { c with tags := c.tags ++ [⟨s.cur, x, n, true⟩] })

/-- R123: the code of the register that a class and a field name. -/
def classCode (d b : BitVec 5) : Nat := if b = 0 then d.toNat else 32 + d.toNat

/-- R123: rcp.drop. -/
def dropReg (x : Nat) (s : State) : Res State := do
  nodeOnly s
  return if (s.tagOf x).isSome then s.setDropped x true else s

/-- R123: rcp.mat. -/
def matReg (x : Nat) (s : State) : Res State := do
  nodeOnly s
  readReg 2 x s

/-- R124: rcp.clr. -/
def forgetRecipe (n : BitVec 4) (s : State) : Res State := do
  nodeOnly s
  let s ← clearRecipe n s
  return s.updHereCore (fun c => { c with recipes := c.recipes.filter (fun r => !(r.owner == s.cur && r.num == n)) })

end Sys2Proof.Machine
end

