-- ==== Sys2Proof/Machine/Workspace.lean ====
section
/-! DEFINITION. Workspace, extension and mask registers, queue counts and recipes (R98 to R125): majors 0x10 to
0x12. -/

namespace Sys2Proof.Machine

/-- R353: an instruction that makes a replica abandon its screen. -/
def originalOnly (f : State → Res State) (s : State) : Res State :=
  if s.here.replica then .ok (s.abandon s.cur) else f s

/-- R104, R352: the identity register of an index; a replica reads its original's. -/
def State.identity (s : State) (i : BitVec 5) : Word :=
  let a := s.here
  if a.fw then 0
  else if i = 19 then (s.mapGenOf a.dt).setWidth 64
  else a.ident[i.toNat]'(i.isLt)

/-- R104. Reads an identity register into wd. -/
def execMfi (d b : BitVec 5) (s : State) : Out State :=
  plainInstr [] [d.toNat] (fun s => .ok (s.setW d (s.identity b))) s

/-- R105. wd := extension register eN. -/
def execMfe (d b : BitVec 5) (s : State) : Out State :=
  plainInstr [] [d.toNat] (fun s => .ok (s.setW d (s.here.ereg (b.setWidth 3)))) s

/-- R105. Extension register eN := wa. -/
def execMte (d a : BitVec 5) (s : State) : Out State :=
  plainInstr [a.toNat] [] (fun s => .ok (s.updHere (fun x => x.setE (d.setWidth 3) (x.wreg a)))) s

/-- R105. wd := mask mN. -/
def execMfm (d b : BitVec 5) (s : State) : Out State :=
  plainInstr [] [d.toNat] (fun s => .ok (s.setW d (s.here.mreg (b.setWidth 3)))) s

/-- R105. Mask mN := wa for N 1 to 7. -/
def execMtm (d a : BitVec 5) (s : State) : Out State :=
  plainInstr [a.toNat] [] (fun s => .ok (s.updHere (fun x => x.setM (d.setWidth 3) (x.wreg a)))) s

/-- R109: the entries of queue q as the issuing core sees them. -/
def State.queueCount (s : State) (q : Fin 8) : Nat :=
  let a := s.here
  let t := s.tile a.tile
  if queueAllowed a q false then t.visible q else t.occupied q - t.pushed[q]

/-- R109. Reads the number of entries of a queue; a firmware core has no queues (R373). -/
def execMfqc (d b : BitVec 5) (s : State) : Out State :=
  plainInstr [] [d.toNat] (originalOnly (fun s => do
    require (!s.here.fw) cQUEUE (b.setWidth 64)
    return s.setW d (BitVec.ofNat 64 (s.queueCount (Fin.ofNat 8 b.toNat))))) s

/-- R105. wd := WP. -/
def execWsa (d : BitVec 5) (s : State) : Out State :=
  plainInstr [] [d.toNat] (fun s => .ok (s.setW d (BitVec.ofNat 64 s.here.wp))) s

/-- R106: the effect of lde. -/
def loadExt (d a : BitVec 5) (imm : BitVec 14) (s : State) : Res State := do
  let x ← loadLocal s (s.w a + (imm.setWidth 64 <<< 3)) 8
  return s.updHere (fun z => z.setE (d.setWidth 3) (BitVec.ofNat 64 x))

/-- R106. Loads an extension register from LM. -/
def execLde (d a : BitVec 5) (imm : BitVec 14) (s : State) : Out State :=
  plainInstr [a.toNat] [] (loadExt d a imm) s

/-! ### Recipes (R120 to R124) -/

/-- The meaning of a recipe instruction of one word. -/
def recipeInstr (f : State → Res State) (s : State) : Out State :=
  issue s (fun s => do
    let t ← f s
    return t.done 4)

/-- R121. Captures the next words as a recompute recipe. -/
def execRcpDef (d b : BitVec 5) (s : State) : Out State := issue s (defineRecipe (d.setWidth 4) b.toNat)
/-- R122. Tags a w register with a recipe and marks it dropped. -/
def execRcpTagW (d a : BitVec 5) (s : State) : Out State := recipeInstr (tagReg d.toNat (a.setWidth 4)) s
/-- R122. Tags a vector register with a recipe and marks it dropped. -/
def execRcpTagV (d a : BitVec 5) (s : State) : Out State := recipeInstr (tagReg (32 + d.toNat) (a.setWidth 4)) s
/-- R123. Removes a register's tag, replaying it first if dropped. -/
def execRcpUntag (d b : BitVec 5) (s : State) : Out State :=
  recipeInstr (fun s => do
    nodeOnly s
    untagReg (classCode d b) s) s
/-- R123. Drops a tagged present register. -/
def execRcpDrop (d b : BitVec 5) (s : State) : Out State := recipeInstr (dropReg (classCode d b)) s
/-- R123. Replays a dropped tagged register, keeping its tag. -/
def execRcpMat (d b : BitVec 5) (s : State) : Out State := recipeInstr (matReg (classCode d b)) s
/-- R124. Materialises and untags every register of a recipe and frees it. -/
def execRcpClr (d : BitVec 5) (s : State) : Out State := recipeInstr (forgetRecipe (d.setWidth 4)) s

end Sys2Proof.Machine
end

