-- ==== Sys2Proof/Machine/Memory.lean ====
section
/-! DEFINITION. Loads, stores, vector memory, leases and prefetch (R126 to R154): majors 0x14 to 0x1B, with the
compact load and store. Accesses of own LM are performed at issue; a global or tile-window access is checked at
issue and then outstanding until its response (R131). -/

namespace Sys2Proof.Machine

/-! ### Shared operations -/

/-- The tag of R354 for a store in a space. -/
def storeTag : Space → Byte
  | .l => 0x01
  | .t => 0x02
  | .g => 0x03

/-- The space number of a request. -/
def Space.code : Space → Nat
  | .l => 0
  | .t => 1
  | .g => 2

/-- R354: the record of one store. -/
def storeRecord (tag : Byte) (ea : Word) (n : Nat) (x : Word) : List Byte :=
  tag :: (leBytes 8 ea.toNat ++ leBytes n x.toNat)

/-- R98: the offset in the workspace, and the bytes, of the w or v register of a code. -/
def regBytes (r : Nat) : Nat × Nat := if r < 32 then (8 * r, 8) else (0x100 + 256 * (r - 32), 256)

/-- R100, R118: the w and v registers whose bytes the writes of an instruction cover, each n bytes at an LM offset, and those
that they cover only in part. -/
def State.registersAt (s : State) (ps : List (Nat × Nat)) : List Nat × List Nat :=
  let wp := s.here.wp
  let hit := (ps.flatMap (fun p => (List.range p.2).filterMap (fun i =>
    if wp ≤ p.1 + i then regAt (p.1 + i - wp) else none))).eraseDups
  let part (r : Nat) : Bool := (List.range (regBytes r).2).any (fun i =>
    !ps.any (fun p => decide (p.1 ≤ wp + (regBytes r).1 + i) && decide (wp + (regBytes r).1 + i < p.1 + p.2)))
  (hit, hit.filter part)

/-- R100, R116, R118: what precedes the writes of an instruction to own LM that cover registers: the recipes that read them
pinned, and their own replayed where the writes leave a part of one or, for an atomic (`old`), read it. -/
def beforeLocals (old : Bool) (ps : List (Nat × Nat)) (s : State) : Res State :=
  if s.hereTags.isEmpty then .ok s
  else
    let r := s.registersAt ps
    beforeWrites (if old then r.1 else r.2) r.1 s

/-- R100: what precedes one write of n bytes of own LM. -/
def beforeLocal (old : Bool) (off n : Nat) (s : State) : Res State := beforeLocals old [(off, n)] s

/-- R352: the writes of an instruction of the issuing activation to own LM performed; a replica's are discarded outside
its own workspace. -/
def State.writeLocals (s : State) (ps : List (Nat × List Byte)) : State :=
  let a := s.here
  s.putLocals (ps.filter (fun p => !a.replica || (decide (a.wp ≤ p.1) && decide (p.1 < a.wp + Config.wsSize))))

/-- R352: one write of the issuing activation to own LM. -/
def State.writeLocal (s : State) (off : Nat) (bs : List Byte) : State := s.writeLocals [(off, bs)]

/-- R137: the L1 TLB filled for the pages of the addresses. -/
def State.touchTlbs (s : State) (sp : Space) (addrs : List Word) : State :=
  if sp = .g then addrs.foldl (fun s x => s.touchTlb x.toNat) s else s

/-- R141: the effect of a load through the tile window or from global memory, up to its leaving the core. -/
def loadRemote (sp : Space) (t a : BitVec 5) (ord sz : BitVec 2) (off : BitVec 10) (s : State) : Res State := do
  let ea := effAddr s a sz off
  let n := 2 ^ sz.toNat
  let x ← checkAccess s sp .load ea n noExtra
  let s := s.touchTlbs sp [ea]
  return s.request (.load t n) sp.code [⟨0, x.home, ea, 0, x.key⟩] (ordAnnot true ord)

/-- R141: the effect of a store through the tile window or to global memory, up to its leaving the core. -/
def storeRemote (sp : Space) (t a : BitVec 5) (ord sz : BitVec 2) (off : BitVec 10) (s : State) : Res State := do
  let ea := effAddr s a sz off
  let n := 2 ^ sz.toNat
  let x ← checkAccess s sp .store ea n noExtra
  let v := s.w t
  let s := (s.touchTlbs sp [ea]).fold (storeRecord (storeTag sp) ea n v)
  if s.here.replica then return s
  else return s.request (.store n v) sp.code [⟨0, x.home, ea, v, x.key⟩] (ordAnnot false ord)


/-! ### Accesses of own LM that stay outstanding (R161) -/

/-- R161: the issuing activation's plain access of n bytes at some addresses of own LM stays outstanding after it issued, so
that accesses of other spaces may be performed before it: the device has chosen so, and it touches no byte of the activation's
own workspace, whose bytes are its registers (log 90). -/
def State.delays (s : State) (addrs : List Word) (n : Nat) : Bool :=
  let a := s.here
  a.lazy && !a.fw && addrs.all (fun x => decide (x.toNat + n ≤ a.wp) || decide (a.wp + Config.wsSize ≤ x.toNat))

/-- The choice of `delays` used up. -/
def State.delayed (s : State) : State := s.updHere (fun a => { a with lazy := false })

/-! ### Scalar loads and stores (R141) -/

/-- R141, R162, R164: the effect of a store to own LM; an ordered one is a release, and no plain one stays outstanding unless
the device delays it (R161). -/
def storeLocal (t a : BitVec 5) (ord sz : BitVec 2) (off : BitVec 10) (s : State) : Res State := do
  let ea := effAddr s a sz off
  let n := 2 ^ sz.toNat
  if s.delays [ea] n && ord == 0 then
    let s ← storeRemote .l t a 0 sz off s
    return s.delayed
  else
    let x ← checkAccess s .l .store ea n noExtra
    let v := s.w t
    let s ← beforeLocal false ea.toNat n s
    let s := (s.writeLocal ea.toNat (leBytes n v.toNat)).fold (storeRecord 0x01 ea n v)
    return if ord = 0 then s else s.releaseEarly x.home n ord false

/-- R161, R170: the value that the issuing activation has read early for n bytes of own LM at an address (log 102). -/
def State.readBefore (s : State) (ea : Word) (n : Nat) : Option Nat :=
  match s.here.preread with
  | some (o, x) => if o ≤ ea.toNat ∧ ea.toNat + n ≤ o + 8 then some (x / 2 ^ (8 * (ea.toNat - o)) % 2 ^ (8 * n)) else none
  | none => none

/-- R141: the effect of a load from own LM; a plain one may have been read early (R170). -/
def loadOwn (t a : BitVec 5) (ord sz : BitVec 2) (off : BitVec 10) (s : State) : Res State := do
  let ea := effAddr s a sz off
  let n := 2 ^ sz.toNat
  if s.delays [ea] n && ord == 0 then
    let x ← checkAccess s .l .load ea n noExtra
    checkPoison s x.home ea n
    let s ← loadRemote .l t a 0 sz off s
    return s.delayed
  else match (if ord = 0 then s.readBefore ea n else none) with
    | some x => do
      let _ ← loadLocal s ea n
      return s.setW t (BitVec.ofNat 64 x)
    | none => loadL t a ord sz off s

/-- R141. Loads from the tile's own LM, zero-extending. -/
def execLdL (t a : BitVec 5) (ord sz : BitVec 2) (off : BitVec 10) (s : State) : Out State :=
  plainInstr [a.toNat] [t.toNat] (loadOwn t a ord sz off) s

/-- R141. Stores to the tile's own LM. -/
def execStL (t a : BitVec 5) (ord sz : BitVec 2) (off : BitVec 10) (s : State) : Out State :=
  plainInstr [t.toNat, a.toNat] [] (storeLocal t a ord sz off) s

/-- R141. Loads from translated global memory. -/
def execLdG (t a : BitVec 5) (ord sz : BitVec 2) (off : BitVec 10) (s : State) : Out State :=
  plainInstr [a.toNat] [t.toNat] (loadRemote .g t a ord sz off) s

/-- R141. Stores to translated global memory. -/
def execStG (t a : BitVec 5) (ord sz : BitVec 2) (off : BitVec 10) (s : State) : Out State :=
  plainInstr [t.toNat, a.toNat] [] (storeRemote .g t a ord sz off) s

/-- R141. Loads through a tile-window address. -/
def execLdT (t a : BitVec 5) (ord sz : BitVec 2) (off : BitVec 10) (s : State) : Out State :=
  plainInstr [a.toNat] [t.toNat] (loadRemote .t t a ord sz off) s

/-- R141. Stores through a tile-window address. -/
def execStT (t a : BitVec 5) (ord sz : BitVec 2) (off : BitVec 10) (s : State) : Out State :=
  plainInstr [t.toNat, a.toNat] [] (storeRemote .t t a ord sz off) s

/-- R43. c.ldw: ld.l.64 at wa + 8 × off. -/
def execCLdw (d a off : BitVec 4) (s : State) : Out State :=
  issue s (fun s => do
    let t ← withRegs [a.toNat] [d.toNat] (loadOwn (d.setWidth 5) (a.setWidth 5) 0 3 (off.setWidth 10)) s
    return t.done 2)

/-- R43. c.stw: st.l.64 at wa + 8 × off. -/
def execCStw (t a off : BitVec 4) (s : State) : Out State :=
  issue s (fun s => do
    let u ← withRegs [t.toNat, a.toNat] [] (storeLocal (t.setWidth 5) (a.setWidth 5) 0 3 (off.setWidth 10)) s
    return u.done 2)

/-! ### Vector memory (R142 to R146) -/

/-- The vector source fields of a vector access: the indices of an indexed one. -/
def indexField (form : Nat) (b : BitVec 5) : List (BitVec 5) := if form = 2 then [b] else []

/-- The w registers that an access of a form reads for its addresses. -/
def addrRegs (form : Nat) (a b : BitVec 5) : List Nat :=
  a.toNat :: (if form = 1 then [b.toNat] else if form = 2 then vCode b else [])

/-- R143 to R146: a vector load through the tile window or from global memory. One whose destination is a queue pushes
its entry at its issue (R108), and its response fills it. -/
def vloadRemote (sp : Space) (form : Nat) (d a b : BitVec 5) (m : BitVec 3) (esz : BitVec 2) : State → Res State :=
  vectorInstr (indexField form b) [d] noPre (fun xs s => do
    let n := 2 ^ esz.toNat
    let addrs := elemAddrs n (s.here.mreg m) (elemAddr form n (s.w a) (s.w b) (xs.headD 0))
    let ts ← checkElems s sp .load addrs n
    let _ ← if sp = .l then loadElems s 0 n ts else .ok 0
    let s := s.touchTlbs sp (addrs.map (·.2))
    let elems : List Elem := ts.map (fun t => ⟨t.1, t.2.2.home, t.2.1, 0, t.2.2.key⟩)
    match queueOf d with
    | some q =>
      let tile := s.here.tile
      return (s.pushPending tile q s.nextId).request (.vloadq tile (BitVec.ofNat 3 q.val) esz) sp.code elems .none
    | none => return s.request (.vload d esz) sp.code elems .none)

/-- R143, R145: a vector store; the elements are written in increasing k, so the higher prevails. -/
def vstore (sp : Space) (form : Nat) (d a b : BitVec 5) (m : BitVec 3) (esz : BitVec 2) : State → Res State :=
  vectorInstr (indexField form b) [] noPre (fun xs s => do
    let n := 2 ^ esz.toNat
    let data := s.here.vreg (d.setWidth 4)
    let val (k : Nat) : Word := BitVec.ofNat 64 (elemOf (8 * n) data k)
    let addrs := elemAddrs n (s.here.mreg m) (elemAddr form n (s.w a) (s.w b) (xs.headD 0))
    let ts ← checkElems s sp .store addrs n
    let s := addrs.foldl (fun s x => s.fold (storeRecord (storeTag sp) x.2 n (val x.1))) (s.touchTlbs sp (addrs.map (·.2)))
    let late := sp == .l && s.delays (addrs.map (·.2)) n
    if sp = .l && !late then
      let s ← beforeLocals false (addrs.map (fun x => (x.2.toNat, n))) s
      return s.writeLocals (addrs.map (fun x => (x.2.toNat, leBytes n (val x.1).toNat)))
    else
      let s := if late then s.delayed else s
      if s.here.replica then return s
      else
        return s.request (.vstore esz) sp.code
          (ts.map (fun t => ⟨t.1, t.2.2.home, t.2.1, val t.1, t.2.2.key⟩)) .none)

/-- R143, R161: a vector load of own LM, which the device may delay. -/
def vloadOwn (form : Nat) (d a b : BitVec 5) (m : BitVec 3) (esz : BitVec 2) (s : State) : Res State :=
  let n := 2 ^ esz.toNat
  let addrs (x : Vec) : List Word := (elemAddrs n (s.here.mreg m) (elemAddr form n (s.w a) (s.w b) x)).map (·.2)
  if (indexField form b ++ [d]).all (fun x => (queueOf x).isNone) && s.delays (addrs (s.here.vfield b)) n then do
    let s ← vloadRemote .l form d a b m esz s
    return s.delayed
  else loadVec form d a b m esz s

/-- The meaning of a vector load of own LM. -/
def vloadOwnInstr (form : Nat) (d a b : BitVec 5) (m : BitVec 3) (esz : BitVec 2) (s : State) : Out State :=
  plainInstr (addrRegs form a b ++ (if m = 0 then [] else vCode d)) (vCode d) (vloadOwn form d a b m esz) s

/-- The meaning of a remote vector load. -/
def vloadInstr (sp : Space) (form : Nat) (d a b : BitVec 5) (m : BitVec 3) (esz : BitVec 2) (s : State) : Out State :=
  plainInstr (addrRegs form a b ++ (if m = 0 then [] else vCode d)) (vCode d) (vloadRemote sp form d a b m esz) s

/-- The meaning of a vector store. -/
def vstoreInstr (sp : Space) (form : Nat) (d a b : BitVec 5) (m : BitVec 3) (esz : BitVec 2) (s : State) : Out State :=
  plainInstr (addrRegs form a b ++ vCode d) [] (vstore sp form d a b m esz) s

/-- R143. Contiguous vector load from own LM. -/
def execVldL (d a : BitVec 5) (m : BitVec 3) (esz : BitVec 2) (s : State) : Out State :=
  vloadOwnInstr 0 d a 0 m esz s
/-- R143. Contiguous vector load from global memory. -/
def execVldG (d a : BitVec 5) (m : BitVec 3) (esz : BitVec 2) (s : State) : Out State := vloadInstr .g 0 d a 0 m esz s
/-- R146. Contiguous vector load through the tile window. -/
def execVldT (d a : BitVec 5) (m : BitVec 3) (esz : BitVec 2) (s : State) : Out State := vloadInstr .t 0 d a 0 m esz s
/-- R143. Strided vector load from own LM. -/
def execVldsL (d a b : BitVec 5) (m : BitVec 3) (esz : BitVec 2) (s : State) : Out State :=
  vloadOwnInstr 1 d a b m esz s
/-- R143. Strided vector load from global memory. -/
def execVldsG (d a b : BitVec 5) (m : BitVec 3) (esz : BitVec 2) (s : State) : Out State := vloadInstr .g 1 d a b m esz s
/-- R143. Indexed vector load from own LM. -/
def execVldxL (d a b : BitVec 5) (m : BitVec 3) (esz : BitVec 2) (s : State) : Out State :=
  vloadOwnInstr 2 d a b m esz s
/-- R143. Indexed vector load from global memory. -/
def execVldxG (d a b : BitVec 5) (m : BitVec 3) (esz : BitVec 2) (s : State) : Out State := vloadInstr .g 2 d a b m esz s
/-- R145. Contiguous vector store to own LM. -/
def execVstL (d a : BitVec 5) (m : BitVec 3) (esz : BitVec 2) (s : State) : Out State := vstoreInstr .l 0 d a 0 m esz s
/-- R145. Contiguous vector store to global memory. -/
def execVstG (d a : BitVec 5) (m : BitVec 3) (esz : BitVec 2) (s : State) : Out State := vstoreInstr .g 0 d a 0 m esz s
/-- R146. Contiguous vector store through the tile window. -/
def execVstT (d a : BitVec 5) (m : BitVec 3) (esz : BitVec 2) (s : State) : Out State := vstoreInstr .t 0 d a 0 m esz s
/-- R145. Strided vector store to own LM. -/
def execVstsL (d a b : BitVec 5) (m : BitVec 3) (esz : BitVec 2) (s : State) : Out State := vstoreInstr .l 1 d a b m esz s
/-- R145. Strided vector store to global memory. -/
def execVstsG (d a b : BitVec 5) (m : BitVec 3) (esz : BitVec 2) (s : State) : Out State := vstoreInstr .g 1 d a b m esz s
/-- R145. Indexed vector store to own LM. -/
def execVstxL (d a b : BitVec 5) (m : BitVec 3) (esz : BitVec 2) (s : State) : Out State := vstoreInstr .l 2 d a b m esz s
/-- R145. Indexed vector store to global memory. -/
def execVstxG (d a b : BitVec 5) (m : BitVec 3) (esz : BitVec 2) (s : State) : Out State := vstoreInstr .g 2 d a b m esz s

/-! ### Leases and prefetch (R147 to R152) -/

/-- R150: a doubleword of lease entry n of an activation. -/
def State.leaseWord (s : State) (a : Act) (n i : Nat) : Nat :=
  leNat ((List.range 8).map (fun j => memRead (s.tile a.tile).lm (a.wp + Config.wsSize + 16 * n + 8 * i + j)))

/-- R150: lease entry n of an activation lives. -/
def State.leaseLive (s : State) (a : Act) (n : Nat) : Bool := (s.leaseWord a n 1).testBit 63

/-- R150: lease entry n of an activation written. -/
def State.setLease (s : State) (a : Act) (n : Nat) (d0 d1 : Nat) : State :=
  s.setTile a.tile ((s.tile a.tile).putBytes (a.wp + Config.wsSize + 16 * n) (leBytes 8 d0 ++ leBytes 8 d1))

/-- R148: the pages from va to the end of a range, each translated, its entry installed in the L1 TLB (R137), and checked in
increasing address; a frozen page parks (R154). -/
def leasePages (write : Bool) : Nat → Nat → Nat → State → Res State
  | 0, _, _, s => .ok s
  | fuel + 1, va, stop, s =>
    if stop ≤ va then .ok s
    else
      let a := s.here
      let at0 := BitVec.ofNat 64 va
      match s.lookup a va with
      | none => .error (trapOf cTMISS at0)
      | some e => do
        let pa := s.homeOf e (s.dieOf a.tile) va
        require (!s.frozenAt pa) cTMISS at0
        require (if write then e.w else e.r) cPERM at0
        require (s.reaches pa) cUNBACKED at0
        leasePages write fuel (va / pageBytes e.size * pageBytes e.size + pageBytes e.size) stop (s.touchTlb va)

/-- R148: the effect of tch.r and tch.w. The first execution for a range parks, for the translation service to record
the range, as it may at any park of a tch (R380, R386). -/
def takeLease (write : Bool) (d a b : BitVec 5) (s : State) : Res State := do
  nodeOnly s
  let base := s.w a
  let len := s.w b
  require (decide (base.toNat < 2 ^ 56)) cNONCANON base
  require (decide (len ≠ 0 ∧ len.toNat ≤ 2 ^ 30)) cLEASE 2
  require (decide (base.toNat + len.toNat ≤ 2 ^ 56)) cNONCANON (BitVec.ofNat 64 (2 ^ 56))
  let x := s.here
  match (List.range 8).find? (fun n => !s.leaseLive x n) with
  | none => .error (trapOf cLEASE 1)
  | some n =>
    let r : LeaseRange := ⟨base.toNat, len.toNat, write⟩
    let park (t : Trap) : State := (s.updHere (fun y => { y with parkTch := some r })).takeTrap s.cur t
    match leasePages write 16385 base.toNat (base.toNat + len.toNat) s with
    | .error t => if parks t.cause.code then return park t else .error t
    | .ok s =>
    if x.leases.contains r then
      let s := s.setLease x n base.toNat (len.toNat + (if write then 2 ^ 62 else 0) + 2 ^ 63)
      return s.setW d (BitVec.ofNat 64 n)
    else return park (trapOf cTMISS base)

/-- R148. Takes a read lease on a global range. -/
def execTchR (d a b : BitVec 5) (s : State) : Out State :=
  plainInstr [a.toNat, b.toNat] [d.toNat] (takeLease false d a b) s

/-- R148. Takes a write lease on a global range. -/
def execTchW (d a b : BitVec 5) (s : State) : Out State :=
  plainInstr [a.toNat, b.toNat] [d.toNat] (takeLease true d a b) s

/-- R149: lease entry n of an activation ends: LIVE is cleared, and its range is no longer recorded unless another
live lease has the same range. -/
def State.endLease (s : State) (n : Nat) : State :=
  let x := s.here
  let d0 := s.leaseWord x n 0
  let d1 := s.leaseWord x n 1
  let s := s.setLease x n d0 (d1 - 2 ^ 63)
  let again := (List.range 8).any (fun j => s.leaseLive x j && s.leaseWord x j 0 == d0 && s.leaseWord x j 1 == d1)
  if again then s
  else
    let r : LeaseRange := ⟨d0, d1 % 2 ^ 31, d1.testBit 62⟩
    s.updHere (fun y => { y with leases := y.leases.filter (· != r) })

/-- R149. Ends a live lease of the activation. -/
def execTrel (a : BitVec 5) (s : State) : Out State :=
  plainInstr [a.toNat] [] (fun s => do
    nodeOnly s
    let n := (s.w a).toNat
    return if n < 8 ∧ s.leaseLive s.here n = true then s.endLease n else s) s

/-- R133: the key of an L1 line: its number and the key id it was read under. -/
def l1Key (pa : Nat) (key : BitVec 8) : Nat := pa / 64 * 256 + key.toNat

/-- R133: the lines of an L1 before another comes in: it holds 32 KiB, and a full one gives up a line, the lowest if no
choice of the device has made room before (log 51). -/
def l1Room (l : List (Nat × BitVec 512)) (k : Nat) : List (Nat × BitVec 512) :=
  if (tabFind l k).isSome || decide (l.length < 512) then l else l.drop 1

/-- R133: a line with bytes put into it where it holds them. -/
def putLine (x : BitVec 512) (line pa : Nat) (bs : List Byte) : BitVec 512 :=
  ((List.range bs.length).zip bs).foldl (fun x e =>
    if (pa + e.1) / 64 = line then BitVec.ofNat 512 (putByte x.toNat ((pa + e.1) % 64) e.2) else x) x

/-- R167: the elements of outstanding stores that a core's L1 already shows, with their bytes. -/
def State.shownElems (s : State) (core : Option (Nat × Bool)) : List (Elem × Nat) :=
  (s.reqs.filter (fun q => q.core.isSome && q.core == core)).flatMap (fun q =>
    (q.elems.filter (fun e => q.shown.contains e.k)).map (fun e => (e, q.op.size)))

/-- R133, R159: the line of a physical address put into the L1 of a core, with what the core has already seen of stores
outstanding. -/
def State.fillL1 (s : State) (tile : Nat) (stg : Bool) (key : BitVec 8) (pa : Nat) : State :=
  let x := (s.shownElems (some (tile, stg))).foldl (fun x e => match e.1.home with
    | .phys q => if e.1.key = key then putLine x (pa / 64) q (leBytes e.2 e.1.value.toNat) else x
    | .lm _ _ => x) (BitVec.ofNat 512 (s.homeRead key.toNat (.phys (pa / 64 * 64)) 64))
  s.updCore tile stg (fun c => { c with l1 := tabSet (l1Room c.l1 (l1Key pa key)) (l1Key pa key) x })

/-- R152: the effect of pref.g: both L1 lines of the L2 line come in. R129 counts it among the accesses that take NONCANON,
R152 says that it never faults and does nothing where the check fails: it does nothing (log 72). -/
def prefetch (a : BitVec 5) (s : State) : Res State := do
  nodeOnly s
  let ea := s.w a
  let x := s.here
  match checkAccess s .g .load ea 1 noExtra with
  | .error _ => return s
  | .ok t =>
    let s := s.touchTlbs .g [ea]
    match t.home with
    | .phys pa => return if t.host || s.poisoned t.home 0 then s
        else (s.fillL1 x.tile x.stg t.key (pa / 128 * 128)).fillL1 x.tile x.stg t.key (pa / 128 * 128 + 64)
    | .lm _ _ => return s

/-- R152. Prefetches a global line into its slice and the L1 without faulting. -/
def execPrefG (a : BitVec 5) (s : State) : Out State := plainInstr [a.toNat] [] (prefetch a) s

end Sys2Proof.Machine
end

