-- ==== Sys2Proof/Machine/Atomics.lean ====
section
/-! DEFINITION. Atomics, commit-deferred adds and the multicast store (R172 to R179): majors 0x1C to 0x1F. -/

namespace Sys2Proof.Machine

/-- R173: the value an immediate atomic writes on n-bit operands, if it writes; E is the low part of wd. -/
def atomicResult (op : Nat) (n old B E : Nat) : Option Nat :=
  match op with
  | 0 => some ((old + B) % 2 ^ n)
  | 1 => some (old &&& B)
  | 2 => some (old ||| B)
  | 3 => some (old ^^^ B)
  | 4 => some (if signedOf n old ≤ signedOf n B then old else B)
  | 5 => some (if signedOf n old ≥ signedOf n B then old else B)
  | 6 => some (if old ≤ B then old else B)
  | 7 => some (if old ≥ B then old else B)
  | 8 => some B
  | 9 => if old = E then some B else none
  | _ => some ((if n = 32 then fp32 else fp64).add old B).1

/-- R175: an atomic that a PCIe AtomicOp cannot do faults PERM on a host page of placement 2. -/
def placementOk (op : Nat) (ea : Word) (x : Target) : Res Unit :=
  require (!(x.host && x.place == 2) || op == 0 || op == 8 || op == 9 || op == 11) cPERM ea

/-- R176: the address lies in the issuing activation's own workspace, by a local address or by a tile-window address of
its own DT. -/
def ownWorkspace (a : Act) (sp : Space) (ea : Word) : Bool :=
  let off := match sp with
    | .l => ea.toNat
    | _ => ea.toNat % 2 ^ 22
  let here := match sp with
    | .l => true
    | .t => ea.toNat / 2 ^ 22 == a.dt
    | .g => false
  here && decide (a.wp ≤ off) && decide (off < a.wp + Config.wsSize)

/-- R25, R176: the issuing activation's node is effected. -/
def State.effected (s : State) : State := s.updHere (fun a => { a with status := { a.status with eff := true } })

/-- R173, R174, R176: an immediate atomic: of own LM performed at issue, in another space outstanding until its
response. -/
def immediateAtomic (sp : Space) (op : Nat) (d a b : BitVec 5) (ord scope : BitVec 2) (sz64 : Bool) (s : State) :
    Res State := do
  let n := if sz64 then 8 else 4
  let ea := s.w a
  let x ← checkAccess s sp .atomic ea n (placementOk op ea)
  let B := (s.w b).toNat % 2 ^ (8 * n)
  let E := (s.w d).toNat % 2 ^ (8 * n)
  match sp with
  | .l =>
    match checkPoison s x.home ea n with
    | .error t => .error t
    | .ok _ => pure ()
    let s ← beforeLocal true ea.toNat n s
    let s := if ownWorkspace s.here sp ea || s.here.fw then s else s.effected
    let old := s.localRead ea.toNat n
    let s := match atomicResult op (8 * n) old B E with
      | some y => s.putLocal ea.toNat (leBytes n y)
      | none => s
    let s := if ord.getLsbD 1 then s.releaseEarly x.home n scope (ord == 3) else s
    let s := s.setW d (BitVec.ofNat 64 old)
    return if ord.getLsbD 0 then s.acquire s.cur else s
  | _ =>
    let s := if ownWorkspace s.here sp ea || s.here.fw then s else s.effected
    let s := s.touchTlbs sp [ea]
    let s := match x.home with
      | .phys pa => if x.host && x.place != 2 then s.holdHostLine (s.here.dt / 4096) pa else s
      | .lm _ _ => s
    return s.request (.atomic (BitVec.ofNat 4 op) d n (BitVec.ofNat 64 B) (BitVec.ofNat 64 E)) sp.code
      [⟨0, x.home, ea, 0, x.key⟩] (atomicAnnot ord scope)

/-- The meaning of an immediate atomic. -/
def atomicInstr (sp : Space) (op : Nat) (d a b : BitVec 5) (ord scope : BitVec 2) (sz64 : Bool) (s : State) : Out State :=
  plainInstr ([a.toNat, b.toNat] ++ (if op = 9 then [d.toNat] else [])) [d.toNat]
    (originalOnly (immediateAtomic sp op d a b ord scope sz64)) s

/-- R169: the scope of a commit-deferred effect: the larger of domain and its stated scope. -/
def deferredScope (scope : BitVec 2) : BitVec 2 := if scope = 3 then 3 else 2

/-- R177, R209: a commit-deferred add: its checks, then the address (physical for `.g`), the value and the scope kept, and
wd := 0. -/
def deferredAdd (sp : Space) (d a b : BitVec 5) (scope : BitVec 2) (sz64 : Bool) (s : State) : Res State := do
  let n := if sz64 then 8 else 4
  let ea := s.w a
  let x ← checkAccess s sp .atomic ea n (placementOk 11 ea)
  let v := s.w b
  let s := s.touchTlbs sp [ea]
  let kept : Word := match x.home with | .phys pa => BitVec.ofNat 64 pa | .lm _ _ => ea
  let s := s.updHere (fun y => { y with adds := y.adds ++
    [⟨x.home, deferredScope scope, x.key.toNat, kept, sz64, v, x.host && x.place != 2⟩] })
  return s.setW d 0

/-- The meaning of a commit-deferred add. -/
def deferredInstr (sp : Space) (d a b : BitVec 5) (scope : BitVec 2) (sz64 : Bool) (s : State) : Out State :=
  plainInstr [a.toNat, b.toNat] [d.toNat] (originalOnly (deferredAdd sp d a b scope sz64)) s

/-- R178: the effect of st.m: one write for each replica, independent of the others, all one outstanding request. -/
def multicast (t a : BitVec 5) (ord sz : BitVec 2) (off : BitVec 10) (s : State) : Res State := do
  let ea := effAddr s a sz off
  let n := 2 ^ sz.toNat
  let x ← checkAccess s .g .multi ea n noExtra
  let v := s.w t
  let s := (s.touchTlbs .g [ea]).fold (storeRecord 0x04 ea n v)
  if s.here.replica then return s
  else
    let s := if s.here.fw then s else s.effected
    let homes := match x.home with
      | .phys pa => if x.homes.isEmpty then [pa] else x.homes
      | .lm _ _ => []
    return s.requests 2 (homes.map (fun h => (.multi n v, [⟨0, .phys h, ea, v, x.key⟩]))) (ordAnnot false ord)

/-- R178. The multicast store. -/
def execStM (t a : BitVec 5) (ord sz : BitVec 2) (off : BitVec 10) (s : State) : Out State :=
  plainInstr [t.toNat, a.toNat] [] (multicast t a ord sz off) s

/-- R173. Atomic add on own LM. -/
def execAaddL (d : BitVec 5) (a : BitVec 5) (b : BitVec 5) (ord : BitVec 2) (scope : BitVec 2) (sz64 : Bool) (s : State) : Out State :=
  atomicInstr .l 0 d a b ord scope sz64 s

/-- R173. Atomic AND on own LM. -/
def execAandL (d : BitVec 5) (a : BitVec 5) (b : BitVec 5) (ord : BitVec 2) (scope : BitVec 2) (sz64 : Bool) (s : State) : Out State :=
  atomicInstr .l 1 d a b ord scope sz64 s

/-- R173. Atomic OR on own LM. -/
def execAorL (d : BitVec 5) (a : BitVec 5) (b : BitVec 5) (ord : BitVec 2) (scope : BitVec 2) (sz64 : Bool) (s : State) : Out State :=
  atomicInstr .l 2 d a b ord scope sz64 s

/-- R173. Atomic XOR on own LM. -/
def execAxorL (d : BitVec 5) (a : BitVec 5) (b : BitVec 5) (ord : BitVec 2) (scope : BitVec 2) (sz64 : Bool) (s : State) : Out State :=
  atomicInstr .l 3 d a b ord scope sz64 s

/-- R173. Atomic signed minimum on own LM. -/
def execAminL (d : BitVec 5) (a : BitVec 5) (b : BitVec 5) (ord : BitVec 2) (scope : BitVec 2) (sz64 : Bool) (s : State) : Out State :=
  atomicInstr .l 4 d a b ord scope sz64 s

/-- R173. Atomic signed maximum on own LM. -/
def execAmaxL (d : BitVec 5) (a : BitVec 5) (b : BitVec 5) (ord : BitVec 2) (scope : BitVec 2) (sz64 : Bool) (s : State) : Out State :=
  atomicInstr .l 5 d a b ord scope sz64 s

/-- R173. Atomic unsigned minimum on own LM. -/
def execAminuL (d : BitVec 5) (a : BitVec 5) (b : BitVec 5) (ord : BitVec 2) (scope : BitVec 2) (sz64 : Bool) (s : State) : Out State :=
  atomicInstr .l 6 d a b ord scope sz64 s

/-- R173. Atomic unsigned maximum on own LM. -/
def execAmaxuL (d : BitVec 5) (a : BitVec 5) (b : BitVec 5) (ord : BitVec 2) (scope : BitVec 2) (sz64 : Bool) (s : State) : Out State :=
  atomicInstr .l 7 d a b ord scope sz64 s

/-- R173. Atomic swap on own LM. -/
def execAswpL (d : BitVec 5) (a : BitVec 5) (b : BitVec 5) (ord : BitVec 2) (scope : BitVec 2) (sz64 : Bool) (s : State) : Out State :=
  atomicInstr .l 8 d a b ord scope sz64 s

/-- R173. Atomic compare-and-swap on own LM. -/
def execAcasL (d : BitVec 5) (a : BitVec 5) (b : BitVec 5) (ord : BitVec 2) (scope : BitVec 2) (sz64 : Bool) (s : State) : Out State :=
  atomicInstr .l 9 d a b ord scope sz64 s

/-- R173. Atomic floating-point add on own LM. -/
def execAfaddL (d : BitVec 5) (a : BitVec 5) (b : BitVec 5) (ord : BitVec 2) (scope : BitVec 2) (sz64 : Bool) (s : State) : Out State :=
  atomicInstr .l 10 d a b ord scope sz64 s

/-- R177. Commit-deferred add on own LM. -/
def execAaddKL (d : BitVec 5) (a : BitVec 5) (b : BitVec 5) (scope : BitVec 2) (sz64 : Bool) (s : State) : Out State :=
  deferredInstr .l d a b scope sz64 s

/-- R173. Atomic add through the tile window. -/
def execAaddT (d : BitVec 5) (a : BitVec 5) (b : BitVec 5) (ord : BitVec 2) (scope : BitVec 2) (sz64 : Bool) (s : State) : Out State :=
  atomicInstr .t 0 d a b ord scope sz64 s

/-- R173. Atomic AND through the tile window. -/
def execAandT (d : BitVec 5) (a : BitVec 5) (b : BitVec 5) (ord : BitVec 2) (scope : BitVec 2) (sz64 : Bool) (s : State) : Out State :=
  atomicInstr .t 1 d a b ord scope sz64 s

/-- R173. Atomic OR through the tile window. -/
def execAorT (d : BitVec 5) (a : BitVec 5) (b : BitVec 5) (ord : BitVec 2) (scope : BitVec 2) (sz64 : Bool) (s : State) : Out State :=
  atomicInstr .t 2 d a b ord scope sz64 s

/-- R173. Atomic XOR through the tile window. -/
def execAxorT (d : BitVec 5) (a : BitVec 5) (b : BitVec 5) (ord : BitVec 2) (scope : BitVec 2) (sz64 : Bool) (s : State) : Out State :=
  atomicInstr .t 3 d a b ord scope sz64 s

/-- R173. Atomic signed minimum through the tile window. -/
def execAminT (d : BitVec 5) (a : BitVec 5) (b : BitVec 5) (ord : BitVec 2) (scope : BitVec 2) (sz64 : Bool) (s : State) : Out State :=
  atomicInstr .t 4 d a b ord scope sz64 s

/-- R173. Atomic signed maximum through the tile window. -/
def execAmaxT (d : BitVec 5) (a : BitVec 5) (b : BitVec 5) (ord : BitVec 2) (scope : BitVec 2) (sz64 : Bool) (s : State) : Out State :=
  atomicInstr .t 5 d a b ord scope sz64 s

/-- R173. Atomic unsigned minimum through the tile window. -/
def execAminuT (d : BitVec 5) (a : BitVec 5) (b : BitVec 5) (ord : BitVec 2) (scope : BitVec 2) (sz64 : Bool) (s : State) : Out State :=
  atomicInstr .t 6 d a b ord scope sz64 s

/-- R173. Atomic unsigned maximum through the tile window. -/
def execAmaxuT (d : BitVec 5) (a : BitVec 5) (b : BitVec 5) (ord : BitVec 2) (scope : BitVec 2) (sz64 : Bool) (s : State) : Out State :=
  atomicInstr .t 7 d a b ord scope sz64 s

/-- R173. Atomic swap through the tile window. -/
def execAswpT (d : BitVec 5) (a : BitVec 5) (b : BitVec 5) (ord : BitVec 2) (scope : BitVec 2) (sz64 : Bool) (s : State) : Out State :=
  atomicInstr .t 8 d a b ord scope sz64 s

/-- R173. Atomic compare-and-swap through the tile window. -/
def execAcasT (d : BitVec 5) (a : BitVec 5) (b : BitVec 5) (ord : BitVec 2) (scope : BitVec 2) (sz64 : Bool) (s : State) : Out State :=
  atomicInstr .t 9 d a b ord scope sz64 s

/-- R173. Atomic floating-point add through the tile window. -/
def execAfaddT (d : BitVec 5) (a : BitVec 5) (b : BitVec 5) (ord : BitVec 2) (scope : BitVec 2) (sz64 : Bool) (s : State) : Out State :=
  atomicInstr .t 10 d a b ord scope sz64 s

/-- R177. Commit-deferred add through the tile window. -/
def execAaddKT (d : BitVec 5) (a : BitVec 5) (b : BitVec 5) (scope : BitVec 2) (sz64 : Bool) (s : State) : Out State :=
  deferredInstr .t d a b scope sz64 s

/-- R173. Atomic add on global memory. -/
def execAaddG (d : BitVec 5) (a : BitVec 5) (b : BitVec 5) (ord : BitVec 2) (scope : BitVec 2) (sz64 : Bool) (s : State) : Out State :=
  atomicInstr .g 0 d a b ord scope sz64 s

/-- R173. Atomic AND on global memory. -/
def execAandG (d : BitVec 5) (a : BitVec 5) (b : BitVec 5) (ord : BitVec 2) (scope : BitVec 2) (sz64 : Bool) (s : State) : Out State :=
  atomicInstr .g 1 d a b ord scope sz64 s

/-- R173. Atomic OR on global memory. -/
def execAorG (d : BitVec 5) (a : BitVec 5) (b : BitVec 5) (ord : BitVec 2) (scope : BitVec 2) (sz64 : Bool) (s : State) : Out State :=
  atomicInstr .g 2 d a b ord scope sz64 s

/-- R173. Atomic XOR on global memory. -/
def execAxorG (d : BitVec 5) (a : BitVec 5) (b : BitVec 5) (ord : BitVec 2) (scope : BitVec 2) (sz64 : Bool) (s : State) : Out State :=
  atomicInstr .g 3 d a b ord scope sz64 s

/-- R173. Atomic signed minimum on global memory. -/
def execAminG (d : BitVec 5) (a : BitVec 5) (b : BitVec 5) (ord : BitVec 2) (scope : BitVec 2) (sz64 : Bool) (s : State) : Out State :=
  atomicInstr .g 4 d a b ord scope sz64 s

/-- R173. Atomic signed maximum on global memory. -/
def execAmaxG (d : BitVec 5) (a : BitVec 5) (b : BitVec 5) (ord : BitVec 2) (scope : BitVec 2) (sz64 : Bool) (s : State) : Out State :=
  atomicInstr .g 5 d a b ord scope sz64 s

/-- R173. Atomic unsigned minimum on global memory. -/
def execAminuG (d : BitVec 5) (a : BitVec 5) (b : BitVec 5) (ord : BitVec 2) (scope : BitVec 2) (sz64 : Bool) (s : State) : Out State :=
  atomicInstr .g 6 d a b ord scope sz64 s

/-- R173. Atomic unsigned maximum on global memory. -/
def execAmaxuG (d : BitVec 5) (a : BitVec 5) (b : BitVec 5) (ord : BitVec 2) (scope : BitVec 2) (sz64 : Bool) (s : State) : Out State :=
  atomicInstr .g 7 d a b ord scope sz64 s

/-- R173. Atomic swap on global memory. -/
def execAswpG (d : BitVec 5) (a : BitVec 5) (b : BitVec 5) (ord : BitVec 2) (scope : BitVec 2) (sz64 : Bool) (s : State) : Out State :=
  atomicInstr .g 8 d a b ord scope sz64 s

/-- R173. Atomic compare-and-swap on global memory. -/
def execAcasG (d : BitVec 5) (a : BitVec 5) (b : BitVec 5) (ord : BitVec 2) (scope : BitVec 2) (sz64 : Bool) (s : State) : Out State :=
  atomicInstr .g 9 d a b ord scope sz64 s

/-- R173. Atomic floating-point add on global memory. -/
def execAfaddG (d : BitVec 5) (a : BitVec 5) (b : BitVec 5) (ord : BitVec 2) (scope : BitVec 2) (sz64 : Bool) (s : State) : Out State :=
  atomicInstr .g 10 d a b ord scope sz64 s

/-- R177. Commit-deferred add on global memory. -/
def execAaddKG (d : BitVec 5) (a : BitVec 5) (b : BitVec 5) (scope : BitVec 2) (sz64 : Bool) (s : State) : Out State :=
  deferredInstr .g d a b scope sz64 s

end Sys2Proof.Machine
end

