-- ==== Sys2Proof/Machine/Rods.lean ====
section
/-! DEFINITION. Rods and waits (R180 to R190): majors 0x20 to 0x22, and the performance of a remote add. -/

namespace Sys2Proof.Machine

/-- A rod instruction acts on the sync unit of the issuing tile; a firmware core has none (log 9). -/
def onTile (f : State → Res State) (s : State) : Res State := do
  nodeOnly s
  originalOnly f s

/-- R185: rod k of the issuing tile. -/
def State.hereRod (s : State) (k : Nat) : Rod := (s.tile s.here.tile).rod k

/-- R170: a change of own rod k is a release at a scope, which the device may let be seen before accesses that it orders. -/
def State.rodRelease (s : State) (k : Nat) (scope : BitVec 2) : State :=
  s.releaseEarly (.lm s.here.tile (Config.syncBase + 8 * k)) 8 scope false

/-- R170, R185, R188. COUNT of own rod k raised by x: a release at tile scope. -/
def rodAdd (k : Nat) (x : BitVec 32) (s : State) : Res State :=
  let s := s.rodRelease k 0
  .ok (s.addRod s.here.tile k x)

/-- R185. radd: COUNT raised by the low word of wa. -/
def execRadd (a : BitVec 5) (rod : BitVec 7) (s : State) : Out State :=
  plainInstr [a.toNat] [] (onTile (fun s => rodAdd rod.toNat ((s.w a).setWidth 32) s)) s

/-- R185: COUNT set and OVF cleared. -/
def rodSet (k : Nat) (x : BitVec 32) (s : State) : Res State :=
  let s := s.rodRelease k 0
  let r : Rod := { s.hereRod k with count := x, ovf := false }
  .ok (s.changeRod s.here.tile k r r)

/-- R185. rset. -/
def execRset (a : BitVec 5) (rod : BitVec 7) (s : State) : Out State :=
  plainInstr [a.toNat] [] (onTile (fun s => rodSet rod.toNat ((s.w a).setWidth 32) s)) s

/-- R185. rget: wd := sext(COUNT). -/
def execRget (d : BitVec 5) (rod : BitVec 7) (s : State) : Out State :=
  plainInstr [] [d.toNat] (onTile (fun s => .ok (s.setW d ((s.hereRod rod.toNat).count.signExtend 64)))) s

/-- R185: THR set. -/
def rodArm (k : Nat) (x : BitVec 16) (s : State) : Res State :=
  let s := s.rodRelease k 0
  let r : Rod := { s.hereRod k with thr := x }
  .ok (s.changeRod s.here.tile k r r)

/-- R185. rarm. -/
def execRarm (a : BitVec 5) (rod : BitVec 7) (s : State) : Out State :=
  plainInstr [a.toNat] [] (onTile (fun s => rodArm rod.toNat ((s.w a).setWidth 16) s)) s

/-- R183, R185: rwait: ends at once when the rod is satisfied, else waits on it. -/
def rodWait (k : Nat) (s : State) : Res State :=
  .ok (if (s.hereRod k).sat then s.acquire s.cur else s.block s.cur (.rod k) 1 0)

/-- R185. rwait. -/
def execRwait (rod : BitVec 7) (s : State) : Out State := plainInstr [] [] (onTile (rodWait rod.toNat)) s

/-- R185: rtest. -/
def rodTest (d : BitVec 5) (k : Nat) (s : State) : Res State :=
  .ok (if (s.hereRod k).sat then (s.setW d 1).acquire s.cur else s.setW d 0)

/-- R185. rtest. -/
def execRtest (d : BitVec 5) (rod : BitVec 7) (s : State) : Out State :=
  plainInstr [] [d.toNat] (onTile (rodTest d rod.toNat)) s

/-- R170, R186: barr, a release at panel scope: the arrival record, then the add, and the step of BGEN when the rod is
satisfied. -/
def rodArrive (k : Nat) (s : State) : Res State :=
  let s := s.rodRelease k 1
  let r := s.hereRod k
  let c := r.add 1
  let s := s.updHere (fun a => { a with rodRec := some (k, r.bgen) })
  .ok (s.changeRod s.here.tile k c (if c.sat then { c with count := 0, bgen := c.bgen + 1 } else c))

/-- R185. barr. -/
def execBarr (rod : BitVec 7) (s : State) : Out State := plainInstr [] [] (onTile (rodArrive rod.toNat)) s

/-- R186: bwait. -/
def rodBarrierWait (k : Nat) (s : State) : Res State :=
  .ok (match s.here.rodRec with
    | some (j, gen) =>
      if j = k then
        if (s.hereRod k).bgen ≠ gen then s.acquire s.cur else s.block s.cur (.barrier k gen) 1 0
      else s
    | none => s)

/-- R185. bwait. -/
def execBwait (rod : BitVec 7) (s : State) : Out State := plainInstr [] [] (onTile (rodBarrierWait rod.toNat)) s

/-! ### Remote and indexed adds (R188) -/

/-- R188: the checks of a rod's tile-window address; its DT and rod. -/
def checkRemoteRod (s : State) (x : Word) : Res (Nat × Nat) := do
  let dt := (x.extractLsb' 22 15).toNat
  let off := (x.setWidth 22).toNat
  require (decide (x.toNat < 2 ^ 37)) cWINDOW x
  require (s.names s.panelHere dt) cWINDOW x
  require (decide (Config.syncBase ≤ off) && decide (off < Config.syncEnd)) cWINDOW x
  require (decide (off % 8 = 0)) cALIGN x
  return (dt, (off - Config.syncBase) / 8)

/-- R170: the scope of a remote rod add's release: panel where the rod is on the issuer's panel, else domain. -/
def State.addScope (s : State) (dt : Nat) : BitVec 2 := if agentPanel (s.here.agent s.cur) = dt / 4096 then 1 else 2

/-- R136, R188: the record last made by a sender counts as an outstanding request of a core until its acknowledgement. -/
def State.countAdd (s : State) (src : Nat) (stg : Bool) : State :=
  s.updKept src false (fun l => l.map (fun r => if r.id + 1 = s.nextId then { r with core := some stg } else r))

/-- R188: rrmt: the node is effected and the add leaves as a durable request. -/
def remoteAdd (a b : BitVec 5) (s : State) : Res State := do
  let (dt, k) ← checkRemoteRod s (s.w a)
  let x := (s.w b).setWidth 32
  let s := s.releaseEarly (.lm dt (Config.syncBase + 8 * k)) 8 (s.addScope dt) false
  if s.here.fw then return (s.send s.cur dt (.rodAdd k x) true (some s.cur)).countAdd s.cur false
  else return (s.effected.send s.here.dt dt (.rodAdd k x) true (some s.cur)).countAdd s.here.dt s.here.stg

/-- R188. rrmt. -/
def execRrmt (a b : BitVec 5) (s : State) : Out State :=
  plainInstr [a.toNat, b.toNat] [] (originalOnly (remoteAdd a b)) s

/-- R188: rrmt.k: the same checks, the add kept for the commit. -/
def remoteAddK (a b : BitVec 5) (s : State) : Res State := do
  let (dt, k) ← checkRemoteRod s (s.w a)
  let x := (s.w b).setWidth 32
  return s.updHere (fun y => { y with rods := y.rods ++ [⟨dt, k, x⟩] })

/-- R188. rrmt.k. -/
def execRrmtK (a b : BitVec 5) (s : State) : Out State :=
  plainInstr [a.toNat, b.toNat] [] (originalOnly (remoteAddK a b)) s

/-- R188: radd.x. -/
def indexedAdd (a b : BitVec 5) (s : State) : Res State := do
  let k := s.w b
  require (decide (k.toNat < 96)) cBOUNDS k
  rodAdd k.toNat ((s.w a).setWidth 32) s

/-- R188. radd.x. -/
def execRaddX (a b : BitVec 5) (s : State) : Out State :=
  plainInstr [a.toNat, b.toNat] [] (onTile (indexedAdd a b)) s

/-! ### waitm (R189, R190) -/

/-- R190: the checks of a source list. -/
def checkSources (a : Act) (src : Word) : Res Unit := do
  let slot (i : Nat) : Bool := src.getLsbD (8 * i + 7)
  let rod (i : Nat) : Nat := (src.extractLsb' (8 * i) 7).toNat
  let is := List.range 4
  require (decide (src.toNat / 2 ^ 41 = 0) && !is.any (fun i => slot i && decide (96 ≤ rod i)) &&
    (is.any slot || src.extractLsb' 32 9 != 0) && !(src.getLsbD 40 && decide (a.ident[13].toNat < 8))) cBOUNDS src
  match (List.finRange 8).find? (fun q => src.getLsbD (32 + q.val) && !queueAllowed a q false) with
  | some q => .error (trapOf cQUEUE (BitVec.ofNat 64 q.val))
  | none => .ok ()

/-- R189, R190: waitm: the first source that holds ends it at once; else it waits on all of them. -/
def waitMulti (d b : BitVec 5) (s : State) : Res State := do
  let src := s.here.ereg (b.setWidth 3)
  checkSources s.here src
  match s.waitmCode s.here src none with
  | some c =>
    let s := if c < 8 then s.acquire s.cur else s
    return s.setW d (BitVec.ofNat 64 c)
  | none => return s.block s.cur (.multi d src) 1 0

/-- R189. waitm. -/
def execWaitm (d b : BitVec 5) (s : State) : Out State := plainInstr [] [d.toNat] (onTile (waitMulti d b)) s

/-! ### Remote adds reaching their rod -/

/-- Where a message ends: at a tile, at a firmware core, or at the home of a graph record. -/
def Msg.lane (m : Msg) : Nat :=
  match m.body with
  | .trap _ _ _ _ => 1
  | .beadReturn _ _ => 2
  | _ => 0

/-- R335: messages from one router to another arrive in the order sent: a message waits for an earlier one from its
sender to its target. -/
def Msg.behind (m x : Msg) : Bool := x.src == m.src && x.dst == m.dst && x.lane == m.lane

/-- The message of a position in the list of those in flight, if it may arrive, and the state without it. -/
def State.takeMsg (s : State) (n : Nat) : Option (Msg × State) :=
  match s.msgs[n]? with
  | some m => if (s.msgs.take n).any m.behind then none else some (m, { s with msgs := s.msgs.eraseIdx n })
  | none => none

/-- R342: the effect of a durable request belongs to the target's next epoch: the sender's retention record notes
which, or is freed where the target keeps no epochs (R339: it has no partner). -/
def State.markDurable (s : State) (m : Msg) : State :=
  match m.keep with
  | none => s
  | some id =>
    let e := (s.tile m.dst).epochNext
    let s := s.setTile m.dst { s.tile m.dst with dirty := true }
    s.updKept m.src false (fun l => l.map (fun r => if r.id = id then { r with epoch := some e } else r))

/-- R335, R347: the PT of a VT takes nothing while its state is being copied, nor one lost before it resumes; in the
window of a new generation, what was first routed under it waits for its router's marker. -/
def State.routeOpen (s : State) (r : Route) : Bool :=
  let d := s.die (s.dieOf r.dt)
  let onDie := d.rotVt == r.dt
  !(s.tile r.dt).lost && (s.ptOf r.dt).isSome &&
  (match d.phase with
    | .copying => !onDie
    | .window => !onDie || !reached r.gen d.gen || !d.markers.contains r.router
    | _ => true)

/-- R335, R347, R424: a message may be performed at its tile, the flit that carries it to another panel having been delivered. -/
def State.deliverable (s : State) (m : Msg) : Bool := s.routeOpen ⟨m.dst, m.router, m.gen⟩ && s.crossed (.msg m.id)

/-- R164, R170: a remote rod add has left before accesses that it orders, and a wait is pending on its rod, which would acquire
from it: it is performed once those have been. -/
def State.addTooEarly (s : State) (m : Msg) (k : Nat) : Bool :=
  s.rodWaited m.dst k &&
    s.early.any (fun e => e.issuer == m.src && e.home == .lm m.dst (Config.syncBase + 8 * k))

/-- R188. A remote rod add reaches its target rod and is performed there. -/
def execRemoteRodAdd (n : Nat) (s : State) : Out State :=
  .next (match s.takeMsg n with
    | some (m, t) =>
      match m.body with
      | .rodAdd k x => if s.deliverable m && !s.addTooEarly m k then (t.addRod m.dst k x).markDurable m else s
      | _ => s
    | none => s)

end Sys2Proof.Machine
end

