-- ==== Sys2Proof/Machine/Beam.lean ====
section
/-! DEFINITION. The beam (R191 to R198): major 0x23, the raises and releases of its tree, and the death and
re-combination of a segment (R196). -/

namespace Sys2Proof.Machine

/-- R193: a leaf of a tile changed. -/
def State.setLeaf (s : State) (dt g : Nat) (l : Leaf) : State :=
  let t := s.tile dt
  s.setTile dt { t with leaves := tabSet t.leaves g l }

/-- R198: the waits of a VT's activations for the generation of its leaf to change end where it has. -/
def State.wakeBeam (s : State) (dt g : Nat) : State :=
  let gen := ((s.tile dt).leaf g).gen
  s.acts.foldl (fun s e =>
    if e.2.dt != dt || e.2.replica then s else
    match e.2.wait with
    | .beamGen j old => if j = g ∧ gen ≠ old then
        (s.acquire e.1).unblock e.1 (fun a => { a with pc := a.pc + 4 }) else s
    | _ => s) s

/-- R194: the release of a group reaches the leaf of a VT: GEN is set, a member's ARR and UP are cleared, and the
waits on the phase end. -/
def State.releaseLeaf (s : State) (dt g : Nat) (gen : BitVec 8) : State :=
  let l := (s.tile dt).leaf g
  let l := if l.member then { l with gen := gen, arr := 0, up := false } else { l with gen := gen }
  let s := (s.setLeaf dt g l).wakeBeam dt g
  s.acts.foldl (fun s e =>
    if e.2.dt != dt || e.2.replica then s else
    match e.2.wait with
    | .beamLeave j => if j = g then
        (s.setLeaf dt g { l with member := false, arr := 0, up := false }).unblock e.1 (fun a => { a with pc := a.pc + 4 })
      else s
    | _ => s) s

/-- R194: the members of a group on a panel. -/
def State.members (s : State) (p g : Nat) : List Nat :=
  (s.tiles.filter (fun e => e.1 / 4096 == p && e.1 < Config.replicaBase && (e.2.leaf g).member)).map (·.1)

/-- R194: the phase of a group completes: at least one member has raised UP, and every member has or is excused. -/
def State.phaseDone (s : State) (p g : Nat) : Bool :=
  let x := s.group p g
  let ms := s.members p g
  ms.any (fun v => x.raised.contains v) &&
    ms.all (fun v => x.raised.contains v || ((s.tile v).leaf g).exc)

/-- R191: the die whose root is the panel root of the beam: die 20, or die 19 once the router of die 20's root is dead. -/
def State.rootDie (s : State) (p : Nat) : Nat := if (s.pt (p * 4096 + dieRoot 20)).routerUp then 20 else 19

/-- R191: the router that is the root of a die segment: its alternate once it is dead. -/
def State.segmentRoot (s : State) (p die : Nat) : Nat :=
  if (s.pt (p * 4096 + dieRoot die)).routerUp then dieRoot die else dieAlternate die

/-- R191, R196: the panel root works: neither its own segment nor that of the root it takes the place of is re-combining, and
its router is up. -/
def State.rootUp (s : State) (p : Nat) : Bool :=
  let d := s.rootDie p
  !(s.die (p * 64 + 20)).recomb && !(s.die (p * 64 + d)).recomb && (s.pt (p * 4096 + s.segmentRoot p d)).routerUp

/-- R196: raises and releases that pass through a die segment that is re-combining, or through the panel root's, are held. -/
def State.segmentUp (s : State) (dt : Nat) : Bool := !(s.die (s.dieOf dt)).recomb && s.rootUp (dt / 4096)

/-- R194, R196: the panel root's check of a group: a complete phase steps the generation and releases every leaf; a release
still on its way reaches its leaf before the next, and one that a re-combining segment holds passes with it. -/
def State.checkPhase (s : State) (p g : Nat) : State :=
  if s.rootUp p && s.phaseDone p g then
    let x := s.group p g
    let s := (x.pending.filter s.segmentUp).foldl (fun s v => s.releaseLeaf v g x.gen) s
    s.setGroup p g { x with gen := x.gen + 1, raised := [], pending := (List.range (s.panel p).vts).map (p * 4096 + ·) }
  else s

/-- R192: the checks of a beam instruction's group. -/
def checkGroup (s : State) (g : Word) : Res Nat := do
  nodeOnly s
  require (decide (g.toNat < 16)) cBOUNDS g
  require (decide ((s.group (s.here.dt / 4096) g.toNat).asid = some s.here.asid)) cPERM g
  return g.toNat

/-- R198: bmjoin. -/
def beamJoin (a b : BitVec 5) (s : State) : Res State := do
  let g ← checkGroup s (s.w a)
  let n := s.w b
  require (decide (n ≠ 0 ∧ n.toNat ≤ 255)) cBOUNDS n
  let dt := s.here.dt
  let p := dt / 4096
  let l := (s.tile dt).leaf g
  if l.member then
    return s.setLeaf dt g { l with n := n.toNat, up := l.up || decide (n.toNat ≤ l.arr) }
  else
    let x := s.group p g
    let s := s.setGroup p g { x with pending := x.pending.filter (· != dt), raised := x.raised.filter (· != dt) }
    return (s.setLeaf dt g { l with member := true, n := n.toNat, arr := 0, up := false, gen := x.gen }).wakeBeam dt g

/-- R198. Joins or updates membership. -/
def execBmjoin (a b : BitVec 5) (s : State) : Out State :=
  plainInstr [a.toNat, b.toNat] [] (originalOnly (beamJoin a b)) s

/-- R198: bmarr: waits while UP = 1, then arrives. -/
def beamArrive (a : BitVec 5) (s : State) : Res State := do
  let g ← checkGroup s (s.w a)
  let dt := s.here.dt
  let l := (s.tile dt).leaf g
  require l.member cBOUNDS (BitVec.ofNat 64 g)
  if l.up then return s.block s.cur (.beamArrive g) 5 0
  else
    let s := s.updHere (fun x => { x with beamRec := some (g, l.gen) })
    return s.setLeaf dt g { l with arr := l.arr + 1, up := l.up || decide (l.arr + 1 = l.n) }

/-- R198. Arrives; release at panel scope. -/
def execBmarr (a : BitVec 5) (s : State) : Out State := plainInstr [a.toNat] [] (originalOnly (beamArrive a)) s

/-- R198: bmwait. -/
def beamWait (a : BitVec 5) (s : State) : Res State := do
  let g ← checkGroup s (s.w a)
  let l := (s.tile s.here.dt).leaf g
  match s.here.beamRec with
  | some (j, gen) =>
    if j = g then
      if l.gen ≠ gen then return s.acquire s.cur else return s.block s.cur (.beamGen g gen) 5 0
    else return s
  | none => return s

/-- R198. Waits for the phase of the activation's arrival. -/
def execBmwait (a : BitVec 5) (s : State) : Out State := plainInstr [a.toNat] [] (originalOnly (beamWait a)) s

/-- R198: the word bmq reads. -/
def Leaf.toWord (l : Leaf) : Word :=
  (0 : BitVec 37) ++ BitVec.ofBool l.exc ++ BitVec.ofBool l.up ++ BitVec.ofBool l.member ++ BitVec.ofNat 8 l.arr ++
    BitVec.ofNat 8 l.n ++ l.gen

/-- R198: bmq. -/
def beamQuery (d a : BitVec 5) (s : State) : Res State := do
  let g ← checkGroup s (s.w a)
  return s.setW d ((s.tile s.here.dt).leaf g).toWord

/-- R198. Reads the leaf state. -/
def execBmq (d a : BitVec 5) (s : State) : Out State := plainInstr [a.toNat] [d.toNat] (originalOnly (beamQuery d a)) s

/-- R198: bmleave. -/
def beamLeave (a : BitVec 5) (s : State) : Res State := do
  let g ← checkGroup s (s.w a)
  let dt := s.here.dt
  let l := (s.tile dt).leaf g
  if l.member then
    if 0 < l.arr then return (s.setLeaf dt g { l with up := true }).block s.cur (.beamLeave g) 5 0
    else return (s.setLeaf dt g { l with member := false, arr := 0, up := false }).checkPhase (dt / 4096) g
  else return s

/-- R198. Leaves the group. -/
def execBmleave (a : BitVec 5) (s : State) : Out State := plainInstr [a.toNat] [] (originalOnly (beamLeave a)) s

/-! ### The tree -/

/-- R195: the die segment of a VT has delivered the current release to all of its members. -/
def State.segmentReleased (s : State) (p g dt : Nat) : Bool :=
  let x := s.group p g
  !x.pending.any (fun v => s.dieOf v == s.dieOf dt && ((s.tile v).leaf g).member)

/-- R195. A leaf's raise of UP reaches the panel root of its group. -/
def execBeamRaise (p g vt : Nat) (s : State) : Out State :=
  let dt := p * 4096 + vt
  let x := s.group p g
  .next (if ((s.tile dt).leaf g).up && !x.raised.contains dt && s.segmentUp dt && s.segmentReleased p g dt then
      (s.setGroup p g { x with raised := x.raised ++ [dt] }).checkPhase p g
    else s)

/-- R194. A release reaches a leaf; a member that leaves with it may complete the next phase (R198). -/
def execBeamRelease (p g vt : Nat) (s : State) : Out State :=
  let dt := p * 4096 + vt
  let x := s.group p g
  .next (if x.pending.contains dt && s.segmentUp dt then
      ((s.setGroup p g { x with pending := x.pending.filter (· != dt) }).releaseLeaf dt g x.gen).checkPhase p g
    else s)

/-- R196. The re-combined segment resumes passing held raises and releases; a phase that was pending may complete. -/
def execBeamRecombine (p die : Nat) (s : State) : Out State :=
  let k := p * 64 + die
  .next (if (s.die k).recomb then
      (List.range 16).foldl (fun s g => s.checkPhase p g) (s.setDie k { s.die k with recomb := false })
    else s)

end Sys2Proof.Machine
end

