-- ==== Sys2Proof/Machine/Control.lean ====
section
/-! DEFINITION. Control-flow and activation instructions (R61 to R85): branches, calls, jump tables, nend, windows
and the repetition buffer, with their compact forms. -/

namespace Sys2Proof.Machine

/-- R68: the check of a control transfer's target. -/
def checkTransfer (target : Word) : Res Unit := require (decide (target.toNat < 2 ^ 56)) cNONCANON target

/-- The state with the issuing activation at a PC. -/
def State.goto (s : State) (target : Word) : State := s.updHere (fun a => { a with pc := target })

/-- R68, R69: an unconditional transfer. -/
def transfer (target : Word) (s : State) : Res State := do
  checkTransfer target
  return s.goto target

/-- R69: the target of a branch whose sign-extended halfword count is given. -/
def branchTarget (s : State) (off : Word) : Word := s.here.pc + (off <<< 1)

/-- R69. PC-relative branch. -/
def execBr (imm : BitVec 24) (s : State) : Out State :=
  issue s (fun s => transfer (branchTarget s (imm.signExtend 64)) s)

/-- R69: the effect of call: the checks, then the return address pushed and put into w31. -/
def callTo (target : Word) (s : State) : Res State := do
  checkTransfer target
  let a := s.here
  require (decide (a.status.cdepth.toNat < 8)) cCALLDEPTH target
  let ret := a.pc + 4
  return s.updHere (fun a => { (a.setW 31 ret) with
    shadow := a.shadow.set (a.status.cdepth.toNat % 8) ret (Nat.mod_lt _ (by decide))
    status := { a.status with cdepth := a.status.cdepth + 1 }
    pc := target })

/-- R69. PC-relative call. -/
def execCall (imm : BitVec 24) (s : State) : Out State :=
  issue s (fun s => withRegs [] [31] (callTo (branchTarget s (imm.signExtend 64))) s)

/-- R70: a conditional branch of an instruction of n bytes. -/
def branchIf (cond : State → Bool) (off : Word) (n : Word) (s : State) : Res State :=
  if cond s then transfer (branchTarget s off) s else .ok (s.advance n)

/-- R70: a conditional branch on two registers. -/
def branchRR (a b : BitVec 5) (cond : Word → Word → Bool) (off : BitVec 10) (s : State) : Out State :=
  issue s (fun s => withRegs [a.toNat, b.toNat] []
    (branchIf (fun s => cond (s.w a) (s.w b)) (off.signExtend 64) 4) s)

/-- R70. Branches when wa = wb. -/
def execBeq (a b : BitVec 5) (off : BitVec 10) (s : State) : Out State := branchRR a b (fun x y => x == y) off s
/-- R70. Branches when wa ≠ wb. -/
def execBne (a b : BitVec 5) (off : BitVec 10) (s : State) : Out State := branchRR a b (fun x y => x != y) off s
/-- R70. Branches when wa < wb, signed. -/
def execBlt (a b : BitVec 5) (off : BitVec 10) (s : State) : Out State := branchRR a b (fun x y => x.slt y) off s
/-- R70. Branches when wa ≥ wb, signed. -/
def execBge (a b : BitVec 5) (off : BitVec 10) (s : State) : Out State := branchRR a b (fun x y => !x.slt y) off s
/-- R70. Branches when wa < wb, unsigned. -/
def execBltu (a b : BitVec 5) (off : BitVec 10) (s : State) : Out State := branchRR a b (fun x y => x.ult y) off s
/-- R70. Branches when wa ≥ wb, unsigned. -/
def execBgeu (a b : BitVec 5) (off : BitVec 10) (s : State) : Out State := branchRR a b (fun x y => !x.ult y) off s
/-- R70. Branches when bit wb[5..0] of wa is set. -/
def execBbs (a b : BitVec 5) (off : BitVec 10) (s : State) : Out State :=
  branchRR a b (fun x y => x.getLsbD (y.toNat % 64)) off s
/-- R70. Branches when bit wb[5..0] of wa is clear. -/
def execBbc (a b : BitVec 5) (off : BitVec 10) (s : State) : Out State :=
  branchRR a b (fun x y => !x.getLsbD (y.toNat % 64)) off s

/-- R43. c.beqz. -/
def execCBeqz (a : BitVec 4) (off : BitVec 8) (s : State) : Out State :=
  issue s (fun s => withRegs [a.toNat] []
    (branchIf (fun s => s.w (a.setWidth 5) == 0) (off.signExtend 64) 2) s)

/-- R43. c.bnez. -/
def execCBnez (a : BitVec 4) (off : BitVec 8) (s : State) : Out State :=
  issue s (fun s => withRegs [a.toNat] []
    (branchIf (fun s => s.w (a.setWidth 5) != 0) (off.signExtend 64) 2) s)

/-- R43. c.br. -/
def execCBr (off : BitVec 12) (s : State) : Out State :=
  issue s (fun s => transfer (branchTarget s (off.signExtend 64)) s)

/-- R71: the effect of ret; the PC takes no bit 0 (R29, log 65). -/
def returnFrom (s : State) : Res State := do
  let a := s.here
  let w31 := a.wreg 31
  require (decide (a.status.cdepth ≠ 0)) cRETMISMATCH w31
  let top := a.shadow[(a.status.cdepth.toNat + 7) % 8]'(Nat.mod_lt _ (by decide))
  require (decide (top = w31)) cRETMISMATCH w31
  return s.updHere (fun a => { a with status := { a.status with cdepth := a.status.cdepth - 1 }, pc := evenPc top })

/-- R71. Returns through the shadow stack. -/
def execRet (s : State) : Out State := issue s (withRegs [31] [] returnFrom)

/-- R43. c.ret. -/
def execCRet (s : State) : Out State := issue s (withRegs [31] [] returnFrom)

/-- R72. No effect. -/
def execLpad (_lab : BitVec 16) (s : State) : Out State := issue s (fun s => .ok (s.done 4))

/-- R73: a word of a jump table, read through the fetch path; its address is checked first. -/
def tableWord (s : State) (at0 : Word) : Res (BitVec 32 × State) := do
  checkTransfer at0
  let w ← fetchWord s at0
  return (w, s.tookWord at0 w)

/-- R73: the effect of jt. -/
def jumpTable (a : BitVec 5) (imm : BitVec 14) (s : State) : Res State := do
  let t := s.here.pc + (imm.signExtend 64 <<< 1)
  let (hdr, s) ← tableWord s t
  let count := (hdr.extractLsb' 16 16).toNat
  let i := s.w a
  require (decide (i.toNat < count)) cBOUNDS i
  let (disp, s) ← tableWord s (t + 4 + (i <<< 2))
  let target := t + disp.signExtend 64
  checkTransfer target
  require (!target.getLsbD 0) cLANDING target
  let w ← fetchWord s target
  require (w == (0xC400#16 ++ hdr.extractLsb' 0 16)) cLANDING target
  return (s.tookWord target w).goto target

/-- R73. Jumps through a bounded table. -/
def execJt (a : BitVec 5) (imm : BitVec 14) (s : State) : Out State :=
  issue s (withRegs [a.toNat] [] (jumpTable a imm))

/-! ### Ending an activation (R74, R75) -/

/-- R74, R131, R188, R325: earlier work of an activation that has not completed: a request outstanding, a remote rod
add not yet durable, a copy not ended. -/
def State.pendingWork (s : State) (k : Nat) : Bool :=
  s.outstanding k || (s.tile (s.act k).dt).retained.any (fun r => r.issuer == some k && r.body.isRod) ||
  s.copies.any (fun c => c.2.owner == k && c.2.nref == (s.act k).nref)

/-- R74: the matrix claim of an activation released as mrel does, its flags discarded (R291). -/
def State.claimOff (s : State) (k : Nat) : State :=
  let a := s.act k
  let t := s.tile a.tile
  if t.claim = some k then
    (s.setTile a.tile { t with accs := t.accs.map (fun x => x.closeIfOpen.1) }).dropClaim a.tile
  else s

/-- R74, R352: the effect of nend. It waits while earlier work is pending. A replica that reaches it has ended. -/
def endActivation (s : State) : Res State := do
  nodeOnly s
  let k := s.cur
  if s.pendingWork k then return s
  else
    let s := s.updHere (fun a => { a with
      status := { a.status with mw := false, cdepth := 0 }
      place := .committing
      commit := .release
      atEnd := true })
    let s := ((s.freeRecipes k).claimOff k).leaveSlot k
    let a := s.act k
    let s := if a.replica then s
      else s.setNode a.dt a.index { s.node a.dt a.index with state := stCommitting }
    return s.refill a.tile a.stg

/-- R74. Commits the activation. -/
def execNend (s : State) : Out State := issue s endActivation

/-- R43. c.nend. -/
def execCNend (s : State) : Out State := issue s endActivation

/-- R75. The aborting fault ABORT. -/
def execNabort (a : BitVec 5) (s : State) : Out State :=
  issue s (withRegs [a.toNat] [] (fun s => do
    nodeOnly s
    .error (trapOf cABORT (s.w a))))

/-- R76: windows have no effect in an urgent activation and on a firmware core (R373). -/
def Act.windowed (a : Act) : Bool := !a.fw && !a.status.urg

/-- R76. Opens a masked window. -/
def execMaskw (s : State) : Out State :=
  issue s (fun s => .ok ((if s.here.windowed && !s.here.status.mw then
    s.updHere (fun a => { a with status := { a.status with mw := true, mwcnt := 0 } }) else s).done 4))

/-- R76. Closes the window after all earlier instructions complete. -/
def execUnmaskw (s : State) : Out State :=
  issue s (fun s => .ok (
    if s.pendingWork s.cur then s
    else (s.updHere (fun a => if a.windowed then { a with status := { a.status with mw := false } } else a)).done 4))

/-! ### The repetition buffer (R81 to R85) -/

/-- R81: the word of a rep. -/
def repWord (cnt : BitVec 5) (len : BitVec 3) (d a b : BitVec 4) : BitVec 32 :=
  0xC6#8 ++ cnt ++ len ++ d ++ a ++ b ++ 0#4

/-- R84: the activation whose block the repetition buffer of a core runs: the one it was given to, while that keeps its slot
and its block, else the first slot that holds a suspended block (R85). -/
def State.bufferOwner (s : State) (dt : Nat) (stg : Bool) : Option Nat :=
  let c := s.core dt stg
  let held (k : Nat) : Bool := match s.act? k with
    | some a => a.block.isSome && c.slots.contains (some k)
    | none => false
  match c.buffer.filter held with
  | some k => some k
  | none => (c.slots.toList.filterMap id).find? held

/-- R84: the repetition buffer of the issuing core serves another activation. -/
def State.bufferBusy (s : State) : Bool :=
  !s.here.fw && (match s.bufferOwner s.here.tile s.here.stg with | some k => k != s.cur | none => false)

/-- R82: the checks of rep on its block. -/
def checkBlock (s : State) (words : List (BitVec 32)) (word : BitVec 32) (n : Word) : Res Unit := do
  let bad := trapOf cILLEGAL (word.setWidth 64)
  if words.any (fun w => w.extractLsb' 30 2 != 3) then .error bad else pure ()
  if words.any (fun w => match decodePure w with | some op => !op.repeatable | none => true) then .error bad else pure ()
  if (s.here.stg || s.here.fw) && words.any (fun w => match decodePure w with | some op => op.isMatrix | none => false)
  then .error (trapOf cROLE 0) else pure ()
  require (decide (n.toNat < 2 ^ 16)) cBOUNDS n

/-- R82, R84, R85: rep checks its block, keeps it with the activation and gives it to the buffer; the PC continues after it. -/
def startBlock (cnt : BitVec 5) (len : BitVec 3) (d a b : BitVec 4) (s : State) : Res State := do
  if s.bufferBusy then return s
  else
    let pc := s.here.pc
    let (words, s) ← fetchWords (len.toNat + 1) (pc + 4) s
    let n := s.w cnt
    checkBlock s words (repWord cnt len d a b) n
    let after := pc + 4 + BitVec.ofNat 64 (4 * (len.toNat + 1))
    if n = 0 then return s.goto after
    else
      let s := s.updHere (fun x => { x with
        pc := after
        block := some ⟨pc, words, n.setWidth 16, d, a, b⟩
        status := { x.status with rep := true, reppos := 0, repdone := 0 } })
      return if s.here.fw then s else s.updHereCore (fun c => { c with buffer := some s.cur })

/-- R83. Repeats the next words with staggered register fields. -/
def execRep (cnt : BitVec 5) (len : BitVec 3) (d a b : BitVec 4) (s : State) : Out State :=
  issue s (withRegs [cnt.toNat] [] (startBlock cnt len d a b))

/-- R77: an instruction that would make MWCNT 257 takes BUDGET with fault value 1. -/
def checkWindow257 (s : State) : Res Unit :=
  require (!(s.here.status.mw && decide (256 ≤ s.here.status.mwcnt.toNat))) cBUDGET 1

/-- R85: the progress of a block after one of its instructions. With no block in progress REPPOS and REPDONE are 0 (log 78). -/
def Act.nextInBlock (a : Act) (b : Block) : Act :=
  let pos := a.status.reppos.toNat + 1
  if pos < b.words.length then { a with status := { a.status with reppos := BitVec.ofNat 3 pos } }
  else
    let done := a.status.repdone + 1
    if done = b.count then { a with block := none, status := { a.status with rep := false, reppos := 0, repdone := 0 } }
    else { a with status := { a.status with reppos := 0, repdone := done } }

/-- R83, R85: the block instruction at REPPOS and REPDONE: its staggered word, and its operation unless the staggered
word is illegal (R281). -/
def Act.blockWord (a : Act) (b : Block) : BitVec 32 × Option PureOp :=
  let w := b.words.getD a.status.reppos.toNat 0
  match decodePure w with
  | none => (w, none)
  | some op =>
    let w := staggered w op a.status.repdone.toNat b.sd b.sa b.sb
    (w, decodePure w)

/-- The issuing activation waits with its instruction not issued, and is still there to wait. -/
def State.stalled (s : State) : Bool := (match s.act? s.cur with | some a => a.wait.retries | none => false)

/-- R34, R83 to R85: the next block instruction of the issuing activation, or none where it would wait for a queue: that stalls
the buffer, and the activation does not block. While it executes the PC is its word's address, which is what a fault of it
reports; afterwards the PC is again that of the next instruction to issue. -/
def State.blockStep (s : State) (b : Block) : Option State :=
  let a := s.here
  let s1 := s.goto (b.addr + 4 + BitVec.ofNat 64 (4 * a.status.reppos.toNat))
  let (w, op) := a.blockWord b
  let r : Res State :=
    match op with
    | none => .error (trapOf cILLEGAL (w.setWidth 64))
    | some op => do
      op.checkRole s1
      checkWindow257 s1
      withRegs (op.readsIn s1) op.writes (execPure op) s1
  match r with
  | .error t => some (s1.takeTrap s1.cur t)
  | .ok t =>
    if t.stalled then none
    else match t.act? s.cur with
    | none => some t
    | some x =>
      if x.place = .stopped then some t
      else some ((t.goto a.pc).updHere (fun y => y.nextInBlock b))

end Sys2Proof.Machine
end

