-- ==== Sys2Proof/Machine/Convert.lean ====
section
/-! DEFINITION. Conversion, quantisation and dequantisation (R254 to R259), majors 0x30 to 0x33. -/

namespace Sys2Proof.Machine

/-- R255. Converts vector elements between formats with a rounding mode and saturation. -/
def execVcvt (d : BitVec 5) (a : BitVec 5) (rm : BitVec 3) (dst : BitVec 4) (src : BitVec 4) (sat : Bool) (s : State) : Out State :=
  pureInstr (.vcvt d a rm dst src sat) s

/-- R258. Quantises 64 FP32 lanes into two blocks and their scales. -/
def execQnt (d : BitVec 5) (a : BitVec 5) (b : BitVec 5) (tgt : BitVec 3) (rm : BitVec 3) (sat : Bool) (s : State) : Out State :=
  pureInstr (.qnt d a b tgt rm sat) s

/-- R259. Dequantises two blocks to FP32. -/
def execDqt (d : BitVec 5) (a : BitVec 5) (b : BitVec 5) (tgt : BitVec 3) (s : State) : Out State :=
  pureInstr (.dqt d a b tgt) s

/-- R257. Finds the largest magnitude of each 32-lane block. -/
def execBamax (d : BitVec 5) (a : BitVec 5) (s : State) : Out State :=
  pureInstr (.bamax d a) s

/-- R257. Derives block scale codes from two block maxima. -/
def execScld (d : BitVec 5) (a : BitVec 5) (tgt : BitVec 3) (s : State) : Out State :=
  pureInstr (.scld d a tgt) s

end Sys2Proof.Machine
end

