-- ==== Sys2Proof/Machine/Nodes.lean ====
section
/-! DEFINITION. The node instructions (R229 to R238), major 0x24, as they issue; what narm, ndef, nqry, evb and evu do
at their target stands in Requests.lean. -/

namespace Sys2Proof.Machine

/-- R229: the check of a node reference operand; `own` demands the issuing graph. -/
def checkRef (s : State) (ref : Word) (own : Bool) : Res Unit :=
  require (decide (ref.toNat < 2 ^ 59) && s.names s.panelHere (ref.extractLsb' 12 15).toNat &&
    (!own || (ref.extractLsb' 43 16).toNat == s.here.gid)) cNODEREF ref

/-- R230: an item recorded for an edge slot, in place of any earlier one. -/
def State.putItem (s : State) (e : Nat) (x : Item) : State :=
  s.updHere (fun a => { a with items := tabSet a.items e x })

/-- R230: tok and ncan. -/
def recordItem (a : BitVec 5) (x : Item) (s : State) : Res State := do
  nodeOnly s
  let e := s.w a
  require (decide (e.toNat < s.here.nsucc)) cBOUNDS e
  return s.putItem e.toNat x

/-- R230. A plain token for an edge. -/
def execTok (a : BitVec 5) (s : State) : Out State := plainInstr [a.toNat] [] (recordItem a .plain) s

/-- R230. A cancel token of PRUNE origin for an edge. -/
def execNcan (a : BitVec 5) (s : State) : Out State := plainInstr [a.toNat] [] (recordItem a .cancel) s

/-- R230: the checks of tokv. -/
def checkPayload (d a : BitVec 5) (s : State) : Res Unit := do
  let x := s.here
  let e := x.wreg d
  let off := x.wreg a
  require (decide (e.toNat < x.nsucc)) cBOUNDS e
  require ((s.succEntry x.dt (s.node x.dt x.index) e.toNat).getLsbD 61) cBOUNDS e
  require (decide (off.toNat % 256 = 0) && decide (off.toNat < 2 ^ 22)) cBOUNDS off

/-- R230: tokv. -/
def recordPayload (d a b : BitVec 5) (s : State) : Res State := do
  nodeOnly s
  vectorInstr [b] [] (checkPayload d a) (fun xs s =>
    .ok (s.putItem (s.w d).toNat (.payload (s.w a).toNat (xs.headD 0)))) s

/-- R230. A payload token for an edge. -/
def execTokv (d a b : BitVec 5) (s : State) : Out State :=
  plainInstr ([d.toNat, a.toNat] ++ vCode b) [] (recordPayload d a b) s

/-- R231: one bead taken from the issuing node, which borrows first when it holds none (R225). -/
def State.payBead (s : State) : State :=
  let a := s.here
  let n := s.node a.dt a.index
  if n.beads = 0 then
    let s := match tabFind s.graphs a.gid with
      | some g => s.setGrec g 0 ((s.grec g 0 + 2 ^ 32) % 2 ^ 64)
      | none => s
    s.setNode a.dt a.index { s.node a.dt a.index with beads := 2 ^ 32 - 1 }
  else s.setNode a.dt a.index { n with beads := n.beads - 1 }

/-- R231: narm as it issues. -/
def armNode (d a : BitVec 5) (s : State) : Res State := do
  nodeOnly s
  let ref := s.w a
  checkRef s ref true
  return s.payBead.request (.narm d ref) 1 [] ⟨false, true, 3⟩

/-- R231. Arms a node of the issuing graph. -/
def execNarm (d a : BitVec 5) (s : State) : Out State :=
  plainInstr [a.toNat] [d.toNat] (originalOnly (armNode d a)) s

/-- The doublewords of n × 8 bytes of own LM, read as one ld.l (R235, R236). -/
def loadWords (s : State) (ea : Word) (n : Nat) : Res (List Word) := do
  let x ← loadLocal s ea (8 * n)
  return (List.range n).map (fun i => BitVec.ofNat 64 (x / 2 ^ (64 * i)))

/-- R235: ndef as it issues. -/
def defineNode (d a b : BitVec 5) (s : State) : Res State := do
  nodeOnly s
  let ref := s.w b
  checkRef s ref true
  let words ← loadWords s (s.w a) 8
  return s.payBead.request (.ndef d ref words) 1 [] ⟨false, true, 3⟩

/-- R235. Defines a node dynamically in the issuing graph. -/
def execNdef (d a b : BitVec 5) (s : State) : Out State :=
  plainInstr [a.toNat, b.toNat] [d.toNat] (originalOnly (defineNode d a b)) s

/-- R234: nqry as it issues. -/
def queryNode (d a : BitVec 5) (s : State) : Res State := do
  nodeOnly s
  let ref := s.w a
  checkRef s ref false
  return s.request (.nqry d ref) 1 [] .none

/-- R234. Reads a node slot. -/
def execNqry (d a : BitVec 5) (s : State) : Out State :=
  plainInstr [a.toNat] [d.toNat] (originalOnly (queryNode d a)) s

/-- R236: the source of a descriptor, or the code of its refusal: 2 for the descriptor, 4 for a page not watchable. A
watchpoint's page is translated as a load's and may park. A BASE of more than 56 bits and a page that is UNBACKED are not
watchable, and a counter with a LEN, or one that does not exist, is a descriptor refused (DESIGN CHOICE, log 98). -/
def eventSource (s : State) (f : List Word) : Res (Sum Nat Source) := do
  let f0 := f.getD 0 0
  let base := f.getD 1 0
  let mask := f.getD 2 0
  let value := f.getD 3 0
  let len := (f0.extractLsb' 16 13).toNat
  if f0.extractLsb' 2 14 ≠ 0 ∨ f0.toNat ≥ 2 ^ 29 then return .inl 2
  match (f0.extractLsb' 0 2).toNat with
  | 0 =>
    if len % 8 ≠ 0 ∨ len < 8 ∨ 4096 < len ∨ base.toNat % 8 ≠ 0 then return .inl 2
    if base.toNat + len > 2 ^ 56 then return .inl 4
    let a := s.here
    match s.lookup a base.toNat with
    | none => .error (trapOf cTMISS base)
    | some e =>
      let last := base.toNat + len - 1
      let pa := s.homeOf e (s.dieOf a.tile) base.toNat
      if e.r && e.home == 0 && last / pageBytes e.size == base.toNat / pageBytes e.size && s.reaches pa
      then return .inr (.watch pa len mask value) else return .inl 4
  | 1 =>
    if len ≠ 0 ∨ mask ≠ 0 ∨ 8 ≤ base.toNat then return .inl 2
    else return .inr (.perf base.toNat value)
  | 2 =>
    if len ≠ 0 ∨ mask ≠ 0 ∨ 2 ≤ base.toNat then return .inl 2 else return .inr (.power base.toNat value)
  | _ => return .inl 2

/-- R137: the L1 TLB filled for a watchpoint's page. -/
def State.touchSource (s : State) (src : Source) (base : Word) : State :=
  match src with
  | .watch _ _ _ _ => s.touchTlb base.toNat
  | _ => s

/-- R236: evb as it issues. -/
def bindEvent (d a b : BitVec 5) (s : State) : Res State := do
  nodeOnly s
  let ref := s.w a
  checkRef s ref true
  let words ← loadWords s (s.w b) 4
  match (← eventSource s words) with
  | .inl code => return s.request (.evb d ref none code) 1 [] ⟨false, true, 3⟩
  | .inr src => return (s.touchSource src (words.getD 1 0)).payBead.request (.evb d ref (some src) 0) 1 [] ⟨false, true, 3⟩

/-- R236. Binds an event source to a node. -/
def execEvb (d a b : BitVec 5) (s : State) : Out State :=
  plainInstr [a.toNat, b.toNat] [d.toNat] (originalOnly (bindEvent d a b)) s

/-- R237: evu as it issues. -/
def unbindEvent (d a : BitVec 5) (s : State) : Res State := do
  nodeOnly s
  return s.request (.evu d (s.w a)) 1 [] .none

/-- R237. Unbinds an event binding. -/
def execEvu (d a : BitVec 5) (s : State) : Out State :=
  plainInstr [a.toNat] [d.toNat] (originalOnly (unbindEvent d a)) s

end Sys2Proof.Machine
end

