-- ==== Sys2Proof/Machine/Requests.lean ====
section
/-! DEFINITION. What an outstanding request does when it is performed at its home and its response returns (R131,
R133, R153, R161 to R168, R173, R178, R231 to R237, R384, R390): the step ACCESS_RESPONSE. -/

namespace Sys2Proof.Machine

/-! ### The tile control page and firmware stores to rods (R390) -/

/-- R390: the seven bits of a halt field. -/
def HaltField.bits (h : HaltField) : BitVec 7 := BitVec.ofBool h.flt ++ BitVec.ofBool h.brk ++ BitVec.ofBool h.member ++ h.group

/-- R390: a halt field of seven bits. -/
def HaltField.ofBits (x : BitVec 7) : HaltField := ⟨x.setWidth 4, x.getLsbD 4, x.getLsbD 5, x.getLsbD 6⟩

/-- R390: the position of a node on its list of one core: 1 for the head, with whether the list is urgent. A list holds the
nodes of one graph (R219); `gid` gives a node's. -/
def Core.position (c : Core) (gid : Nat → BitVec 16) (i : Nat) : Option (Nat × Bool) :=
  let at0 (l : List Nat) : Option Nat := if l.contains i then some ((l.takeWhile (· != i)).length + 1) else none
  match at0 (c.urgent.filter (fun j => gid j == gid i)) with
  | some n => some (n, true)
  | none => (c.ready.findSome? (fun l => at0 l.nodes)).map (fun n => (n, false))

/-- R390: a doubleword of the control page. -/
def State.controlWord (s : State) (dt off : Nat) : Word :=
  let t := s.tile dt
  match off with
  | 0x201000 => BitVec.ofNat 64 (t.heapBase % 2 ^ 22 + t.heapLim % 2 ^ 22 * 2 ^ 22)
  | 0x201008 => t.scrlog2.setWidth 64
  | 0x201010 => t.partner.setWidth 64
  | 0x201018 => (t.high ++ t.low ++ t.grant : BitVec 48).setWidth 64
  | 0x201020 => (t.stag.halt.bits ++ 0#1 ++ t.comp.halt.bits : BitVec 15).setWidth 64
  | 0x201028 =>
    let gid (j : Nat) : BitVec 16 := (t.node j).gid
    let pos := match t.comp.position gid t.rlnode.toNat with
      | some x => some x
      | none => t.stag.position gid t.rlnode.toNat
    match pos with
    | some (n, u) => BitVec.ofNat 64 (t.rlnode.toNat + n % 2 ^ 16 * 2 ^ 16 + (if u then 2 ^ 32 else 0))
    | none => t.rlnode.setWidth 64
  | _ => 0

/-- R390, R396: a core's halt field written; a member of a triggered group is halted. -/
def State.setHaltField (s : State) (dt : Nat) (c : Core) (h : HaltField) : Core :=
  { c with halt := h, halted := h.member && (s.panel (dt / 4096)).triggered.contains h.group.toNat }

/-- R390: a doubleword of the control page written; fields the map does not list, and read-only ones, ignore it. HEAPBASE is
64-byte aligned: the low six bits of a value written to it are dropped (log 73). -/
def State.setControl (s : State) (dt off : Nat) (x : Word) : State :=
  let t := s.tile dt
  match off with
  | 0x201000 => s.setTile dt { t with
      heapBase := (x.extractLsb' 0 22).toNat / 64 * 64, heapLim := (x.extractLsb' 22 22).toNat }
  | 0x201008 => s.setTile dt { t with scrlog2 := x.setWidth 5 }
  | 0x201010 => s.setTile dt { t with partner := x.setWidth 12 }
  | 0x201018 => s.setTile dt { t with
      grant := x.setWidth 16, low := x.extractLsb' 16 16, high := x.extractLsb' 32 16 }
  | 0x201020 => s.setTile dt { t with
      comp := s.setHaltField dt t.comp (HaltField.ofBits (x.setWidth 7))
      stag := s.setHaltField dt t.stag (HaltField.ofBits (x.extractLsb' 8 7)) }
  | 0x201028 => s.setTile dt { t with rlnode := x.setWidth 12 }
  | _ => s

/-- R390: a firmware store to a rod word: an rset with the written COUNT and an rarm with the written THR. -/
def State.storeRod (s : State) (dt k : Nat) (x : Word) : State :=
  let r : Rod := { (s.tile dt).rod k with count := x.setWidth 32, ovf := false }
  let s := s.changeRod dt k r r
  let r : Rod := { (s.tile dt).rod k with thr := x.extractLsb' 32 16 }
  s.changeRod dt k r r

/-! ### Reads and writes at a home -/

/-- n bytes of a home; the control page reads by doublewords (R390). -/
def State.readHome (s : State) (key : Nat) (h : Home) (n : Nat) : Nat :=
  match h with
  | .lm dt off => if 0x201000 ≤ off then (s.controlWord dt off).toNat else s.homeRead key h n
  | .phys _ => s.homeRead key h n

/-- Writes performed at their homes: LM and global memory, rod words and the control page (R390). -/
def State.writeHomes (s : State) (key : Nat) (ps : List Put) : State :=
  let plain := ps.filter (fun p => match p.1 with
    | .lm _ off => decide (off < Config.syncBase)
    | .phys _ => true)
  let s := s.perform key plain
  ps.foldl (fun s p => match p.1 with
    | .lm dt off =>
      if off < Config.syncBase then s
      else if 0x201000 ≤ off then s.setControl dt off (BitVec.ofNat 64 (leNat p.2))
      else
        let k := (off - Config.syncBase) / 8
        let old := (((s.tile dt).rod k).toWord false).toNat
        s.storeRod dt k (BitVec.ofNat 64 (((List.range p.2.length).zip p.2).foldl (fun x e => putByte x (off % 8 + e.1) e.2) old))
    | .phys _ => s) s

/-- R133: a write updates the bytes of the lines that the issuing core's L1 holds. -/
def State.writeThrough (s : State) (core : Option (Nat × Bool)) (key : BitVec 8) (pa : Nat) (bs : List Byte) : State :=
  match core with
  | none => s
  | some c => s.updCore c.1 c.2 (fun x => { x with
    l1 := x.l1.map (fun e => if e.1 % 256 = key.toNat then (e.1, putLine e.2 (e.1 / 256) pa bs) else e) })

/-- R133: a core's L1 holds the line of a physical address. -/
def State.l1Holds (s : State) (core : Option (Nat × Bool)) (key : BitVec 8) (pa : Nat) : Bool :=
  match core with
  | none => false
  | some c => (tabFind (s.core c.1 c.2).l1 (l1Key pa key)).isSome

/-- R133: n bytes of a global line as a load returns them: from the issuing core's L1 when it holds the line, else from
the home, which then fills the L1; a miss is counted (R377). An acquire invalidates the L1 first. -/
def State.loadGlobal (s : State) (core : Option (Nat × Bool)) (acq : Bool) (key : BitVec 8) (pa n : Nat) : Nat × State :=
  match core with
  | none => (s.homeRead key.toNat (.phys pa) n, s)
  | some (tile, stg) =>
    if acq then (s.homeRead key.toNat (.phys pa) n, s.updCore tile stg (fun c => c.count 2 1))
    else
      let s := if s.l1Holds core key pa then s else (s.fillL1 tile stg key pa).updCore tile stg (fun c => c.count 2 1)
      match tabFind (s.core tile stg).l1 (l1Key pa key) with
      | some x => ((x.toNat >>> (8 * (pa % 64))) % 256 ^ n, s)
      | none => (s.homeRead key.toNat (.phys pa) n, s)

/-- R133, R158: the poisoned bytes of an element that a load would find: the home's, unless the issuing core's L1 holds the
line. -/
def State.loadPoisoned (s : State) (r : Req) (e : Elem) (n : Nat) : List Nat :=
  let held := match e.home with
    | .phys pa => !r.acq && s.l1Holds r.core e.key pa
    | .lm _ _ => false
  if held then [] else (List.range n).filter (s.poisoned e.home)

/-- The lowest of some addresses. -/
def lowestAddr (l : List Word) : Option Word :=
  match l with
  | [] => none
  | x :: t => some (t.foldl (fun m y => if y.toNat < m.toNat then y else m) x)

/-- R100, R128, R150, R373: the fault of a tile-window write at its target, with its address. -/
def State.refusedAt (s : State) (fw : Bool) (e : Elem) (n : Nat) : Option (BitVec 8 × Word) :=
  match e.home with
  | .phys _ => none
  | .lm dt off =>
    if Config.syncBase ≤ off then none
    else if fw then (if s.fwRefused wordsRead dt off n then some (cWSREMOTE, e.addr) else none)
    else match (List.range n).find? (fun i => (s.wsAt dt (off + i)).isSome || s.leaseTableAt dt (off + i)) with
      | some i => some (if (s.wsAt dt (off + i)).isSome then cWSREMOTE else cPERM, e.addr + BitVec.ofNat 64 i)
      | none => none

/-- R131: a completion-time fault of a request's activation, its header PC the access. -/
def State.completionFault (s : State) (r : Req) (t : Trap) : State :=
  match s.act? r.owner with
  | none => s
  | some _ => (s.updAct r.owner (fun a => { a with pc := r.pc })).takeTrap r.owner t

/-- R145, R158, R365: POISON of a load's elements, at the lowest poisoned byte, if they hold one. -/
def State.elemPoison (s : State) (r : Req) (n : Nat) : Option Trap :=
  let bad := r.elems.map (fun e => (e, s.loadPoisoned r e n))
  (lowestAddr (bad.filterMap (fun x => x.2.head?.map (fun i => x.1.addr + BitVec.ofNat 64 i)))).map (fun v =>
    { trapOf cPOISON v with bytes := bad.flatMap (fun x => x.2.map x.1.home.poisonAt) })

/-- A response written to a w register of the request's activation. -/
def State.respond (s : State) (r : Req) (d : BitVec 5) (x : Word) : State := s.updAct r.owner (fun a => a.setW d x)

/-- R133, R162: the acquire of a request's completion. -/
def State.respondAcquire (s : State) (r : Req) : State :=
  match s.act? r.owner with
  | some _ => if r.acq then s.acquire r.owner else s
  | none => s

/-- Elements written, those of one key id together, and the issuing core's L1 updated. -/
def State.writeElems (s : State) (core : Option (Nat × Bool)) (n : Nat) (es : List Elem) : State :=
  let s := ((es.map (·.key)).eraseDups).foldl (fun s k =>
    s.writeHomes k.toNat ((es.filter (fun e => e.key == k)).map (fun e => (e.home, leBytes n e.value.toNat)))) s
  es.foldl (fun s e => match e.home with
    | .phys pa => s.writeThrough core e.key pa (leBytes n e.value.toNat)
    | .lm _ _ => s) s

/-- An element read as a load reads it (R133). -/
def State.readElem (s : State) (r : Req) (n : Nat) (e : Elem) : Nat × State :=
  match e.home with
  | .phys pa => s.loadGlobal r.core r.acq e.key pa n
  | .lm _ _ => (s.readHome 0 e.home n, s)

/-- R141: a load performed. -/
def State.doLoad (s : State) (r : Req) (d : BitVec 5) (n : Nat) : State :=
  match r.elems, s.elemPoison r n with
  | _, some t => s.completionFault r t
  | e :: _, none =>
    let (x, s) := s.readElem r n e
    (s.respond r d (BitVec.ofNat 64 x)).respondAcquire r
  | [], none => s

/-- R145: the elements of a vector load read, by number. -/
def State.readElems (s : State) (r : Req) (n : Nat) : List (Nat × Nat) × State :=
  r.elems.foldl (fun p e =>
    let (x, s) := p.2.readElem r n e
    (p.1 ++ [(e.k, x)], s)) ([], s)

/-- R145: the elements read merged over an old value. -/
def mergeElems (n : Nat) (xs : List (Nat × Nat)) (old : Vec) : Vec :=
  BitVec.ofNat 2048 (packElems (8 * n) ((List.range (256 / n)).map (fun k => (tabFind xs k).getD (elemOf (8 * n) old k))))

/-- R145: a vector load performed. -/
def State.doVload (s : State) (r : Req) (d : BitVec 5) (n : Nat) : State :=
  match s.elemPoison r n with
  | some t => s.completionFault r t
  | none =>
    let (xs, s) := s.readElems r n
    s.updAct r.owner (fun a => a.setV (d.setWidth 4) (mergeElems n xs (a.vreg (d.setWidth 4))))

/-- R108, R145: a vector load into a queue performed: its entry filled, inactive elements 0, or, where it faults, withdrawn
(log 74). -/
def State.doVloadq (s : State) (r : Req) (tile : Nat) (q : Fin 8) (n : Nat) : State :=
  match s.elemPoison r n with
  | some t => (s.fillQueue tile q r.id none).completionFault r t
  | none =>
    let (xs, s) := s.readElems r n
    s.fillQueue tile q r.id (some (mergeElems n xs 0))

/-- R141, R145: a store performed, or refused by its target. One of own LM was checked at its issue: what has since become a
workspace or a lease table has its own new contents (R99, R161). -/
def State.doStore (s : State) (r : Req) (n : Nat) : State :=
  if r.space = 0 then s.writeElems r.core n (r.elems.filter (fun e => (s.refusedAt false e n).isNone)) else
  let bad := r.elems.filterMap (fun e => s.refusedAt r.core.isNone e n)
  match lowestAddr (bad.map (·.2)) with
  | some x => s.completionFault r (trapOf ((bad.find? (fun b => b.2 == x)).map (·.1) |>.getD cWSREMOTE) x)
  | none => s.writeElems r.core n r.elems

/-- R173, R174: an atomic performed. One that writes nothing has still read the home, and the issuing core's L1 shows what
it read (R159). -/
def State.doAtomic (s : State) (r : Req) (op : BitVec 4) (d : BitVec 5) (n : Nat) (b e : Word) : State :=
  match r.elems with
  | x :: _ =>
    match s.refusedAt r.core.isNone x n, (List.range n).find? (s.poisoned x.home) with
    | some (c, v), _ => s.completionFault r (trapOf c v)
    | none, some i =>
      s.completionFault r { trapOf cPOISON (x.addr + BitVec.ofNat 64 i) with bytes := s.poisonedBytes x.home n }
    | none, none =>
      let old := s.readHome x.key.toNat x.home n
      let s := match atomicResult op.toNat (8 * n) old b.toNat e.toNat with
        | some y => s.writeElems r.core n [{ x with value := BitVec.ofNat 64 y }]
        | none => match x.home with
          | .phys pa => s.writeThrough r.core x.key pa (leBytes n old)
          | .lm _ _ => s
      (s.respond r d (BitVec.ofNat 64 old)).respondAcquire r
  | [] => s

/-- R85, R131, R292, R299: a fault that an `mma` has found, taken: the header names the `mma`, and the progress of the block
that issued it. -/
def State.takeMatrix (s : State) (r : Req) (t : Trap) (rep : Bool) (pos : BitVec 3) (done : BitVec 16) : State :=
  (s.updAct r.owner (fun a => { a with status := { a.status with rep := rep, reppos := pos, repdone := done } })).completionFault r t

/-! ### narm, ndef, nqry, evb, evu at their target (R231 to R237) -/

/-- The DT and index of a node reference. -/
def refSlot (ref : Word) : Nat × Nat := ((ref.extractLsb' 12 15).toNat, (ref.extractLsb' 0 12).toNat)

/-- The reference names the node's current binding: GEN and GID agree. -/
def refMatches (ref : Word) (n : Node) : Bool := ref.extractLsb' 27 16 == n.gen && ref.extractLsb' 43 16 == n.gid

/-- R231: a bead returned to the issuer of a request: held by its node, or returned to the graph record when the node is
no longer bound or has ended. -/
def State.refund (s : State) (nref : Word) : State :=
  let (dt, i) := refSlot nref
  let n := s.node dt i
  if refMatches nref n && n.state != stCancelled && n.state != stDone then s.hold dt i 1
  else s.returnBeads dt (nref.extractLsb' 43 16).toNat 1

/-- The error result of a node instruction. -/
def errorCode (c : Nat) : Word := BitVec.ofNat 64 (2 ^ 63 + c)

/-- R231: narm at its target: the state after it and the status. -/
def State.armAt (s : State) (ref nref : Word) : State × Word :=
  let (dt, i) := refSlot ref
  let n := s.node dt i
  if !refMatches ref n then (s.refund nref, errorCode 1)
  else if n.state = stCancelled then (s.refund nref, errorCode 3)
  else if n.state = stEmpty ∨ n.state = stArmed ∨ n.state = stDone then
    let live := n.live + n.count.toNat
    if live > 2 ^ 31 - 1 then (s.refund nref, errorCode 4)
    else
      let n := if n.state = stDone then { n with attempt := 0, abs := false } else n
      let s := (s.setNode dt i { n with live := live, state := stArmed }).hold dt i 1
      (if live ≤ 0 then s.fire dt i else s, 0)
  else (s.refund nref, errorCode 2)

/-- R205: a place for an allocation of the graph heap of a tile, 64-byte aligned: the first that is free (log 10). -/
def Tile.heapPlace (t : Tile) (len : Nat) : Option Nat :=
  let clash (b : Nat) : Bool := t.heap.any (fun h => decide (b < h.base + h.len) && decide (h.base < b + len))
  let starts := (t.heapBase + 63) / 64 * 64 :: t.heap.map (fun h => (h.base + h.len + 63) / 64 * 64)
  (starts.filter (fun b => decide (t.heapBase ≤ b) && decide (b + len ≤ t.heapLim) && !clash b)).head?

/-- R158, R205: an allocation of the graph heap of a tile made and zeroed; an empty one takes no space. -/
def State.heapTake (s : State) (dt gid len : Nat) : Option (Nat × State) :=
  if len = 0 then some (0, s)
  else
    let t := s.tile dt
    (t.heapPlace len).map (fun b => (b, s.setTile dt
      { t.putBytes b (List.replicate len 0) with heap := t.heap ++ [⟨gid, b, len⟩], vacant := cutRanges t.vacant b len }))

/-- R235: a template breaks the rule of ndef. -/
def templateBad (ws : List Word) : Bool :=
  let w (i : Nat) : Word := ws.getD i 0
  let n := Node.ofWords w
  w 0 >>> 61 != 0 || w 1 >>> 16 != 0 || w 2 != 0 || (w 4).extractLsb' 0 22 != 0 || n.role == 3 || n.policy == 3 ||
    (n.nsucc != 0 && (decide (n.succ.toNat < Config.generalBase) ||
      decide (Config.lmSize < n.succ.toNat + 8 * n.nsucc.toNat)))

/-- R235: ndef at its target: the state after it and the result. -/
def State.defineAt (s : State) (ref nref : Word) (ws : List Word) : State × Word :=
  let (dt, i) := refSlot ref
  let old := s.node dt i
  let gid := ref.extractLsb' 43 16
  if !((old.state == stEmpty && old.gid == 0) || ((old.state == stDone || old.state == stCancelled) && old.gid == gid))
  then (s.refund nref, errorCode 1)
  else if templateBad ws then (s.refund nref, errorCode 2)
  else
    let n := Node.ofWords (fun j => ws.getD j 0)
    match s.heapTake dt gid.toNat (64 * n.inboxsz.toNat) with
    | none => (s.refund nref, errorCode 3)
    | some (base, s) =>
      let n := { n with gen := old.gen + 1, gid := gid, state := stArmed, live := n.count.toNat, beads := 1
                        inbox := BitVec.ofNat 22 base }
      let s := s.setNode dt i n
      let s := { s with graphs := s.graphs.map (fun g => if g.1 = gid.toNat then
        (g.1, { g.2 with
          slots := if g.2.slots.contains (dt, i) then g.2.slots else g.2.slots ++ [(dt, i)]
          succs := tabErase g.2.succs (dt * 4096 + i) }) else g) }
      (if n.count = 0 then s.fire dt i else s, nodeRef dt i n)

/-- R234: what nqry reads; a slot of another owner's graph reads 0. -/
def State.queryAt (s : State) (asid : BitVec 12) (ref : Word) : Word :=
  let (dt, i) := refSlot ref
  let n := s.node dt i
  let other := match tabFind s.graphs n.gid.toNat with
    | some g => g.asid != asid
    | none => false
  if other then 0
  else BitVec.ofInt 32 n.live ++ (0 : BitVec 8) ++ n.attempt ++ (0 : BitVec 6) ++ BitVec.ofBool n.abs ++
    BitVec.ofBool (refMatches ref n) ++ n.state

/-- R236: evb at its target and its tile: the state after it and the result. -/
def State.bindAt (s : State) (ref nref : Word) (src : Option Source) (code : Nat) : State × Word :=
  let (dt, i) := refSlot ref
  let home := (refSlot nref).1
  let t := s.tile home
  if !refMatches ref (s.node dt i) then ((if src.isSome then s.refund nref else s), errorCode 1)
  else match src with
    | none => (s, errorCode code)
    | some x =>
      match (List.range 16).find? (fun j => !t.bindings.any (fun b => b.index == j)) with
      | none => (s.refund nref, errorCode 3)
      | some j => (s.setTile home { t with
          bindings := t.bindings ++ [⟨j, (ref.extractLsb' 43 16).toNat, ref, x⟩], dirty := true },
          BitVec.ofNat 64 (j + 16 * home))

/-- R237: a binding of a tile ends with its bead sent to its target as a cancel token. -/
def State.unbind (s : State) (dt : Nat) (b : Binding) (origin : Nat) : State :=
  let t := s.tile dt
  (s.setTile dt { t with bindings := t.bindings.filter (· != b), dirty := true }).send dt (refSlot b.target).1
    (bindingToken b .cancel origin) true none

/-- R237: evu at the binding's tile. -/
def State.unbindAt (s : State) (nref id : Word) : State × Word :=
  let dt := (id.extractLsb' 4 15).toNat
  match (s.tile dt).bindings.find? (fun b =>
      decide (id.toNat < 2 ^ 19) && b.index == (id.extractLsb' 0 4).toNat && b.gid == (nref.extractLsb' 43 16).toNat) with
  | some b => (s.unbind dt b 1, 0)
  | none => (s, 1)

/-! ### tresume and tabort at the home of a handle (R381, R384) -/

/-- R381: the parked activation that a handle names. -/
def State.parkedBy (s : State) (h : Word) : Option Nat :=
  let (dt, i) := refSlot h
  let n := s.node dt i
  let k := dt * 4096 + i
  if !h.getLsbD 63 && refMatches h n && n.state == stParked && h.extractLsb' 59 4 == n.attempt.setWidth 4 &&
    (match s.act? k with | some a => a.place == .parked | none => false)
  then some k else none

/-- R384: tresume; the status. -/
def State.resumeAt (s : State) (h flags : Word) : State × Word :=
  match s.parkedBy h with
  | none => (s, errorCode 1)
  | some k =>
    if flags.toNat ≥ 2 then (s, errorCode 2)
    else if flags = 0 then (s.resume k, 0)
    else match (s.act k).parkTch with
      | none => (s, errorCode 2)
      | some r => ((s.updAct k (fun a => { a with leases := a.leases ++ [r] })).resume k, 0)

/-- R379: an aborting cause code. -/
def abortingCode (c : Nat) : Bool := decide (1 ≤ c) && decide (c ≤ 0x1C) && !parks (BitVec.ofNat 8 c)

/-- R384: tabort; the status. -/
def State.abortAt (s : State) (h cause : Word) : State × Word :=
  match s.parkedBy h with
  | none => (s, errorCode 1)
  | some k =>
    if !abortingCode cause.toNat then (s, errorCode 2)
    else ((s.updAct k (fun a => { a with cause := { a.cause with code := cause.setWidth 8 } })).abort k, 0)

/-! ### The step -/

/-- A node-instruction request performed: the state after it, and its result. -/
def State.doNode (s : State) (r : Req) : ReqOp → State × Word
  | .narm _ ref => s.armAt ref r.nref
  | .ndef _ ref ws => s.defineAt ref r.nref ws
  | .nqry _ ref => (s, s.queryAt (s.act r.owner).asid ref)
  | .evb _ ref src code => s.bindAt ref r.nref src code
  | .evu _ id => s.unbindAt r.nref id
  | .tresume _ h f => s.resumeAt h f
  | .tabort _ h c => s.abortAt h c
  | .tlbfill _ x => (s, x)
  | _ => (s, 0)

/-- R342: a narm, an ndef or an evb that took effect is kept by its sender until the epoch that holds the effect is applied:
an epoch of the target, or, for a binding, of the issuer's own tile, which keeps it. -/
def State.retainNode (s : State) (r : Req) (x : Word) : State :=
  let keep (dt : Nat) : State :=
    let home := (refSlot r.nref).1
    let t := s.tile home
    if x.getLsbD 63 then s else s.setTile home { t with
      retained := t.retained ++ [⟨r.id, dt, .node r.op r.nref, some (s.tile dt).epochNext, none, true, none⟩], dirty := true }
  match r.op with
  | .narm _ ref => keep (refSlot ref).1
  | .ndef _ ref _ => keep (refSlot ref).1
  | .evb _ _ _ _ => keep (refSlot r.nref).1
  | _ => s

/-- A request performed at its home, its response written or its fault taken. -/
def State.answer (s : State) (r : Req) : State :=
  match r.op with
  | .load d n => s.doLoad r d n
  | .vload d e => s.doVload r d (2 ^ e.toNat)
  | .vloadq tile q e => s.doVloadq r tile (Fin.ofNat 8 q.toNat) (2 ^ e.toNat)
  | .store n _ => s.doStore r n
  | .vstore e => s.doStore r (2 ^ e.toNat)
  | .multi n _ => s.writeElems r.core n r.elems
  | .atomic op d n b e => s.doAtomic r op d n b e
  | .matrix c v bytes rep pos done => s.takeMatrix r { trapOf c v with bytes := bytes } rep pos done
  | op =>
    let (s, x) := s.doNode r op
    let s := s.retainNode r x
    match op.dest with
    | some d => s.respond r (BitVec.ofNat 5 d) x
    | none => s

/-- R15, R153, R331: a home takes accesses now: its tile is neither lost nor being copied, its page not frozen. -/
def State.homeOpen (s : State) (h : Home) : Bool :=
  match h with
  | .lm dt _ =>
    let d := s.die (s.dieOf dt)
    !(s.tile dt).lost && (s.ptOf dt).isSome && !(d.phase == .copying && d.rotVt == dt)
  | .phys pa => !s.frozenAt pa

/-- R163: the agent that issued a request. -/
def Req.agent (r : Req) : Nat :=
  if Config.fwKey ≤ r.owner ∧ r.owner < orphan then r.owner else (refSlot r.nref).1

/-- The request writes its locations. -/
def ReqOp.writes : ReqOp → Bool
  | .store _ _ => true
  | .vstore _ => true
  | .atomic _ _ _ _ _ => true
  | .multi _ _ => true
  | _ => false

/-- R164: a release may be seen, outside its scope instance, before an earlier access of its activation that it orders: not
before an acquire or an access to its own location, and not at system scope, which holds every agent. -/
def Req.mayPass (q r : Req) : Bool :=
  r.rel && r.scope != 3 && !q.acq && !q.touches r && !r.elems.isEmpty &&
    r.elems.all (fun e => match e.home with | .lm _ off => decide (off < Config.syncBase) | .phys _ => true)

/-- R159, R167: a store that its core's L1 already shows holds up the core's other accesses that would not see it there: those
that read its line past the L1, and those that write its bytes. -/
def State.behindShown (s : State) (r : Req) : Bool :=
  (State.shownElems { s with reqs := s.reqs.filter (fun q => q.id != r.id) } r.core).any (fun x =>
    r.elems.any (fun y => match x.1.home, y.home with
      | .phys pa, .phys pb =>
        if r.op.writes then x.1.home.overlaps x.2 y.home r.op.size
        else pa / 64 == pb / 64 && (r.acq || !s.l1Holds r.core y.key pb)
      | _, _ => false))

/-- R159, R167: a write of n bytes by another agent of a core, its copy engine or a commit, waits for a store to those bytes that
the core's L1 already shows. -/
def State.shownAt (s : State) (core : Option (Nat × Bool)) (h : Home) (n : Nat) : Bool :=
  (s.shownElems core).any (fun x => x.1.home.overlaps x.2 h n)

/-- The earlier outstanding requests that are ordered before the n-th. -/
def State.aheadOf (s : State) (n : Nat) (r : Req) : List Req := (s.reqs.take n).filter (fun q => q.before r)

/-- R161, R162, R164, R166, R188: nothing of its own activation or core holds the n-th outstanding request up: no earlier one is
ordered before it, unless it is a release that may pass it, nor, for a release, a remote rod add not yet performed, nor an access
that an earlier acquire-release has passed; an acquire does not meet a release whose earlier accesses its instance still
awaits. -/
def State.mayLeave (s : State) (n : Nat) (r : Req) : Bool :=
  (s.aheadOf n r).all (fun q => q.mayPass r) &&
  !s.behindEarly r.owner r.id (fun h m => r.elems.any (fun e => e.home.overlaps r.op.size h m)) &&
  !(r.rel && s.rodAddsOpen r.owner (s.senderOf r.owner)) &&
  !(r.acq && s.mustWait (fun h m => r.elems.any (fun e => e.home.overlaps r.op.size h m)) r.agent r.scope r.rel) &&
  !s.behindShown r

/-- R153, R335, R424: the n-th outstanding request may be performed: it may leave, it has crossed the fabric, and its homes take
accesses. -/
def State.mayAnswer (s : State) (n : Nat) (r : Req) : Bool :=
  s.mayLeave n r && s.crossed (.req r.id) &&
  r.elems.all (fun e => match e.home with | .lm _ _ => true | .phys _ => s.homeOpen e.home) &&
  r.routes.all (fun t => s.routeOpen t || !s.configured t.dt)

/-- R164: the releases that the n-th request, a release performed now, makes early: one for each of its bytes' homes. -/
def State.earlyOf (s : State) (n : Nat) (r : Req) : List Early :=
  let ids := (s.aheadOf n r).map (·.id)
  if r.rel && !ids.isEmpty then r.elems.map (fun e => ⟨e.home, r.op.size, r.agent, r.owner, r.scope, r.acq, ids⟩) else []

/-- R164: a request of an id is performed: no early release waits for it any longer. -/
def State.settle (s : State) (id : Nat) : State :=
  if s.reqs.any (fun r => r.id == id) then s
  else { s with early := (s.early.map (fun e => { e with waits := e.waits.filter (· != id) })).filter (fun e => !e.waits.isEmpty) }

/-- R131. The n-th outstanding request is performed and its response arrives. -/
def execAccessResponse (n : Nat) (s : State) : Out State :=
  .next (match s.reqs[n]? with
    | some r =>
      if s.mayAnswer n r then
        (State.answer { s with reqs := s.reqs.eraseIdx n, early := s.early ++ s.earlyOf n r } r).settle r.id
      else s
    | none => s)

/-- R167: element k of the n-th outstanding request is a write that its core's L1, which holds the line, may show before it is
performed: no earlier acquire of its activation is outstanding (R165), nor another write of the core to its bytes. -/
def State.mayShow (s : State) (n : Nat) (r : Req) (e : Elem) : Bool :=
  (match r.op with | .store _ _ => true | .vstore _ => true | .multi _ _ => true | _ => false) &&
  (match e.home with | .phys pa => s.l1Holds r.core e.key pa | .lm _ _ => false) &&
  !(s.reqs.take n).any (fun q => q.owner == r.owner && q.acq) &&
  !r.elems.any (fun x => x.k != e.k && x.home.overlaps r.op.size e.home r.op.size) &&
  !s.reqs.any (fun q => q.id != r.id && q.core == r.core && q.op.writes &&
    q.elems.any (fun x => x.home.overlaps q.op.size e.home r.op.size))

/-- R167, R168: element k of an outstanding plain store, vector store or multicast shown in its core's L1 before it is
performed. -/
def State.showStore (s : State) (id k : Nat) : State :=
  ((List.range s.reqs.length).zip s.reqs).foldl (fun s x =>
    let r := x.2
    if r.id ≠ id then s
    else match r.elems.find? (fun e => e.k == k) with
      | none => s
      | some e =>
        match e.home with
        | .phys pa =>
          if s.mayShow x.1 r e then { s.writeThrough r.core e.key pa (leBytes r.op.size e.value.toNat) with
            reqs := s.reqs.set x.1 { r with shown := k :: r.shown } }
          else s
        | .lm _ _ => s) s

end Sys2Proof.Machine
end

