-- ==== Sys2Proof/Machine/CopyOps.lean ====
section
/-! DEFINITION. Copies (R303 to R327): major 0x38, with the engines' steps COPY_POST, COPY_SEGMENT, SEGMENT_DELIVERY,
COPY_QUEUE_PUSH and COPY_END. Bytes are delivered by granules of their destination, tile-store bytes singly (log 11). -/

namespace Sys2Proof.Machine

/-! ### The operand registers (R306 to R309, R315, R316) -/

/-- R307: bytes per row. -/
def Copy.xb (c : Copy) : Nat := (c.e2.extractLsb' 0 16).toNat
/-- R307: rows. -/
def Copy.y (c : Copy) : Nat := (c.e2.extractLsb' 16 12).toNat
/-- R307: source row stride. -/
def Copy.sstr (c : Copy) : Nat := (c.e2.extractLsb' 28 18).toNat
/-- R307: destination row stride. -/
def Copy.dstr (c : Copy) : Nat := (c.e2.extractLsb' 46 18).toNat
/-- R308: the rod reference. -/
def Copy.rodref (c : Copy) : Nat := (c.e3.extractLsb' 0 37).toNat
/-- R308: the ring. -/
def Copy.ring (c : Copy) : Nat := (c.e3.extractLsb' 37 22).toNat
/-- R308: the source space. -/
def Copy.ssp (c : Copy) : Nat := (c.e3.extractLsb' 60 2).toNat
/-- R308: the destination space. -/
def Copy.dsp (c : Copy) : Nat := (c.e3.extractLsb' 62 2).toNat
/-- R315: block size. -/
def Copy.blk (c : Copy) : Nat := (c.e4.extractLsb' 0 16).toNat
/-- R315: targets. -/
def Copy.nv (c : Copy) : Nat := (c.e4.extractLsb' 16 12).toNat
/-- R315: VT step. -/
def Copy.vstep (c : Copy) : Nat := (c.e4.extractLsb' 28 12).toNat
/-- R315: every block to every target. -/
def Copy.rep (c : Copy) : Bool := c.e4.getLsbD 40
/-- R316: LM offset of the index list. -/
def Copy.list (c : Copy) : Nat := (c.e4.extractLsb' 0 22).toNat
/-- R316: indices. -/
def Copy.count (c : Copy) : Nat := (c.e4.extractLsb' 22 16).toNat
/-- R316: bytes of an index. -/
def Copy.entry (c : Copy) : Nat := if c.e4.getLsbD 38 then 8 else 4
/-- The rows of the copy. -/
def Copy.rows (c : Copy) : Nat := if c.fn = 2 then c.count else c.y

/-- R315: the DT of target k, as a number that may lie beyond its panel. -/
def Copy.targetDt (c : Copy) (k : Nat) : Nat := (c.e1.extractLsb' 22 15).toNat + k * c.vstep

/-- R315: the bytes that target k receives. -/
def Copy.share (c : Copy) (k : Nat) : Nat :=
  if c.rep then c.length
  else
    let full := c.length / c.blk
    (full + c.nv - 1 - k) / c.nv * c.blk + (if full % c.nv = k then c.length % c.blk else 0)

/-! ### Checks at issue (R313) -/

/-- R313, step 4: the fault of the lowest failing byte of n bytes from an address of a space, for an agent of panel p, known at
issue. -/
def runFault (s : State) (p : Nat) (window write : Bool) (a n : Nat) : Option (BitVec 8 × Nat) :=
  if n = 0 then none
  else if window then
    let off := a % 2 ^ 22
    if 2 ^ 37 ≤ a ∨ !s.names p (a / 2 ^ 22) then some (cWINDOW, a)
    else if write && decide (off < Config.generalBase) then some (cPERM, a)
    else if !write && decide (off < Config.mirrorEnd) && decide (Config.nodeTableEnd < off + n) then
      some (cPERM, a - off + max off Config.nodeTableEnd)
    else if Config.syncEnd < off + n then some (cWINDOW, a - off + max off Config.syncEnd)
    else none
  else if 2 ^ 56 < a + n then some (cNONCANON, max a (2 ^ 56))
  else none

/-- The fault of the lowest address of a list of faults; of equals the first. -/
def lowestOf (l : List (Option (BitVec 8 × Nat))) : Res Unit :=
  match l.foldl (fun b x => match b, x with
      | none, y => y
      | some y, some z => if z.2 < y.2 then some z else some y
      | some y, none => some y) none with
  | some (code, a) => .error (trapOf code (BitVec.ofNat 64 a))
  | none => .ok ()

/-- R313, R318: `cpyr` takes addresses and fields that are multiples of 4. -/
def unaligned (x : Nat) : Option (BitVec 8 × Nat) := if x % 4 = 0 then none else some (cALIGN, x)

/-- R313, step 2: BOUNDS on e2, then on e1 of `cpyts` and `cpyq`, then on e3 and e4. -/
def checkFields (c : Copy) : Res Unit := do
  let bounds (ok : Bool) (v : Word) : Res Unit := require ok cBOUNDS v
  bounds (c.fn != 2 || (c.y == 0 && c.sstr == 0)) c.e2
  bounds (c.fn == 2 || decide (c.xb * c.y ≤ 2 ^ 30)) c.e2
  bounds (c.fn != 3 || (c.xb % 2 == 0 && c.dstr % 2 == 0)) c.e2
  bounds (c.fn != 5 || c.xb * c.y % 256 == 0) c.e2
  bounds (c.fn != 3 || !c.e1.getLsbD 0) c.e1
  bounds (c.fn != 5 || c.e1 == 0) c.e1
  bounds (!c.e3.getLsbD 59 && decide (c.ssp < 2) && decide (c.dsp < 2) &&
    (c.fn != 1 || c.dsp == 1) && (!(c.fn == 3 || c.fn == 5) || c.dsp == 0) &&
    (c.ring == 0 || (c.rodref != 0 && c.ring % 8 == 0 && decide (Config.generalBase ≤ c.ring) &&
      decide (c.ring ≤ 0x1FFFF8)))) c.e3
  bounds (c.fn != 1 || (decide (c.e4.toNat < 2 ^ 41) && c.blk != 0 && c.nv != 0)) c.e4
  bounds (c.fn != 2 || (decide (c.e4.toNat < 2 ^ 39) && decide (c.count * c.xb ≤ 2 ^ 30))) c.e4

/-- R313, step 3: the rod reference. -/
def checkRodref (s : State) (c : Copy) : Res Unit := do
  if c.rodref = 0 then return ()
  let off := c.rodref % 2 ^ 22
  require (c.fn == 1 || s.names (c.dt / 4096) (c.rodref / 2 ^ 22)) cWINDOW c.e3
  require (decide (Config.syncBase ≤ off) && decide (off < Config.syncEnd)) cWINDOW c.e3
  require (off % 8 == 0) cALIGN c.e3

/-- R313, step 4: the index list of `cpyx`, or the source bytes; then, for `cpyr`, the fields that are no address. At one address
ALIGN comes first, and of XB and SSTR the smaller value is reported (DESIGN CHOICE, log 75). -/
def checkStream (s : State) (c : Copy) : Res Unit := do
  if c.fn = 2 then
    require (c.list % c.entry == 0) cALIGN (BitVec.ofNat 64 c.list)
    let _ ← checkLocal s .load (BitVec.ofNat 64 c.list) (c.count * c.entry)
    return ()
  else
    lowestOf ((if c.fn = 4 then [unaligned c.e0.toNat] else []) ++ (List.range c.y).map (fun r =>
      runFault s (c.dt / 4096) (c.ssp == 1) false ((c.e0.toNat + r * c.sstr) % 2 ^ 64) c.xb))
    lowestOf (if c.fn = 4 then [unaligned c.xb, unaligned c.sstr] else [])

/-- R313, step 4: the destination bytes; for `cpyr` its stride comes after them (log 75). -/
def checkDestinations (s : State) (c : Copy) : Res Unit :=
  let e1 := c.e1.toNat
  match c.fn with
  | 1 =>
    if 2 ^ 37 ≤ e1 then .error (trapOf cWINDOW c.e1)
    else lowestOf ((List.range c.nv).map (fun k =>
      let at0 := c.targetDt k * 2 ^ 22 + e1 % 2 ^ 22
      if c.targetDt k / 4096 ≠ c.targetDt 0 / 4096 ∨ !s.names (c.dt / 4096) (c.targetDt k) then some (cWINDOW, at0)
      else runFault s (c.dt / 4096) true true at0 (c.share k)))
  | 3 =>
    if 2 ^ 38 ≤ e1 ∨ !s.names (c.dt / 4096) (e1 / 2 ^ 23) then .error (trapOf cWINDOW c.e1)
    else lowestOf ((List.range c.y).map (fun r =>
      let off := e1 % 2 ^ 23 + r * c.dstr
      if c.xb ≠ 0 ∧ 2 ^ 23 < off + c.xb then some (cBOUNDS, e1 / 2 ^ 23 * 2 ^ 23 + max off (2 ^ 23)) else none))
  | 5 => .ok ()
  | n => do
    lowestOf ((if n = 4 then [unaligned e1] else []) ++ (List.range c.rows).map (fun r =>
      runFault s (c.dt / 4096) (c.dsp == 1) true ((e1 + r * c.dstr) % 2 ^ 64) c.xb))
    lowestOf (if n = 4 then [unaligned c.dstr] else [])

/-- R310, R315: the rods and rings a copy credits. -/
def Copy.targets (c : Copy) : List Credit :=
  let k := (c.rodref % 2 ^ 22 - Config.syncBase) / 8
  if c.rodref = 0 then []
  else if c.fn = 1 then (List.range c.nv).map (fun j => ⟨c.targetDt j, some k, c.share j, 0, c.ring⟩)
  else [⟨c.rodref / 2 ^ 22, some k, c.length, 0, c.ring⟩]

/-! ### Ending (R310, R320, R321) -/

/-- R320: the completion record of one target. -/
def Copy.record (c : Copy) (x : Credit) : List Byte :=
  let k0 := (match c.fail with | some f => f.1.toNat | none => 0) + (if c.psn.isSome then 2 ^ 8 else 0) +
    c.flags.toNat * 2 ^ 9 + c.fn * 2 ^ 16 + x.expect * 2 ^ 32
  let addr : Word := match c.fail, c.psn with
    | some f, _ => f.2.1
    | none, some p => p
    | none, none => 0
  leBytes 8 k0 ++ leBytes 8 x.done ++ leBytes 8 addr.toNat ++ leBytes 8 c.nref.toNat

/-- R320: a completion record written through a ring descriptor that is in order, then its PUT raised. -/
def State.writeRecord (s : State) (dt ring : Nat) (rec0 : List Byte) : State :=
  let d := s.homeRead 0 (.lm dt ring) 8
  let base := bitsOf d 21 0
  let log2n := bitsOf d 25 22
  let put := bitsOf d 63 32
  if bitsOf d 31 26 ≠ 0 ∨ 10 < log2n ∨ base % 32 ≠ 0 ∨ base < Config.generalBase ∨
      Config.lmSize < base + 32 * 2 ^ log2n then s
  else
    let s := s.perform 0 [(.lm dt (base + 32 * (put % 2 ^ log2n)), rec0)]
    s.perform 0 [(.lm dt (ring + 4), leBytes 4 (put + 1))]

/-- R310: P of a rod lowered. -/
def State.lowerPending (s : State) (dt k n : Nat) : State :=
  let t := s.tile dt
  let r := t.rod k
  s.setTile dt { t with rods := tabSet t.rods k { r with p := r.p - BitVec.ofNat 64 n }, dirty := true }

/-- R310, R320, R321: a copy ends: bytes not delivered leave P, its records are written, and its failure with no ring
aborts its activation. -/
def State.endCopy (s : State) (key : Nat) (c : Copy) : State :=
  let s := { s with copies := tabErase s.copies key }
  let s := c.credits.foldl (fun s x =>
    let s := match x.rod with
      | some k => if x.done < x.expect then s.lowerPending x.dt k (x.expect - x.done) else s
      | none => s
    if x.ring = 0 then s else s.writeRecord x.dt x.ring (c.record x)) s
  match c.fail with
  | none => s
  | some (code, addr, _) =>
    if c.ring ≠ 0 then s
    else match s.act? c.owner with
      | none => s
      | some a =>
        if a.nref ≠ c.nref then s
        else (s.updAct c.owner (fun a => { a with pc := c.pc })).takeTrap c.owner
          { trapOf (if code = cTMISS ∨ code = cNOTPRESENT then cLEASE else code) addr with bytes := c.bad }

/-! ### The instructions (R312 to R319) -/

/-- The copy that the extension registers of the issuing activation describe. -/
def State.newCopy (s : State) (fn q : Nat) : Copy :=
  let a := s.here
  let c : Copy := {
    owner := s.cur, dt := a.dt, stg := a.stg, pc := a.pc, fn := fn
    e0 := a.ereg 0, e1 := a.ereg 1, e2 := a.ereg 2, e3 := a.ereg 3, e4 := a.ereg 4
    queue := q, length := 0, credits := [], posted := false, base := 0, sent := 0, flight := [], kept := []
    fail := none, psn := none, flags := 0, nref := a.nref, asid := a.asid, asked := none, bad := [] }
  let c := { c with length := c.xb * c.rows }
  { c with credits := c.targets }

/-- R377: performance counter n of the issuing core raised. -/
def State.countPerf (s : State) (n : Fin 8) (x : Nat) : State :=
  let a := s.here
  if a.fw then
    let f := s.fwCore s.fwHere
    s.setFw s.fwHere { f with perf := f.perf.set n (f.perf[n] + BitVec.ofNat 64 x) }
  else s.updCore a.tile a.stg (fun c => c.count n x)

/-- R313: a copy issued: its checks in their order; one of no bytes, which has no byte to check, ends at once. -/
def issueCopy (fn q : Nat) (s : State) : Res State := do
  nodeOnly s
  if fn = 5 then require (queueAllowed s.here (Fin.ofNat 8 q) true) cQUEUE (BitVec.ofNat 64 q)
  let c := s.newCopy fn q
  checkFields c
  checkRodref s c
  if c.length = 0 then return s.endCopy s.nextId { c with posted := true }
  checkStream s c
  checkDestinations s c
  let s := s.countPerf 7 c.length
  return { s with copies := tabSet s.copies s.nextId c, nextId := s.nextId + 1 }

/-- The meaning of a copy instruction; a replica abandons its screen (R353). -/
def copyInstr (fn q : Nat) (s : State) : Out State := plainInstr [] [] (originalOnly (issueCopy fn q)) s

/-- R314. Issues a box copy. -/
def execCpy (s : State) : Out State := copyInstr 0 0 s
/-- R315. Issues a copy that deals blocks to several target VTs. -/
def execCpyd (s : State) : Out State := copyInstr 1 0 s
/-- R316. Issues a gather copy through an index list. -/
def execCpyx (s : State) : Out State := copyInstr 2 0 s
/-- R317. Issues a copy into a tile store. -/
def execCpyts (s : State) : Out State := copyInstr 3 0 s
/-- R318. Issues an FP32 reduce-add copy. -/
def execCpyr (s : State) : Out State := copyInstr 4 0 s
/-- R319. Issues a copy that pushes its stream into a queue of the issuing tile. -/
def execCpyq (d : BitVec 5) (s : State) : Out State := copyInstr 5 (d.toNat - 16) s

/-! ### The distributor (R304, R305, R322) -/

/-- R151: the ranges of the live leases of a copy's issuer, the write leases alone for a write. -/
def State.leaseRanges (s : State) (c : Copy) (write : Bool) : List (Nat × Nat) :=
  match s.act? c.owner with
  | none => []
  | some a =>
    if a.nref ≠ c.nref then []
    else ((List.range 8).filter (fun i => s.leaseLive a i && (!write || (s.leaseWord a i 1).testBit 62))).map (fun i =>
      (s.leaseWord a i 0, s.leaseWord a i 1 % 2 ^ 31))

/-- Every one of n bytes lies in one of some ranges. -/
def inRanges (l : List (Nat × Nat)) (va n : Nat) : Bool :=
  (List.range n).all (fun i => l.any (fun r => decide (r.1 ≤ va + i) && decide (va + i < r.1 + r.2)))

/-- R151: the bytes lie within live leases of the copy's issuer, write leases for a write. -/
def State.leased (s : State) (c : Copy) (va n : Nat) (write : Bool) : Bool := inRanges (s.leaseRanges c write) va n

/-- R322: of n bytes from an address, those from the first on that leases cover, or that none covers; `cpyr` takes whole
elements. -/
def State.leaseRun (s : State) (c : Copy) (va n : Nat) (write : Bool) : Nat :=
  let l := s.leaseRanges c write
  let unit := if c.fn = 4 then 4 else 1
  if l.isEmpty then n
  else ((List.range (n / unit)).takeWhile (fun i => inRanges l (va + unit * i) unit == inRanges l va unit)).length * unit

/-- R305: the entry of the distributor's TLB that translates an address, else of the die translation cache. -/
def State.copyLookup (s : State) (c : Copy) (va : Nat) : Option Tlb :=
  match (s.tile c.dt).dtlb.find? (fun e => e.covers c.asid va) with
  | some e => some e
  | none => (s.die (s.dieOf c.dt)).tlb.find? (fun e => e.covers c.asid va)

/-- R321, R322: the translation of n bytes of one page: an entry, a failure's status, or none while the copy waits for
the fill of a leased page. -/
def State.copyPage (s : State) (c : Copy) (va n : Nat) (write : Bool) : Except (Option (BitVec 8)) Tlb :=
  let safe := s.leased c va n write
  match s.copyLookup c va with
  | none =>
    if safe then .error none
    else .error (some (if (s.walk c.asid va).isSome then cTMISS else cNOTPRESENT))
  | some e =>
    if safe then .ok e
    else if !(if write then e.w else e.r) then .error (some cPERM)
    else if !s.backed (c.dt / 4096) (e.phys va) then .error (some cUNBACKED)
    else .ok e

/-- R305: the distributor's TLB filled for an address. -/
def State.copyTouch (s : State) (c : Copy) (va : Nat) : State :=
  let t := s.tile c.dt
  match t.dtlb.find? (fun e => e.covers c.asid va), s.copyLookup c va with
  | none, some e => s.setTile c.dt { t with dtlb := installTlb t.dtlb e 64 }
  | _, _ => s

/-- R322, R380, R381: the fill request of a distributor, sent to a translation service core of its die. -/
def State.askFill (s : State) (c : Copy) (va : Nat) : State :=
  let die := s.dieOf c.dt
  let t0 : Word := (0 : BitVec 20) ++ BitVec.ofBool c.stg ++ BitVec.ofNat 15 c.dt ++ c.asid ++ 3#8 ++ cTMISS
  s.send c.dt (die / 64 * 256 + die % 64 * 4 + (if va.testBit 16 then 2 else 1))
    (.trap t0 (BitVec.ofNat 64 (2 ^ 63 + c.dt)) (BitVec.ofNat 64 va) 0) false none

/-- R321: a failure at a byte; the earliest in stream order prevails. -/
def Copy.failAt (c : Copy) (code : BitVec 8) (addr : Word) (pos : Nat) : Copy :=
  match c.fail with
  | some (_, _, p) => if p ≤ pos then c else { c with fail := some (code, addr, pos) }
  | none => { c with fail := some (code, addr, pos) }

/-- R304, R315, R317, R319: the destinations of stream byte p: targets and addresses in the destination's space. -/
def Copy.destinations (c : Copy) (p : Nat) : List (Nat × Nat) :=
  let e1 := c.e1.toNat
  let at0 := (e1 + p / c.xb * c.dstr + p % c.xb) % 2 ^ 64
  match c.fn with
  | 1 =>
    let i := p / c.blk
    let place (k off : Nat) : Nat × Nat := (k, c.targetDt k * 2 ^ 22 + e1 % 2 ^ 22 + off)
    if c.rep then (List.range c.nv).map (fun k => place k p)
    else [place (i % c.nv) (i / c.nv * c.blk + p % c.blk)]
  | 5 => [(0, p)]
  | _ => [(0, at0)]

/-- R158, R301, R318: bytes of a destination granule. -/
def Copy.granule (c : Copy) : Nat :=
  match c.fn with
  | 3 => 1
  | 4 => 4
  | 5 => 256
  | _ => if c.fn = 1 ∨ c.dsp = 1 then 8 else 128

/-- The bytes of a list from stream position p on, gathered by target and granule, and cut where `cut` says so (R322); the
newest group first, each with its first address and stream position. -/
def Copy.group (c : Copy) (cut : Nat → Bool) : List (Byte × Bool) → Nat → List (Nat × Nat × Nat × List (Byte × Bool)) →
    List (Nat × Nat × Nat × List (Byte × Bool))
  | [], _, acc => acc
  | b :: t, p, acc =>
    let acc := (c.destinations p).foldl (fun acc d =>
      match acc.find? (fun g => g.1 == d.1 && g.2.1 + g.2.2.2.length == d.2 && g.2.2.1 + g.2.2.2.length == p &&
          d.2 % c.granule != 0 && !cut d.2) with
      | some g => acc.map (fun h => if h == g then (h.1, h.2.1, h.2.2.1, h.2.2.2 ++ [b]) else h)
      | none => (d.1, d.2, p, [b]) :: acc) acc
    c.group cut t (p + 1) acc

/-- R175, R305, R318: the home of a destination granule, with its key id and whether its adds are made at a host bridge, or the
failure's status, or none while the copy waits for a fill. -/
def State.copyHome (s : State) (c : Copy) (a n : Nat) : Except (Option (BitVec 8)) (Home × BitVec 8 × Bool) :=
  match c.fn with
  | 3 => .ok (.lm (c.e1.toNat / 2 ^ 23) (a - c.e1.toNat / 2 ^ 23 * 2 ^ 23), 0, false)
  | 5 => .ok (.lm c.dt a, 0, false)
  | _ =>
    if c.fn = 1 ∨ c.dsp = 1 then .ok (.lm (a / 2 ^ 22) (a % 2 ^ 22), 0, false)
    else do
      let e ← s.copyPage c a n true
      if c.fn = 4 ∧ e.home = 1 ∧ e.place = 2 then .error (some cPERM)
      else return (.phys (s.homeOf e (s.dieOf c.dt) a), e.key, c.fn == 4 && e.home == 1)

/-- R323, R365: the poisoned bytes of the index entry that the next row of a `cpyx` starts with. -/
def State.indexPoison (s : State) (c : Copy) : List PoisonAt :=
  if c.fn ≠ 2 ∨ c.sent % c.xb ≠ 0 then [] else s.poisonedBytes (.lm c.dt (c.list + c.sent / c.xb * c.entry)) c.entry

/-- R304, R307, R316: where the next segment starts: its row's source address, read from the index list at the start of
a row of `cpyx`, or the status and ADDR of its failure. -/
def State.rowBase (s : State) (c : Copy) : Except (BitVec 8 × Word) Word :=
  let r := c.sent / c.xb
  if c.fn ≠ 2 then .ok (c.e0 + BitVec.ofNat 64 (r * c.sstr))
  else if c.sent % c.xb ≠ 0 then .ok c.base
  else
    let off := c.list + r * c.entry
    if (List.range c.entry).any (s.poisoned (.lm c.dt off)) then .error (cPOISON, BitVec.ofNat 64 off)
    else
      let base := c.e0 + BitVec.ofInt 64 (signedOf (8 * c.entry) (s.lmRead c.dt off c.entry))
      match runFault s (c.dt / 4096) (c.ssp == 1) false base.toNat c.xb with
      | some (code, _) => .error (code, base)
      | none => .ok base

/-- R322: a destination byte of a copy into global memory is leased and the one before it is not, or the reverse. -/
def State.leaseEdge (s : State) (c : Copy) (a : Nat) : Bool :=
  if c.fn = 1 ∨ 3 ≤ c.fn ∨ c.dsp = 1 then false
  else s.leased c a 1 true != s.leased c (a - 1) 1 true

/-- R304, R336: the source engine of a segment, by the key of a sender: the tile's, or for global memory the engine beside
the die's HBM controller (log 67). -/
def State.engineOf (s : State) (c : Copy) (h : Home) : Nat :=
  let beside (die : Nat) : Nat := Config.fwKey + die / 64 * 256 + die % 64 * 4
  match h with
  | .lm dt _ => dt
  | .phys pa => beside (if pa < 2 ^ 45 then pa / 2 ^ 36 else s.dieOf c.dt)

/-- The units of a segment that an engine sends, with their homes and routes, in stream order, up to the first that fails
or waits. -/
def State.units (s : State) (c : Copy) (engine : Nat) (src : Word) : List (Nat × Nat × Nat × List (Byte × Bool)) →
    List Segment × Option (Option (BitVec 8) × Nat × Nat)
  | [] => ([], none)
  | (k, a, p, bs) :: t =>
    match s.copyHome c a bs.length with
    | .ok (h, key, bridge) =>
      let (us, f) := s.units c engine src t
      let route := match h with | .lm dt _ => some (s.routeTo engine dt) | .phys _ => none
      (⟨p, src + BitVec.ofNat 64 (p - c.sent), k, h, key, bridge, route, bs, true, true⟩ :: us, f)
    | .error x => ([], some (x, a, p))

/-- R424: the units of a copy that an engine sends to another panel cross the fabric. -/
def State.crossUnits (s : State) (key engine : Nat) (us : List Segment) : State :=
  us.foldl (fun s u => match u.home.hop with
    | some h => s.cross (agentPanel engine) h.1 h.2 (.seg key u.tgt u.pos)
    | none => s) s

/-- R304, R316, R321, R322: the next segment of a copy, cut and translated by the distributor and read by its source
engine. -/
def State.sendSegment (s : State) (key : Nat) (c : Copy) : State :=
  let put (s : State) (c : Copy) : State := { s with copies := tabSet s.copies key c }
  let wait (s : State) (c : Copy) (va : Nat) : State :=
    if c.asked = some va then s else (put s { c with asked := some va }).askFill c va
  let left := c.xb - c.sent % c.xb
  match s.rowBase c with
  | .error (code, addr) => put s { c.failAt code addr c.sent with bad := s.indexPoison c }
  | .ok base =>
    let c := { c with base := base }
    let a := (base.toNat + c.sent % c.xb) % 2 ^ 64
    let src : Word := BitVec.ofNat 64 a
    let source : Except (Option (BitVec 8)) (Home × BitVec 8 × Nat) :=
      if c.ssp = 1 then .ok (.lm (a / 2 ^ 22) (a % 2 ^ 22), 0, left)
      else
        let size := match s.copyLookup c a with | some e => pageBytes e.size | none => pageBytes 0
        let n := s.leaseRun c a (min left (size - a % size)) false
        match s.copyPage c a n false with
        | .ok e => .ok (.phys (s.homeOf e (s.dieOf c.dt) a), e.key, n)
        | .error x => .error x
    match source with
    | .error none => wait s c a
    | .error (some code) =>
      let s := put s (c.failAt code src c.sent)
      if code = cTMISS ∨ code = cNOTPRESENT then s.askFill c a else s
    | .ok (h, kid, n) =>
      if !s.homeOpen h then s
      else
        let s := if c.ssp = 1 then s else s.copyTouch c a
        let bytes := (List.range n).map (fun i => (s.homeByte kid.toNat h i, s.poisoned h i))
        let groups := (c.group (s.leaseEdge c) bytes c.sent []).reverse
        let (us, bad) := s.units c (s.engineOf c h) src groups
        let s := us.foldl (fun s u => match u.home with
          | .phys _ => s.copyTouch c ((c.destinations u.pos).headD (0, 0)).2
          | .lm _ _ => s) s
        match bad with
        | none => put (s.crossUnits key (s.engineOf c h) us) { c with sent := c.sent + n, flight := c.flight ++ us, asked := none }
        | some (none, va, _) => wait s c va
        | some (some code, va, p) =>
          let c' := { c with sent := p, flight := c.flight ++ us }.failAt code (src + BitVec.ofNat 64 (p - c.sent)) p
          let s := put (s.crossUnits key (s.engineOf c h) us) c'
          if code = cTMISS ∨ code = cNOTPRESENT then s.askFill c va else s

/-- R324: an earlier access of the copy's activation is outstanding. -/
def State.earlierAccess (s : State) (key : Nat) (c : Copy) : Bool :=
  s.reqs.any (fun r => r.owner == c.owner && r.nref == c.nref && decide (r.id < key))

/-- R310. A copy's expected byte count is posted to the hidden pending count of each rod it credits. -/
def execCopyPost (key : Nat) (s : State) : Out State :=
  .next (match tabFind s.copies key with
    | none => s
    | some c =>
      if c.posted || !c.credits.all (fun x => s.routeOpen (s.routeTo c.dt x.dt)) then s
      else
        let s := c.credits.foldl (fun s x => match x.rod with
          | some k =>
            let t := s.tile x.dt
            let r := t.rod k
            s.setTile x.dt { t with rods := tabSet t.rods k { r with p := r.p + BitVec.ofNat 64 x.expect }, dirty := true }
          | none => s) s
        { s with copies := tabSet s.copies key { c with posted := true } })

/-- R304. A segment arrives as an active message at its source engine, which reads and sends the bytes. -/
def execCopySegment (key : Nat) (s : State) : Out State :=
  .next (match tabFind s.copies key with
    | none => s
    | some c => if c.fail.isSome || decide (c.length ≤ c.sent) || s.earlierAccess key c then s else s.sendSegment key c)

/-! ### Delivery (R310, R314, R317, R318, R321, R323) -/

/-- R318: FP32 elements added at a home, poisoned words left; the state and the flags raised. -/
def State.reduceAdd (s : State) (key : BitVec 8) (h : Home) (bs : List Byte) : State × Flags :=
  if (List.range 4).any (s.poisoned h) then (s, 0)
  else
    let (x, fl) := fp32.add (s.homeRead key.toNat h 4) (leNat bs)
    (s.perform key.toNat [(h, leBytes 4 x)], fl)

/-- R317: a copy has delivered the byte at an offset of a tile store: the poison with which it last did. -/
def Copy.delivered (c : Copy) (dt off : Nat) : Option Bool :=
  c.kept.reverse.findSome? (fun x =>
    if x.2.2.data && x.2.2.home == .lm dt off then x.2.2.bytes.head?.map (·.2) else none)

/-- R301, R317, R323: one byte of a copy written into a tile store. A poisoned byte poisons its slice; a slice of which the
copy has delivered both bytes is written whole, and has their poison alone. -/
def State.writeStore (s : State) (c : Copy) (dt off : Nat) (b : Byte × Bool) : State :=
  let t := s.tile dt
  let slice := off / 2
  let bad := b.2 || (c.delivered dt (2 * slice + (1 - off % 2))).getD (t.tsPoison.contains slice)
  s.setTile dt { t with
    store := tabSet t.store (off / 128) (BitVec.ofNat 1024 (putByte ((tabFind t.store (off / 128)).getD 0).toNat (off % 128) b.1))
    tsPoison := t.tsPoison.filter (· != slice) ++ (if bad then [slice] else [])
    sourced := t.sourced.filter (fun g => g.isLm || !(decide (g.base ≤ slice / 64) && decide (slice / 64 < g.base + g.len)))
    dirty := t.dirty || t.sourced.any (fun g => !g.isLm && decide (g.base ≤ slice / 64) && decide (slice / 64 < g.base + g.len)) }

/-- R323: the granules of a home that receive poisoned bytes are poisoned. -/
def State.spreadPoison (s : State) (h : Home) (bs : List (Byte × Bool)) : State :=
  ((List.range bs.length).zip bs).foldl (fun s x =>
    if x.2.2 && !s.poisoned h x.1 then
      match h with
      | .lm dt off =>
        let t := s.tile dt
        s.setTile dt { t with lmPoison := t.lmPoison ++ [(off + x.1) / 8] }
      | .phys pa => { s with poison := s.poison ++ [(pa + x.1) / 128] }
    else s) s

/-- R321: why the destination refuses a unit. -/
def State.unitRefused (s : State) (c : Copy) (u : Segment) : Option (BitVec 8) :=
  match u.home with
  | .phys _ => none
  | .lm dt off =>
    if c.fn = 3 then none
    else if Config.syncBase ≤ off then some cSYNCSTORE
    else if (List.range u.bytes.length).any (fun i => (s.wsAt dt (off + i)).isSome) then some cWSREMOTE
    else if (List.range u.bytes.length).any (fun i => s.leaseTableAt dt (off + i)) then some cPERM
    else none

/-- R133: bytes of global memory that a copy has written, in the line that the issuing core's L1 holds. -/
def State.showCopy (s : State) (c : Copy) (key : BitVec 8) (h : Home) (bs : List Byte) : State :=
  match h with
  | .phys pa => s.writeThrough (some (c.dt, c.stg)) key pa bs
  | .lm _ _ => s

/-- R314, R317, R318, R323: a unit performed at its destination; the state and the flags raised. -/
def State.performUnit (s : State) (c : Copy) (u : Segment) : State × Flags :=
  match c.fn, u.home with
  | 3, .lm dt off => (((List.range u.bytes.length).zip u.bytes).foldl (fun s b => s.writeStore c dt (off + b.1) b.2) s, 0)
  | 4, h =>
    let s := match h with
      | .phys pa => if u.bridge then s.holdHostLine (c.dt / 4096) pa else s
      | .lm _ _ => s
    let (s, fl) := s.reduceAdd u.key h (u.bytes.map (·.1))
    ((s.showCopy c u.key h (leBytes 4 (s.homeRead u.key.toNat h 4))).spreadPoison h u.bytes, fl)
  | _, h =>
    (((s.perform u.key.toNat [(h, u.bytes.map (·.1))]).showCopy c u.key h (u.bytes.map (·.1))).spreadPoison h u.bytes, 0)

/-- R310: n bytes credited to a rod: 1 each to COUNT, from P. -/
def State.creditRod (s : State) (dt k n : Nat) : State := (s.lowerPending dt k n).addRod dt k (BitVec.ofNat 32 n)

/-- The credit target of a unit. -/
def Copy.creditOf (c : Copy) (u : Segment) : Option Credit := c.credits[u.tgt]?

/-- The VT a unit is delivered into. -/
def Segment.vt (u : Segment) : Option Nat := match u.home with | .lm dt _ => some dt | .phys _ => none

/-- R342: what a delivered unit leaves to be kept until it is durable: its data with its VT's next epoch, its credit
with that of the rod's VT. -/
def State.keepUnit (s : State) (c : Copy) (u : Segment) : List (Nat × BitVec 32 × Segment) :=
  let epoch (dt : Nat) : BitVec 32 := (s.tile dt).epochNext
  let credited : Option Nat := if u.credit then (c.creditOf u).map (·.dt) else none
  match (if u.data then u.vt else none), credited with
  | some d, some r =>
    if d = r then [(d, epoch d, u)]
    else [(d, epoch d, { u with credit := false }), (r, epoch r, { u with data := false })]
  | some d, none => [(d, epoch d, { u with credit := false })]
  | none, some r => [(r, epoch r, { u with data := false })]
  | none, none => []

/-- R310, R342: a unit credited and kept; its copy brought up to date. -/
def State.credit (s : State) (key : Nat) (c : Copy) (u : Segment) : State :=
  let units := s.keepUnit c u
  let s := units.foldl (fun s x => s.setTile x.1 { s.tile x.1 with dirty := true }) s
  let c := { c with
    kept := c.kept ++ units
    credits := if u.credit then c.credits.mapIdx (fun i x => if i = u.tgt then { x with done := x.done + u.bytes.length } else x)
      else c.credits }
  let s := { s with copies := tabSet s.copies key c }
  match (if u.credit then c.creditOf u else none) with
  | some x => match x.rod with
    | some k => s.creditRod x.dt k u.bytes.length
    | none => s
  | none => s

/-- R314, R318: no earlier byte of the copy is still on its way to a byte of this unit. -/
def Copy.inOrder (c : Copy) (u : Segment) : Bool :=
  !c.flight.any (fun v => decide (v.pos < u.pos) && v.home.overlaps v.bytes.length u.home u.bytes.length)

/-- R314, R318, R321, R323: unit u of a copy performed at its destination and credited, or refused. -/
def State.deliver (s : State) (key : Nat) (c : Copy) (u : Segment) : State :=
  let put (s : State) (c : Copy) : State := { s with copies := tabSet s.copies key c }
  match (if u.data then s.unitRefused c u else none) with
  | some code => put s (c.failAt code u.src u.pos)
  | none =>
    let (s, fl) := if u.data then s.performUnit c u else (s, 0)
    let low := ((List.range u.bytes.length).zip u.bytes).find? (·.2.2)
    let psn := match low, c.psn with
      | some x, some p => some (if (u.src + BitVec.ofNat 64 x.1).toNat < p.toNat then u.src + BitVec.ofNat 64 x.1 else p)
      | some x, none => some (u.src + BitVec.ofNat 64 x.1)
      | none, p => p
    s.credit key { c with flags := c.flags ||| fl, psn := psn } u

/-- R310. The n-th unit of copied bytes on its way is performed at its destination and credited to the rod. -/
def execSegmentDelivery (key n : Nat) (s : State) : Out State :=
  .next (match tabFind s.copies key with
    | none => s
    | some c => match c.flight[n]? with
      | none => s
      | some u =>
        if c.fn = 5 ∨ !c.posted ∨ !c.inOrder u ∨ !s.crossed (.seg key u.tgt u.pos) ∨ !s.homeOpen u.home ∨
            s.shownAt (some (c.dt, c.stg)) u.home u.bytes.length ∨ !(u.route.map s.routeOpen).getD true ∨
            !((c.creditOf u).map (fun x => s.homeOpen (.lm x.dt 0))).getD true then s
        else
          let c := { c with flight := c.flight.eraseIdx n }
          { s with copies := tabSet s.copies key c }.deliver key c u)

/-- R319, R323, R365: where the poisoned bytes of the queue entry that starts at stream position p lie. -/
def Copy.entryPoison (c : Copy) (p : Nat) (bytes : List (Byte × Bool)) : List PoisonAt :=
  (((List.range bytes.length).zip bytes).filter (·.2.2)).map (fun x =>
    let a := (c.e0.toNat + (p + x.1) / c.xb * c.sstr + (p + x.1) % c.xb) % 2 ^ 64
    if c.ssp = 1 then .lm (a / 2 ^ 22) (a % 2 ^ 22) else .global a)

/-- R108, R109, R319, R396. A cpyq engine pushes a 256-byte entry once the queue has room. The step lets it do so only once
the core can no longer push in the same local cycle (State.eventOpen). -/
def execCopyQueuePush (key : Nat) (s : State) : Out State :=
  .next (match tabFind s.copies key with
    | none => s
    | some c =>
      let bytes := (c.flight.map (·.bytes)).flatten.take 256
      let q : Fin 8 := Fin.ofNat 8 c.queue
      if c.fn ≠ 5 ∨ !c.posted ∨ bytes.length < 256 ∨ !s.homeOpen (.lm c.dt 0) then s
      else match c.flight with
        | [] => s
        | u :: _ =>
          if c.flight.any (fun v => decide (v.pos < u.pos + 256) && !s.crossed (.seg key v.tgt v.pos)) then s else
          let rest := c.flight.filter (fun v => decide (u.pos + 256 ≤ v.pos))
          let c := { c with flight := rest }
          if bytes.any (·.2) then
            let c := { c.failAt cPOISON u.src u.pos with flight := [], bad := c.entryPoison u.pos bytes }
            { s with copies := tabSet s.copies key c }
          else if 4 ≤ (s.tile c.dt).occupied q ∨ (s.tile c.dt).readerHalted q then s
          else
            let x : Vec := BitVec.ofNat 2048 (leNat (bytes.map (·.1)))
            (s.pushEngine c.dt q x).credit key c { u with bytes := bytes, tgt := 0, data := false })

/-- R320, R325, R342. A copy ends once its bytes are delivered, or as far as they can be, and are durable: its
undelivered bytes leave P and its records are written, or its failure aborts the issuer. -/
def execCopyEnd (key : Nat) (s : State) : Out State :=
  .next (match tabFind s.copies key with
    | none => s
    | some c =>
      let drained := if c.fn = 5 then decide (((c.flight.map (·.bytes)).flatten).length < 256) else c.flight.isEmpty
      if c.posted && drained && (c.fail.isSome || decide (c.length ≤ c.sent)) &&
          c.kept.all (fun x => epochBy x.2.1 (s.tile x.1).applied) &&
          c.credits.all (fun x => s.homeOpen (.lm x.dt 0))
      then s.endCopy key c else s)

end Sys2Proof.Machine
end

