-- ==== Sys2Proof/Machine/Service.lean ====
section
/-! DEFINITION. Service instructions (R366 to R371): major 0x3B. -/

namespace Sys2Proof.Machine

/-! ### Region declarations (R343, R344, R367, R368) -/

/-- Two regions of one space share a byte or a row. -/
def Region.overlaps (r : Region) (isLm : Bool) (base len : Nat) : Bool :=
  r.isLm == isLm && decide (r.base < base + len) && decide (base < r.base + r.len)

/-- R367, R368: a new id of a table of regions, or the code of its refusal for want of one or for an overlap. -/
def newRegion (l : List Region) (isLm : Bool) (base len : Nat) : Sum Nat Nat :=
  if 16 ≤ l.length then .inr 1
  else if l.any (fun r => r.overlaps isLm base len) then .inr 3
  else .inl (((List.range 16).find? (fun i => !l.any (fun r => r.id == i))).getD 0)

/-- R367, R368: a release of the region of a graph with a base: 0, or code 5 where there is none. -/
def releaseRegion (l : List Region) (isLm : Bool) (gid base : Nat) : List Region × Word :=
  let hit (r : Region) : Bool := r.gid == gid && r.isLm == isLm && r.base == base
  if l.any hit then (l.filter (fun r => !hit r), 0) else (l, errorCode 5)

/-- R367: ckdecl. -/
def declareMirror (d a b : BitVec 5) (s : State) : Res State := do
  let x := s.here
  let t := s.tile x.tile
  let wa := s.w a
  let wb := s.w b
  if wb = 0 then
    let r := releaseRegion t.mirrored true x.gid wa.toNat
    return (s.setTile x.tile { t with mirrored := r.1, dirty := true }).setW d r.2
  require (decide (wa.toNat % 64 = 0)) cBOUNDS wa
  require (decide (wb.toNat % 64 = 0) && decide (wb.toNat ≤ 0x20000)) cBOUNDS wb
  require (decide (Config.generalBase ≤ wa.toNat) && decide (wa.toNat + wb.toNat ≤ Config.lmSize)) cBOUNDS wa
  match t.mirrored.find? (fun r => r.base == wa.toNat && r.len == wb.toNat) with
  | some r => return s.setW d (BitVec.ofNat 64 r.id)
  | none =>
    match newRegion t.mirrored true wa.toNat wb.toNat with
    | .inr 1 => return s.setW d (errorCode 1)
    | res =>
      if 0x20000 < (t.mirrored.map (·.len)).sum + wb.toNat then return s.setW d (errorCode 2)
      else match res with
        | .inr c => return s.setW d (errorCode c)
        | .inl i =>
          let r : Region := ⟨i, x.gid, true, wa.toNat, wb.toNat, 0, x.asid⟩
          return (s.setTile x.tile { t with mirrored := t.mirrored ++ [r], dirty := true }).setW d (BitVec.ofNat 64 i)

/-- R368: the region that wa names: its space, base, length and the bytes its source has; BOUNDS where wa or wb is out
of order. A length of 0 releases, its source unread. -/
def sourceRegion (wa wb : Word) : Res (Bool × Nat × Nat × Nat) := do
  if wa.getLsbD 63 then
    let off := (wa.extractLsb' 0 22).toNat
    let n := 64 * (wa.extractLsb' 22 18).toNat
    require (wa.extractLsb' 40 23 == 0 && off % 64 == 0) cBOUNDS wa
    if n = 0 then return (true, off, 0, 0)
    require (decide (Config.generalBase ≤ off) && decide (off + n ≤ Config.lmSize)) cBOUNDS wa
    require (wb.toNat % 64 == 0) cBOUNDS wb
    return (true, off, n, n)
  else
    let row := (wa.extractLsb' 0 16).toNat
    let n := (wa.extractLsb' 16 17).toNat
    require (wa.extractLsb' 33 30 == 0) cBOUNDS wa
    if n = 0 then return (false, row, 0, 0)
    require (decide (row + n ≤ 65536)) cBOUNDS wa
    require (wb.toNat % 128 == 0) cBOUNDS wb
    return (false, row, n, 128 * n)

/-- R368: srcdecl. -/
def declareSource (d a b : BitVec 5) (s : State) : Res State := do
  let x := s.here
  let wb := s.w b
  let (isLm, base, len, bytes) ← sourceRegion (s.w a) wb
  if len = 0 then
    let t := s.tile x.tile
    let r := releaseRegion t.sourced isLm x.gid base
    return (s.setTile x.tile { t with sourced := r.1, dirty := true }).setW d r.2
  require (decide (wb.toNat < 2 ^ 56)) cNONCANON wb
  require (decide (wb.toNat + bytes ≤ 2 ^ 56)) cNONCANON (BitVec.ofNat 64 (2 ^ 56))
  let s ← leasePages false 16385 wb.toNat (wb.toNat + bytes) s
  let t := s.tile x.tile
  match t.sourced.find? (fun r => r.isLm == isLm && r.base == base && r.len == len && r.src == wb.toNat) with
  | some r => return s.setW d (BitVec.ofNat 64 r.id)
  | none =>
    match newRegion t.sourced isLm base len with
    | .inr c => return s.setW d (errorCode c)
    | .inl i =>
      let r : Region := ⟨i, x.gid, isLm, base, len, wb.toNat, x.asid⟩
      return (s.setTile x.tile { t with sourced := t.sourced ++ [r], dirty := true }).setW d (BitVec.ofNat 64 i)

/-- R367. Declares or releases a mirrored region. -/
def execCkdecl (d a b : BitVec 5) (s : State) : Out State :=
  plainInstr [a.toNat, b.toNat] [d.toNat] (onTile (declareMirror d a b)) s

/-- R368. Declares or releases a sourced region. -/
def execSrcdecl (d a b : BitVec 5) (s : State) : Out State :=
  plainInstr [a.toNat, b.toNat] [d.toNat] (onTile (declareSource d a b)) s

/-! ### Signature, ageing, power, rotation (R369 to R371) -/

/-- R369: sgadd. -/
def addSignature (a : BitVec 5) (s : State) : Res State := do
  nodeOnly s
  return s.fold (0x06 :: leBytes 8 (s.w a).toNat)

/-- R369. Folds a value into the screening signature. -/
def execSgadd (a : BitVec 5) (s : State) : Out State := plainInstr [a.toNat] [] (addSignature a) s

/-- R369: sgqry. -/
def querySignature (d : BitVec 5) (s : State) : Res State := do
  nodeOnly s
  return s.setW d s.here.sig

/-- R369. Reads the screening signature. -/
def execSgqry (d : BitVec 5) (s : State) : Out State := plainInstr [] [d.toNat] (querySignature d) s

/-- R370: the item that wa indexes, read into wd; BOUNDS from index 32. -/
def readItem (d a : BitVec 5) (item : State → Nat → Word) (s : State) : Res State := do
  nodeOnly s
  let i := s.w a
  require (decide (i.toNat < 32)) cBOUNDS i
  return s.setW d (item s i.toNat)

/-- R357: ageing counter i of a PT; those from 23 on read 0. -/
def State.ageing (s : State) (pt i : Nat) : Word := if i < 23 then (tabFind (s.pt pt).ageing i).getD 0 else 0

/-- R370. Reads an ageing counter. -/
def execAgerd (d a : BitVec 5) (s : State) : Out State :=
  plainInstr [a.toNat] [d.toNat] (readItem d a (fun s i => s.ageing (s.ptKey s.here.tile) i)) s

/-- R429: the brake applies. -/
def Panel.brake (p : Panel) : Bool := p.swbrake || (p.brkpin && p.pinen)

/-- R370: a power item. -/
def State.powerItem (s : State) (i : Nat) : Word :=
  let t := s.tile s.here.tile
  match i with
  | 0 => BitVec.ofInt 64 t.reserve
  | 1 => t.grant.setWidth 64
  | 2 => t.low.setWidth 64
  | 3 => t.high.setWidth 64
  | 4 => t.throttle.setWidth 64
  | 5 => t.power0
  | 6 => t.power1
  | 7 => if (s.panel (s.here.dt / 4096)).brake then 1 else 0
  | _ => 0

/-- R370. Reads a power item. -/
def execPwrrd (d a : BitVec 5) (s : State) : Out State :=
  plainInstr [a.toNat] [d.toNat] (readItem d a State.powerItem) s

/-- R371: pwrw. -/
def writePower (a b : BitVec 5) (s : State) : Res State := do
  let i := s.w a
  require (i == 4) cPERM i
  return s.setTile s.here.tile { s.tile s.here.tile with throttle := (s.w b).setWidth 4 }

/-- R371. Writes the tile's throttle. -/
def execPwrw (a b : BitVec 5) (s : State) : Out State :=
  plainInstr [a.toNat, b.toNat] [] (onTile (writePower a b)) s

/-- R370: a rotation item. -/
def State.rotationItem (s : State) (i : Nat) : Word :=
  let t := s.tile s.here.dt
  match i with
  | 0 => (s.mapGenOf s.here.dt).setWidth 64
  | 1 => BitVec.ofNat 64 (s.ptKey s.here.tile % 4096)
  | 2 => if t.draining then 1 else 0
  | 3 => t.partner.setWidth 64
  | 4 => t.acked.setWidth 64
  | 5 => BitVec.ofNat 64 t.rotations
  | _ => 0

/-- R370. Reads a rotation item. -/
def execRtqry (d a : BitVec 5) (s : State) : Out State :=
  plainInstr [a.toNat] [d.toNat] (readItem d a State.rotationItem) s

end Sys2Proof.Machine
end

