-- ==== Sys2Proof/Machine/Graph.lean ====
section
/-! DEFINITION. The graph engine (R199 to R228, R236, R326, R339 to R342, R350) and the other local events of a tile:
choosing and starting activations, tokens, commits, epochs, completion, retry, budgets, trap records, counters. -/

namespace Sys2Proof.Machine

/-! ### Starting an activation (R99, R104, R223, R351) -/

/-- R223: bytes of the area of a node. -/
def Node.areaBytes (n : Node) : Nat := Config.areaSize + 512 * n.wsclass.toNat

/-- R223, R404: ranges of a tile's general region that no workspace area may meet: the graph heap, the areas of its
activations, the LM regions of live graphs. -/
def State.takenRanges (s : State) (dt : Nat) : List (Nat × Nat) :=
  let t := s.tile dt
  (t.heapBase, t.heapLim - t.heapBase) ::
    (s.acts.filter (fun e => !e.2.fw && e.2.tile == dt && e.2.area != 0)).map (fun e => (e.2.wp, e.2.area)) ++
    ((s.graphs.map (fun g => g.2.regions.filter (fun r => r.1 == dt))).flatten).map (·.2)

/-- R223: the place of an area of a tile: the first that is free, 512-byte aligned (log 13). -/
def State.areaPlace (s : State) (dt len : Nat) : Option Nat :=
  let taken := s.takenRanges dt
  let up (x : Nat) : Nat := (x + 511) / 512 * 512
  let ok (b : Nat) : Bool :=
    decide (Config.generalBase ≤ b) && decide (b + len ≤ Config.lmSize) &&
      taken.all (fun r => r.2 == 0 || decide (b + len ≤ r.1) || decide (r.1 + r.2 ≤ b))
  (up Config.generalBase :: taken.map (fun r => up (r.1 + r.2))).find? ok

/-- R104: the identity registers as an activation latches them. -/
def identityOf (dt i : Nat) (n : Node) (stg : Bool) : Vector Word 32 :=
  Vector.ofFn (fun j : Fin 32 => match j.val with
    | 0 => BitVec.ofNat 64 dt
    | 1 => nodeRef dt i n
    | 2 => n.gen.setWidth 64
    | 3 => n.gid.setWidth 64
    | 12 => n.inbox.setWidth 64
    | 13 => BitVec.ofNat 64 (64 * n.inboxsz.toNat)
    | 14 => n.cwin.setWidth 64
    | 15 => BitVec.ofNat 64 (64 * n.cwlen.toNat)
    | 16 => ((BitVec.ofBool n.abs ++ (0 : BitVec 7) ++ n.attempt : BitVec 16)).setWidth 64
    | 17 => n.user
    | 18 => if stg then 1 else 0
    | k =>
      if k < 4 ∨ 12 ≤ k then 0
      else if k < 8 then (n.org.extractLsb' (16 * (k - 4)) 16).setWidth 64
      else (n.ext.extractLsb' (16 * (k - 8)) 16).setWidth 64)

/-- R248: the rounding stream at a start. -/
def seedOf (nref user : Word) : BitVec 32 :=
  let x := nref.setWidth 32 ^^^ user.setWidth 32
  if x = 0 then 1 else x

/-- R67: the budget of an exponent. -/
def budgetOf (b : BitVec 5) : Nat := 2 ^ (10 + b.toNat)

/-- R65, R99, R104, R223: a fresh activation of a node. -/
def newAct (dt i : Nat) (n : Node) (stg : Bool) (wp : Nat) (g : Graph) : Act :=
  { Act.zero with
    dt := dt
    index := i
    tile := dt
    stg := stg
    wp := wp
    area := n.areaBytes
    pc := evenPc (n.entry.setWidth 64)
    status := { Status.zero with urg := n.urg, core := stg }
    nref := nodeRef dt i n
    leasePtr := BitVec.ofNat 64 (wp + Config.wsSize)
    ident := identityOf dt i n stg
    nsucc := n.nsucc.toNat
    screen := n.screen
    seed := seedOf (nodeRef dt i n) n.user
    budget := budgetOf n.budget
    asid := g.asid
    key := g.key
    gid := n.gid.toNat }

/-- R99, R150, R223: an area taken: the workspace and the lease table of a start zeroed. -/
def Tile.clearArea (t : Tile) (wp len : Nat) : Tile :=
  let apart (a : Nat) : Bool := decide (a < wp) || decide (wp + Config.wsSize + 128 ≤ a)
  { t with
    vacant := cutRanges t.vacant wp len
    lm := t.lm.filter (fun e => apart e.1)
    lmPoison := t.lmPoison.filter (fun w => apart (8 * w)) }

/-- The key of the replica of a node on a tile of the Replica role. -/
def replicaKey (tile i : Nat) : Nat := 2 ^ 29 + (tile - Config.replicaBase) * 4096 + i

/-- The activations of a core that hold a place there, with their keys. -/
def State.coreActs (s : State) (dt : Nat) (stg : Bool) : List (Nat × Act) :=
  s.acts.filter (fun e => !e.2.fw && e.2.tile == dt && e.2.stg == stg && e.2.place != .committing && e.2.place != .stopped)

/-- R78: a normal activation of the core has a window open. -/
def State.windowOpen (s : State) (dt : Nat) (stg : Bool) : Bool :=
  (s.coreActs dt stg).any (fun e => !e.2.status.urg && e.2.status.mw)

/-- R24, R79: a core has room for one more urgent activation: fewer than 2 of it are live. -/
def State.urgentRoom (s : State) (dt : Nat) (stg : Bool) : Bool :=
  decide (((s.coreActs dt stg).filter (fun e => e.2.status.urg)).length < 2)

/-- R24, R78, R351: a sampled firing starts on a Replica PT of its VT on its die too, where one has a free slot and no earlier
screen of the node (log 14), and, for an urgent firing, fewer than 2 urgent activations and no window open. -/
def State.startReplica (s : State) (k : Nat) : State :=
  let a := s.act k
  if !(a.screen && (s.tile a.dt).sampled.contains a.index) then s else
  match s.pts.find? (fun e => e.1 / 4096 == a.dt / 4096 && e.1 / 4096 * 64 + e.1 % 4096 / 80 == s.dieOf a.dt &&
      e.2.role == .replica (a.dt % 4096)) with
  | none => s
  | some e =>
    let tile := Config.replicaBase + e.1
    let r := replicaKey tile a.index
    match (s.core tile a.stg).freeSlot with
    | none => s
    | some n =>
      if (s.act? r).isSome || (a.status.urg && (!s.urgentRoom tile a.stg || s.windowOpen tile a.stg)) then s else
      let s := s.updAct k (fun a => { a with twin := some r })
      let s := s.setAct r { a with tile := tile, replica := true, twin := some k }
      let s := s.setTile tile ((s.tile tile).clearArea a.wp a.area)
      (s.putInSlot tile a.stg n r).acquire r

/-- R99, R170, R219, R223: node i starts in a slot of a core, with its area at wp. -/
def State.startNode (s : State) (dt i : Nat) (stg : Bool) (slot : BitVec 2) (wp : Nat) (g : Graph) : State :=
  let k := dt * 4096 + i
  let n := s.node dt i
  let s := s.setTile dt ((s.tile dt).clearArea wp n.areaBytes)
  let s := s.setAct k (newAct dt i n stg wp g)
  let s := (s.delist dt i).setNode dt i { n with state := stRunning }
  ((s.putInSlot dt stg slot k).acquire k).startReplica k

/-! ### Choosing it (R78 to R80, R219 to R222) -/

/-- R346, R396: a core gives its slots to activations: its VT is served by a tile that is not lost, and it is not halted. -/
def State.serving (s : State) (dt : Nat) (stg : Bool) : Bool :=
  (s.ptOf dt).isSome && !(s.tile dt).lost && !((s.tile dt).core stg).halted

/-- R331, R346, R396: a core starts activations: it serves, and its tile does not drain. -/
def State.starting (s : State) (dt : Nat) (stg : Bool) : Bool := s.serving dt stg && !(s.tile dt).draining

/-- R350: a restored node still awaits a restore item. -/
def State.awaitsRestore (s : State) (dt i : Nat) : Bool :=
  (s.tile dt).awaited.any (fun x => x.1 == i) ||
  s.msgs.any (fun m => m.dst == dt && (match m.body with | .restoreItem ref _ => (refSlot ref).2 == i | _ => false))

/-- R211, R220, R350: what a READY node starts with, its graph and its area, unless it may not start now. -/
def State.startWith (s : State) (dt i : Nat) : Option (Graph × Nat) :=
  let n := s.node dt i
  match tabFind s.graphs n.gid.toNat, s.areaPlace dt n.areaBytes with
  | some g, some wp => if g.halted || s.awaitsRestore dt i then none else some (g, wp)
  | _, _ => none

/-- R220: the cost of a start. -/
def Tile.startCost (t : Tile) (n : Node) : Nat :=
  if t.reserve < (64 * t.low.toNat : Nat) then 16 - n.weight.toNat else 1

/-- R220: the graph of the list after graph g's in creation order. -/
def nextList (lists : List ReadyList) (g : Nat) : Nat :=
  match (lists.dropWhile (fun l => l.gid != g)).drop 1 ++ lists with
  | [] => g
  | l :: _ => l.gid

/-- R220: the deficit round robin from the list of graph g on: the lists with their new deficits, the list that starts
its head, the node, its graph and its area. `fresh` says that the list receives the turn now. -/
def State.visit (s : State) (dt : Nat) : Nat → List ReadyList → Nat → Bool →
    Option (List ReadyList × Nat × Nat × Graph × Nat)
  | 0, _, _, _ => none
  | fuel + 1, lists, g, fresh =>
    match lists.find? (fun l => l.gid == g) with
    | none => none
    | some l =>
      match l.nodes with
      | [] => s.visit dt fuel lists (nextList lists g) true
      | i :: _ =>
        match s.startWith dt i with
        | none => s.visit dt fuel lists (nextList lists g) true
        | some (gr, wp) =>
          let deficit := if fresh then l.deficit + 16 * gr.prio else l.deficit
          let cost := (s.tile dt).startCost (s.node dt i)
          let put (d : Nat) : List ReadyList := lists.map (fun x => if x.gid == g then { x with deficit := d } else x)
          if cost ≤ deficit then some (put (deficit - cost), g, i, gr, wp)
          else s.visit dt fuel (put deficit) (nextList lists g) true

/-- R220: the normal node that a core starts next. -/
def State.chooseNormal (s : State) (dt : Nat) (stg : Bool) : Option (List ReadyList × Nat × Nat × Graph × Nat) :=
  let c := s.core dt stg
  let fuel := 2 * c.ready.length + 2
  match c.turn, c.ready with
  | some g, _ => s.visit dt fuel c.ready g c.due
  | none, l :: _ => s.visit dt fuel c.ready l.gid true
  | none, [] => none

/-- R79: the slot whose activation an urgent one displaces: the highest that holds a normal activation without the
matrix claim; a block of it stops between two of its instructions (R85). -/
def State.victim (s : State) (dt : Nat) (stg : Bool) : Option (BitVec 2 × Nat) :=
  let c := s.core dt stg
  ([3, 2, 1, 0] : List (Fin 4)).findSome? (fun n => match c.slots[n] with
    | some v =>
      let a := s.act v
      if !a.status.urg && (s.tile dt).claim != some v then some (BitVec.ofNat 2 n.val, v) else none
    | none => none)

/-- R79: a slot for the urgent activation of a key: a free one, or one whose activation it displaces. -/
def State.makeRoom (s : State) (dt : Nat) (stg : Bool) (k : Nat) : Option (BitVec 2 × State) :=
  match (s.core dt stg).freeSlot with
  | some n => some (n, s)
  | none =>
    match s.victim dt stg with
    | none => none
    | some (n, v) =>
      let s := (s.dropTags v).leaveSlot v
      let s := s.updAct v (fun a => { a with place := .displaced, dispBy := some k, status := { a.status with disp := true } })
      some (n, s.updCore dt stg (fun c => { c with displaced := c.displaced ++ [v] }))

/-- R80: an urgent activation that gave its slot back and is runnable again; of two, that of the lower key (DESIGN CHOICE,
log 97). -/
def State.urgentWaiting (s : State) (dt : Nat) (stg : Bool) : Option Nat :=
  ((s.coreActs dt stg).find? (fun e => e.2.place == .blockedUrgent && s.waitOver e.2)).map (·.1)

/-- R219, R220: the heads of a core's urgent lists, one of each graph, in firing order. -/
def State.urgentHeads (s : State) (dt : Nat) (stg : Bool) : List Nat :=
  let l := (s.core dt stg).urgent
  l.filter (fun i => l.find? (fun j => (s.node dt j).gid == (s.node dt i).gid) == some i)

/-- R24, R79, R220: the urgent node that starts next on a core, the urgent activations of the core being fewer than 2: the first
head of a list that can start. -/
def State.urgentNode (s : State) (dt : Nat) (stg : Bool) : Option (Nat × Graph × Nat) :=
  if !s.urgentRoom dt stg then none
  else (s.urgentHeads dt stg).findSome? (fun i => (s.startWith dt i).map (fun x => (i, x.1, x.2)))

/-- R79, R80, R331: one urgent activation of a core returns to a slot, in a drain too, or, with none to return, the next urgent
node starts (log 97). -/
def State.urgentStart (s : State) (dt : Nat) (stg : Bool) : Option State :=
  if !s.serving dt stg || s.windowOpen dt stg then none
  else match s.urgentWaiting dt stg with
    | some k => (s.makeRoom dt stg k).map (fun x => x.2.putInSlot dt stg x.1 k)
    | none =>
      if !s.starting dt stg then none
      else match s.urgentNode dt stg with
      | none => none
      | some (i, g, wp) =>
        (s.makeRoom dt stg (dt * 4096 + i)).map (fun x => x.2.startNode dt i stg x.1 wp g)

/-- R79. A ready urgent node starts, or an urgent activation that was blocked returns, in a free slot or one it
displaces. -/
def execUrgentStart (dt : Nat) (stg : Bool) (s : State) : Out State := .next ((s.urgentStart dt stg).getD s)

/-- R219, R220, R223: a normal node starts in a free slot, nothing else having a claim to it. -/
def State.normalStart (s : State) (dt : Nat) (stg : Bool) : State :=
  let c := s.core dt stg
  if !s.starting dt stg || !c.displaced.isEmpty || !c.resumed.isEmpty || (s.urgentStart dt stg).isSome then s
  else match c.freeSlot, s.chooseNormal dt stg with
    | some n, some (lists, g, i, gr, wp) =>
      (s.updCore dt stg (fun c => { c with ready := lists, turn := some g, due := false })).startNode dt i stg n wp gr
    | _, _ => s

/-- R223. A READY node starts in a free slot. -/
def execNodeStart (dt : Nat) (stg : Bool) (s : State) : Out State := .next (s.normalStart dt stg)

/-! ### Tokens (R217) -/

/-- R217: payload bytes written into a node's inbox; a payload past its end posts INBOX and writes nothing. -/
def State.writeInbox (s : State) (dt i off : Nat) (data : Vec) (ref sender : Word) : State :=
  let n := s.node dt i
  if off + 256 > 64 * n.inboxsz.toNat then s.postException n.gid.toNat 2 0 ref.toNat sender.toNat 0
  else s.perform 0 [(.lm dt (n.inbox.toNat + off), leBytes 256 data.toNat)]

/-- R217: Deliver. -/
def State.deliverToken (s : State) (ref : Word) (beads : Nat) (item : Item) (barrier : Bool) (origin : Nat)
    (sender : Word) : State :=
  let (dt, i) := refSlot ref
  let gid := (ref.extractLsb' 43 16).toNat
  if !refMatches ref (s.node dt i) then
    (s.postException gid 1 0 ref.toNat sender.toNat beads).returnBeads dt gid beads
  else
    let s := match item with
      | .payload off data => s.writeInbox dt i off data ref sender
      | _ => s
    let n := s.node dt i
    if n.state = stEmpty ∨ n.state = stArmed then
      if item = .cancel ∧ barrier = false then s.cancel dt i beads origin
      else if n.live - 1 < -65536 then
        (s.postException gid 4 0 ref.toNat sender.toNat beads).returnBeads dt gid beads
      else
        let s := (s.setNode dt i { n with live := n.live - 1 }).hold dt i beads
        let n := s.node dt i
        let s := if item = .cancel then s.setNode dt i { n with abs := true } else s
        if n.state = stArmed ∧ n.live ≤ 0 then s.fire dt i else s
    else if n.state = stCancelled then s.returnBeads dt gid beads
    else
      let s := if item = .cancel then s.dropCancel gid else s.setNode dt i { n with live := n.live - 1 }
      s.returnBeads dt gid beads

/-- R217. A token is delivered at its target slot. -/
def execToken (n : Nat) (s : State) : Out State :=
  .next (match s.takeMsg n with
    | some (m, t) =>
      match m.body with
      | .token ref beads item barrier origin sender =>
        if s.deliverable m then (t.deliverToken ref beads item barrier origin sender).markDurable m else s
      | _ => s
    | none => s)

/-- R350. A restore item writes its payload and no count; its consumer awaits one item less. -/
def execRestoreItem (n : Nat) (s : State) : Out State :=
  .next (match s.takeMsg n with
    | some (m, t) =>
      match m.body with
      | .restoreItem ref item =>
        if s.deliverable m then
          let (dt, i) := refSlot ref
          let t := match item with
            | .payload off data => if refMatches ref (t.node dt i) then t.writeInbox dt i off data ref 0 else t
            | _ => t
          let x := t.tile dt
          t.setTile dt { x with awaited := x.awaited.erase (i, m.src) }
        else s
      | _ => s
    | none => s)

/-! ### Completion records (R208, R423) -/

/-- R420: records of a ring of a LOG2 field: 4 to 16, other values acting as 16. -/
def ringSize (l : BitVec 4) : Nat := if l.toNat < 4 then 2 ^ 16 else 2 ^ l.toNat

/-- A submission queue of a panel. -/
def State.queue (s : State) (p q : Nat) : Queue := (tabFind (s.panel p).queues q).getD Queue.empty

/-- The state with another submission queue. -/
def State.setQueue (s : State) (p q : Nat) (x : Queue) : State :=
  let y := s.panel p
  s.setPanel p { y with queues := tabSet y.queues q x }

/-- R423: the completion ring has room. -/
def Queue.room (x : Queue) : Bool := decide ((x.cqtail - x.cqhead).toNat < ringSize x.cqlog2)

/-- R423: a completion record written, CQTAIL raised and the vector sent. The ring is reached under key id 0 (log 15). -/
def State.writeCompletion (s : State) (p q : Nat) (ws : List Word) : State :=
  let x := s.queue p q
  let pa := x.cqbase + 64 * (x.cqtail.toNat % ringSize x.cqlog2)
  let s := if s.backed p pa then s.performAt 0 pa (ws.map (fun w => leBytes 8 w.toNat)).flatten else s
  let s := s.setQueue p q { x with cqtail := x.cqtail + 1 }
  if x.msien then
    let y := s.panel p
    s.setPanel p { y with msis := y.msis ++ [x.msivec] }
  else s

/-- R423: a completion record of a queue written, or held while the ring is full. -/
def State.postCompletion (s : State) (p q : Nat) (ws : List Word) : State :=
  let x := s.queue p q
  if x.room && x.held.isEmpty then s.writeCompletion p q ws
  else s.setQueue p q { x with held := x.held ++ [ws] }

/-- R208: the words of a completion record. -/
def completionWords (status op gid : Nat) (tag total : Word) (g3 g4 : Nat) : List Word :=
  [BitVec.ofNat 64 (status + 256 * op + 65536 * gid), tag, total, BitVec.ofNat 64 g3, BitVec.ofNat 64 (g4 % 2 ^ 32), 0, 0, 0]

/-! ### Bead returns and graph completion (R208) -/

/-- R208: the final status of a graph. -/
def State.finalStatus (s : State) (g : Graph) : Nat :=
  if g.cancelled then 2 else if s.grec g 3 % 2 ^ 32 > 0 then 1 else 0

/-- R205, R208, R343: what a tile gives back when a graph completes. -/
def Tile.dropGraph (t : Tile) (gid : Nat) : Tile :=
  { t with
    heap := t.heap.filter (fun h => h.gid != gid)
    mirrored := t.mirrored.filter (fun r => r.gid != gid)
    sourced := t.sourced.filter (fun r => r.gid != gid)
    dirty := true }

/-- R208, R215: the slots, heap space and regions of a graph freed, and the graph with its id. -/
def State.freeGraph (s : State) (gid : Nat) (g : Graph) : State :=
  let s := g.slots.foldl (fun s e =>
    let n := s.node e.1 e.2
    s.setNode e.1 e.2 { n with state := stEmpty, gid := 0 }) s
  { s with
    tiles := s.tiles.map (fun e =>
      if e.2.heap.any (fun h => h.gid == gid) || (e.2.mirrored ++ e.2.sourced).any (fun r => r.gid == gid)
      then (e.1, e.2.dropGraph gid) else e)
    graphs := tabErase s.graphs gid }

/-- R208: a graph completes. -/
def State.completeGraph (s : State) (gid : Nat) (g : Graph) : State :=
  let status := s.finalStatus g
  let s := s.freeGraph gid g
  let s := s.setGrec g 2 (status + 65536 * gid)
  s.postCompletion g.panel g.queue
    (completionWords status 0 gid g.tag (BitVec.ofNat 64 (s.grec g 0)) (s.grec g 3) (s.grec g 4))

/-- R207, R208: b beads added to G1; the graph completes when all are back. -/
def State.addReturned (s : State) (gid b : Nat) : State :=
  match tabFind s.graphs gid with
  | none => s
  | some g =>
    let x := (s.grec g 1 + b) % 2 ^ 64
    let s := s.setGrec g 1 x
    if x = s.grec g 0 then s.completeGraph gid g else s

/-- R215: the state is one from which no slot goes to EMPTY as its graph completes. -/
def Node.busy (n : Node) : Bool :=
  n.state == stRunning || n.state == stParked || n.state == stCommitting || n.state == stFaulted

/-- R215: the return of b beads to a graph must wait: it would be the last, and a node of the graph runs, is parked, commits or is
FAULTED (log 89). -/
def State.returnHeld (s : State) (gid b : Nat) : Bool :=
  match tabFind s.graphs gid with
  | none => false
  | some g => decide ((s.grec g 1 + b) % 2 ^ 64 = s.grec g 0) &&
      g.slots.any (fun e => (s.node e.1 e.2).gid.toNat == gid && (s.node e.1 e.2).busy)

/-- R208. Returned beads reach the graph record's home. -/
def execBeadReturn (n : Nat) (s : State) : Out State :=
  .next (match s.takeMsg n with
    | some (m, t) =>
      match m.body with
      | .beadReturn gid b => if s.returnHeld gid b || !s.crossed (.msg m.id) then s else t.addReturned gid b
      | _ => s
    | none => s)

/-! ### Epochs (R340 to R342) -/

/-- A retention record of a tile made, its message not sent yet (R342). -/
def State.retain (s : State) (src dst : Nat) (b : Body) (issuer : Option Nat) : State :=
  let t := s.tile src
  let s := s.setTile src { t with retained := t.retained ++ [⟨s.nextId, dst, b, none, issuer, false, none⟩], dirty := true }
  { s with nextId := s.nextId + 1 }

/-- The message of a retention record put in flight. -/
def State.emit (s : State) (src : Nat) (r : Retained) : State :=
  let router := s.firstRouter src r.dst
  State.cross { s.updKept src false (fun l => l.map (fun x => if x.id = r.id then { x with sent := true } else x)) with
    msgs := s.msgs ++ [⟨r.dst, src, router, (s.pt router).mapGen, r.body, some r.id, r.id⟩] }
      (agentPanel src) (r.dst / 4096) r.dst (.msg r.id)

/-- R342: the node records as an epoch holds them: a node whose commit is part of it is DONE. -/
def State.recordedNodes (s : State) (dt : Nat) (no : BitVec 32) : List (Nat × Node) :=
  (s.tile dt).nodes.map (fun e =>
    match s.act? (dt * 4096 + e.1) with
    | some a => match a.commit with
      | .epoch m => if epochBy m no then (e.1, { e.2 with state := stDone }) else e
      | .sent => (e.1, { e.2 with state := stDone })
      | _ => e
    | none => e)

/-- R340: what the next epoch of a tile carries. -/
def State.snapshot (s : State) (dt : Nat) : Snapshot :=
  let t := s.tile dt
  { no := t.epochNext
    nodes := s.recordedNodes dt t.epochNext
    rods := t.rods
    bytes := ((t.mirrored.map (fun r => (List.range r.len).map (fun i => (r.base + i, s.lmByte dt (r.base + i))))).flatten).filter
      (fun e => e.2 != 0)
    poison := t.lmPoison.filter (fun w => t.mirrored.any (fun r => decide (r.base ≤ 8 * w) && decide (8 * w < r.base + r.len)))
    mirrored := t.mirrored
    sourced := t.sourced
    bindings := t.bindings
    retained := t.retained }

/-- R340: the next epoch of a tile is sent unless one is in flight. -/
def State.sendEpoch (s : State) (dt : Nat) : State :=
  let t := s.tile dt
  if t.inFlight.isSome || t.lost then s
  else s.setTile dt { t with inFlight := some (s.snapshot dt), epochNext := t.epochNext + 1, dirty := false }

/-- R340. A change that no epoch holds is sent in one. -/
def execEpochTimer (dt : Nat) (s : State) : Out State :=
  .next (if (s.tile dt).dirty && (s.ptOf dt).isSome then s.sendEpoch dt else s)

/-- The DT of a tile's checkpoint partner. -/
def State.partnerOf (s : State) (dt : Nat) : Nat := dt / 4096 * 4096 + (s.tile dt).partner.toNat

/-- R341. The partner applies an epoch it has wholly received. -/
def execEpochApply (dt : Nat) (s : State) : Out State :=
  .next (
    let t := s.tile dt
    match t.inFlight with
    | some e =>
      if t.applied = e.no || !s.homeOpen (.lm (s.partnerOf dt) 0) then s
      else s.setTile dt { t with mirror := some e, applied := e.no }
    | none => s)

/-! ### Commit (R224, R225, R342) -/

/-- R214: the policy of an edge of a node. -/
def edgePolicy (entry : Word) (n : Node) : Nat :=
  let p := (entry.extractLsb' 59 2).toNat
  if p = 3 then n.policy.toNat else p

/-- R350: the node of a slot was launched with its graph; any other is dynamic. -/
def State.launched (s : State) (dt i : Nat) : Bool :=
  s.graphs.any (fun g => (tabFind g.2.succs (dt * 4096 + i)).isSome)

/-- R214, R350: the policy of an edge of the node of a slot: every edge of a dynamic node is treated as RETAIN. -/
def State.policyOf (s : State) (dt i : Nat) (entry : Word) : Nat :=
  if s.launched dt i then edgePolicy entry (s.node dt i) else 0

/-- R350: the node is refired for a restore, so its commit sends no token. -/
def State.refired (s : State) (a : Act) : Bool := (s.tile a.dt).repro.any (fun x => x.1 == a.index)

/-- R217, R224: one outgoing item of a commit kept for its epoch; a stale entry posts STALE and its share goes back. -/
def State.keepItem (s : State) (k : Nat) (p : State × Nat) (x : (Nat × Item) × Nat) : State × Nat :=
  let a := s.act k
  let n := s.node a.dt a.index
  let entry := s.succEntry a.dt n x.1.1
  let sender := nodeRef a.dt a.index n
  let ref := BitVec.ofNat 64 (entry.toNat % 2 ^ 59)
  if entry.getLsbD 63 || !s.names (a.dt / 4096) (entry.extractLsb' 12 15).toNat then
    (p.1.postException a.gid 1 0 ref.toNat sender.toNat x.2, p.2 + x.2)
  else
    let origin := match tabFind s.graphs a.gid with | some g => if g.cancelled then 2 else 1 | none => 1
    (p.1.retain a.dt (refSlot ref).1 (.token ref x.2 x.1.2 (entry.getLsbD 62) origin sender) (some k), p.2)

/-- The item carries a payload. -/
def Item.isPayload : Item → Bool
  | .payload _ _ => true
  | _ => false

/-- R224: the outgoing items of an activation: cancel tokens under a host CANCEL. -/
def State.outgoing (s : State) (a : Act) : List (Nat × Item) :=
  let cancelled := match tabFind s.graphs a.gid with | some g => g.cancelled | none => false
  (List.range (s.node a.dt a.index).nsucc.toNat).map (fun e =>
    (e, if cancelled then .cancel else (tabFind a.items e).getD .plain))

/-- R224, R225, R342: the split done, the items, deferred rod adds and returned beads of a commit become part of the
next epoch, which is sent. -/
def State.commitItems (s : State) (k : Nat) : State :=
  let a := s.act k
  let n := s.node a.dt a.index
  let items := s.outgoing a
  let split := splitBeads n.beads items.length
  let (back, xs) := if s.refired a then (n.beads, []) else (split.2.1, items.zip split.2.2)
  let order := xs.filter (fun x => !x.1.2.isPayload) ++ xs.filter (fun x => x.1.2.isPayload)
  let (s', back) := order.foldl (State.keepItem s k) (s, back)
  let s' := a.rods.foldl (fun s r => s.retain a.dt r.dt (.rodAdd r.rod r.value) (some k)) s'
  let s' := if back = 0 then s' else s'.retain a.dt a.dt (.beadReturn a.gid back) (some k)
  let s' := s'.setNode a.dt a.index { n with beads := 0 }
  let e := (s'.tile a.dt).epochNext
  (s'.updAct k (fun a => { a with commit := .epoch e })).sendEpoch a.dt

/-- R354: the signature with the items of `nend` folded. -/
def Act.finalSig (a : Act) : Word :=
  if !a.screen then a.sig else
  ((List.range a.nsucc).map (fun e =>
    0x07 :: leBytes 8 e ++ (match (tabFind a.items e).getD .plain with
      | .plain => [0]
      | .payload off data => 1 :: leBytes 8 off ++ leBytes 256 data.toNat
      | .cancel => [2]))).flatten.foldl foldByte a.sig

/-- R355: the replica of an original that has reached `nend` keeps the original's signature and PT. -/
def State.leaveTwin (s : State) (k : Nat) : State :=
  let a := s.act k
  match a.twin with
  | none => s
  | some r =>
    let s := s.updAct r (fun b => { b with mate := some (a.finalSig, s.ptKey a.dt), twin := none })
    s.updAct k (fun b => { b with twin := none })

/-- R224: the release of a commit is done: its items are prepared, after a borrow where it holds fewer beads. -/
def State.beginCommit (s : State) (k : Nat) : State :=
  let s := s.leaveTwin k
  let a := s.act k
  let n := s.node a.dt a.index
  if (splitBeads n.beads n.nsucc.toNat).1 && !s.refired a then s.updAct k (fun a => { a with commit := .borrow })
  else s.commitItems k

/-- R225. A borrow acknowledged: G0 and the beads held rise by 2^32, and the commit goes on. -/
def execBorrow (key : Nat) (s : State) : Out State :=
  .next (match s.act? key with
    | some a =>
      if a.commit = .borrow then
        let s := match tabFind s.graphs a.gid with
          | some g => s.setGrec g 0 ((s.grec g 0 + 2 ^ 32) % 2 ^ 64)
          | none => s
        let n := s.node a.dt a.index
        (s.setNode a.dt a.index { n with beads := n.beads + 2 ^ 32 }).commitItems key
      else s
    | none => s)

/-- R133, R169, R177: a commit-deferred add of the committing activation performed, or its exception posted. It follows the
commit's release, so that every access of the activation is performed whatever the scope. At commit only poison and workspaces
refuse it: one into a live lease table is performed (log 80). -/
def State.performAdd (s : State) (k : Nat) (d : DeferredAdd) : State :=
  let a := s.act k
  let n := if d.wide then 8 else 4
  let h := d.home
  let refuse (cause : BitVec 8) : State :=
    s.postException a.gid 3 cause.toNat a.nref.toNat d.addr.toNat 0
  let foreign := match h with
    | .lm dt off => (List.range n).any (fun i => match s.wsAt dt (off + i) with | some (j, _) => j != k | none => false)
    | .phys _ => false
  if (List.range n).any (s.poisoned h) then refuse cPOISON
  else if foreign then refuse cWSREMOTE
  else
    let bs := leBytes n ((s.homeRead d.key h n + d.value.toNat) % 2 ^ (8 * n))
    let s := s.perform d.key [(h, bs)]
    match h with
    | .phys pa =>
      (if d.bridge then s.holdHostLine (a.dt / 4096) pa else s).writeThrough (some (a.tile, a.stg)) (BitVec.ofNat 8 d.key) pa bs
    | .lm _ _ => s

/-- The retention record holds a token, or a remote rod add. -/
def Retained.isToken (r : Retained) : Bool := match r.body with | .token _ _ _ _ _ _ => true | _ => false
/-- The retention record holds a remote rod add. -/
def Retained.isRod (r : Retained) : Bool := r.body.isRod

/-- R350: the restore items of a refired producer, along its REPRODUCE edges into the restored VTs. -/
def State.sendRestoreItems (s : State) (k : Nat) : State :=
  let a := s.act k
  let n := s.node a.dt a.index
  (List.range n.nsucc.toNat).foldl (fun s e =>
    let entry := s.succEntry a.dt n e
    let dst := (entry.extractLsb' 12 15).toNat
    if s.policyOf a.dt a.index entry = 2 ∧ (a.index, dst) ∈ (s.tile a.dt).repro then
      s.send a.dt dst (.restoreItem (BitVec.ofNat 64 (entry.toNat % 2 ^ 59)) ((tabFind a.items e).getD .plain)) false none
    else s) s

/-- R355: a commit noted in the ring of the PT that made it. -/
def Pt.noteCommit (p : Pt) (ref : Word) : Pt :=
  if p.commits.length < 1024 then { p with commits := p.commits ++ [ref] }
  else { p with commits := p.commits.drop 1 ++ [ref], overflow := true }

/-- The retention records of an activation. -/
def State.recordsOf (s : State) (k : Nat) : List Retained := (s.tile (s.act k).dt).retained.filter (fun r => r.issuer == some k)

/-- R170, R224 step 4: the epoch of a commit acknowledged, its tokens leave; its deferred adds are still to be performed. -/
def State.sendTokens (s : State) (k : Nat) : State :=
  let dt := (s.act k).dt
  ((s.recordsOf k).filter (fun r => r.isToken && !r.sent)).foldl (fun s r => s.emit dt r)
    (s.updAct k (fun a => { a with commit := .sent }))

/-- R424: the deferred adds of a commit to homes of other panels cross the fabric. -/
def State.crossAdds (s : State) (k : Nat) : State :=
  let a := s.act k
  ((List.range a.adds.length).zip a.adds).foldl (fun s d => match d.2.home.hop with
    | some h => s.cross (agentPanel a.dt) h.1 h.2 (.add k (a.adds.length - d.1))
    | none => s) s

/-- R224 steps 5 to 7: the deferred adds of a commit performed, its rod adds leave, its returns are made and the node is
DONE. -/
def State.finishCommit (s : State) (k : Nat) : State :=
  let a := s.act k
  let mine := s.recordsOf k
  let s := (mine.filter (fun r => r.isRod && !r.sent)).foldl (fun s r => s.emit a.dt r) s
  let s := mine.foldl (fun s r => match r.body with
    | .beadReturn gid b => s.returnBeads a.dt gid b
    | _ => s) s
  let s := s.sendRestoreItems k
  let t := s.tile a.dt
  let s := s.setTile a.dt { t with
    retained := (t.retained.filter (fun r => !(r.issuer == some k && !r.isToken && !r.isRod))).map
      (fun r => if r.issuer = some k then { r with issuer := none } else r)
    repro := t.repro.filter (fun x => x.1 != a.index)
    dirty := true }
  let s := ((s.endLeases k).leaveSlot k).freeAct k
  let s := s.setNode a.dt a.index { s.node a.dt a.index with state := stDone }
  let p := s.ptKey a.dt
  s.setPt p ((s.pt p).noteCommit a.nref)

/-- R159, R170, R177, R224 step 5: the next deferred add of a commit performed once it has reached its home (R424), which
takes it, and its core's L1 shows no other store there; after the last the commit finishes. -/
def State.nextAdd (s : State) (k : Nat) : State :=
  match (s.act k).adds with
  | [] => s.finishCommit k
  | d :: rest =>
    if s.homeOpen d.home && s.crossed (.add k (rest.length + 1)) &&
      !s.shownAt (some ((s.act k).tile, (s.act k).stg)) d.home (if d.wide then 8 else 4)
    then (s.performAdd k d).updAct k (fun a => { a with adds := rest }) else s

/-- R224. The release of an ended activation performed and acknowledged, its items and bead split are prepared; once its
tokens have left, its deferred adds are performed one by one. -/
def execCommit (key : Nat) (s : State) : Out State :=
  .next (match s.act? key with
    | some a =>
      if a.place = .committing ∧ a.replica = false ∧ s.homeOpen (.lm a.dt 0) = true then
        match a.commit with
        | .release => if s.pendingWork key then s else s.beginCommit key
        | .sent => s.nextAdd key
        | _ => s
      else s
    | none => s)

/-- R341. The partner's acknowledgement of an epoch lets the tokens of the commits it holds leave. -/
def execEpochAck (dt : Nat) (s : State) : Out State :=
  .next (
    let t := s.tile dt
    match t.inFlight with
    | some e =>
      let ended := s.acts.filter (fun x => x.2.dt == dt && !x.2.fw && !x.2.replica && (match x.2.commit with
        | .epoch m => epochBy m e.no
        | _ => false))
      if t.applied ≠ e.no || t.lost || !s.homeOpen (.lm dt 0) then s
      else
        let s := s.setTile dt { t with acked := e.no, inFlight := none }
        ended.foldl (fun s x => (s.sendTokens x.1).crossAdds x.1) s
    | none => s)

/-! ### Durability (R342) -/

/-- R342, R350: the payload of a token on a RETAIN edge is kept until its consumer has ended. -/
def State.keepsPayload (s : State) (src : Nat) (r : Retained) : Option Body :=
  match r.body with
  | .token ref _ item _ _ sender =>
    let n := s.node src (refSlot sender).2
    let edges := (List.range n.nsucc.toNat).map (s.succEntry src n)
    match edges.find? (fun e => e.toNat % 2 ^ 59 == ref.toNat) with
    | some e => if item.isPayload && s.policyOf src (refSlot sender).2 e == 0 then some (.restoreItem ref item) else none
    | none => none
  | _ => none

/-- R342: the consumer of a kept payload has committed, or is cancelled or no longer bound. -/
def State.payloadSpent (s : State) (r : Retained) : Bool :=
  match r.body with
  | .restoreItem ref _ =>
    let n := s.node (refSlot ref).1 (refSlot ref).2
    !refMatches ref n || n.state == stDone || n.state == stCancelled || n.state == stEmpty
  | _ => false

/-- R342: the sender that keeps the retention record of an id. -/
def State.keeperOf (s : State) (n : Nat) : Option Nat :=
  match s.tiles.find? (fun e => e.2.retained.any (fun r => r.id == n)) with
  | some e => some e.1
  | none => (s.fws.find? (fun e => e.2.retained.any (fun r => r.id == n))).map (fun e => Config.fwKey + e.1)

/-- R342. A durability acknowledgement frees the retention record of an id. -/
def execDurableAck (n : Nat) (s : State) : Out State :=
  .next (match s.keeperOf n with
    | none => s
    | some src =>
      match (s.kept src).find? (fun r => r.id == n) with
      | none => s
      | some r =>
        let drop := s.updKept src true (fun l => l.filter (fun x => x.id != n))
        match r.epoch with
        | some e =>
          if epochBy e (s.tile r.dst).applied then
            match s.keepsPayload src r with
            | some b => s.updKept src true (fun l => l.map (fun x =>
                if x.id = n then { x with body := b, epoch := none, issuer := none } else x))
            | none => drop
          else s
        | none => if s.payloadSpent r then drop else s)

/-! ### Retry, budget, trap records, counters -/

/-- R226, R326. A FAULTED node returns to READY, or is cancelled, once every copy of its aborted attempt has ended. -/
def execNodeRetry (key : Nat) (s : State) : Out State :=
  .next (
    let dt := key / 4096
    let i := key % 4096
    let n := s.node dt i
    let cancelled := match tabFind s.graphs n.gid.toNat with | some g => g.cancelled | none => false
    let t := s.tile dt
    if n.state ≠ stFaulted || !s.homeOpen (.lm dt 0) || s.copying dt i then s
    else match tabFind t.fates i with
    | some (cause, value, pc) =>
      (s.setTile dt { t with fates := t.fates.filter (fun f => f.1 != i) }).cancelRoot dt i cause value pc
    | none =>
    if cancelled then s.cancel dt i 0 2
    else (s.setNode dt i { n with state := stReady, attempt := n.attempt + 1 }).enlist dt i)

/-- R67: the cycle counts toward the budget of an activation: it is RUNNING and not displaced. -/
def Act.counts (a : Act) : Bool :=
  match a.place with
  | .slot _ => true
  | .blockedUrgent => true
  | .resumed => true
  | _ => false

/-- R67: the budget of the activation is reached. -/
def Act.spent (a : Act) : Bool := !a.fw && decide (a.budget ≤ a.used)

/-- R67: the header PC of an activation that its budget stops names the next instruction that would have issued: one that
waits has issued already, unless it is to be tried again. With a repetition block in progress it is the issue port's next
instruction, not the block's word at REPPOS (DESIGN CHOICE, log 53). -/
def Act.nextPc (a : Act) : Word := if a.wait = .none ∨ a.wait.retries then a.pc else a.pc + 4

/-- R67: the budget of an activation is overrun: the fault BUDGET. -/
def State.overrun (s : State) (k : Nat) : State := (s.updAct k (fun a => { a with pc := a.nextPc })).takeTrap k (trapOf cBUDGET 0)

/-- R67, R396. The cycle count of an activation has reached its budget; a halted core keeps its activations as they are. -/
def execBudgetExpiry (key : Nat) (s : State) : Out State :=
  .next (match s.act? key with
    | some a => if a.counts && a.spent && !(s.core a.tile a.stg).halted then s.overrun key else s
    | none => s)

/-- R377: records of a firmware core's trap ring. -/
def FwCore.ringLen (f : FwCore) : Nat := 2 ^ min f.log2n.toNat 10

/-- R380. A trap message is written into a firmware core's trap ring, which has room, unless the core is halted
(R396); where the ring lies over the context's workspace, into its registers (R98). -/
def execTrapMessage (n : Nat) (s : State) : Out State :=
  .next (match s.takeMsg n with
    | some (m, t) =>
      match m.body with
      | .trap t0 t1 t2 t3 =>
        let f := s.fwCore m.dst
        if f.halted || !decide ((f.put - f.get).toNat < f.ringLen) then s
        else
          let off := (f.trapbase.toNat + 32 * (f.put.toNat % f.ringLen)) % Config.fwSize
          let bytes := ([t0, t1, t2, t3].map (fun w => leBytes 8 w.toNat)).flatten
          let u := t.perform 0 [(.phys (fwBase m.dst + off), bytes)]
          u.setFw m.dst { u.fwCore m.dst with put := f.put + 1 }
      | _ => s
    | none => s)

/-- R370, R377: the value of a bound counter of a tile: PERF n summed over its cores, or a power counter. -/
def Tile.counter (t : Tile) (x : Source) : Option (Word × Word) :=
  match x with
  | .perf n thr => some (((t.comp.perf.toList ++ t.stag.perf.toList).zip (List.range 16)).foldl
      (fun s e => if e.2 % 8 = n then s + e.1 else s) 0, thr)
  | .power n thr => some (if n = 0 then t.power0 else t.power1, thr)
  | .watch _ _ _ _ => none

/-- R236. A bound counter has reached its threshold: its token is sent and the binding ends. -/
def execCounterEvent (dt b : Nat) (s : State) : Out State :=
  .next (
    let t := s.tile dt
    match t.bindings.find? (fun x => x.index == b) with
    | none => s
    | some x =>
      match t.counter x.source with
      | some (v, thr) =>
        if thr.toNat ≤ v.toNat && !t.lost then
          (s.setTile dt { t with bindings := t.bindings.filter (fun y => y.index != b), dirty := true }).send dt
            (refSlot x.target).1 (bindingToken x .plain 0) true none
        else s
      | none => s)

end Sys2Proof.Machine
end

