-- ==== Sys2Proof/Machine/Rotation.lean ====
section
/-! DEFINITION. Roles, rotation and its map generations (R328 to R338), sudden loss and restore (R346 to R350),
screening, self-test and probes (R351 to R359), and the power quanta of a tile (R360 to R362). -/

namespace Sys2Proof.Machine

/-! ### Field log, roles and tests (R328, R356, R357, R433) -/

/-- R433: events of a field-log entry, by the model's numbers (log 16). -/
def evRetired : Nat := 0
/-- R433. -/
def evTestFailed : Nat := 1
/-- R433. -/
def evMismatch : Nat := 2
/-- R433. -/
def evExcluded : Nat := 3

/-- R433: an entry of the field log; in a full log the oldest entry of another kind than retirement gives way. -/
def State.logField (s : State) (ptk event : Nat) : State :=
  let p := ptk / 4096
  let x := s.panel p
  let full := decide (4096 ≤ x.fieldLog.length)
  let kept := if full then
      x.fieldLog.takeWhile (fun e => e.2.1 == evRetired) ++ (x.fieldLog.dropWhile (fun e => e.2.1 == evRetired)).drop 1
    else x.fieldLog
  s.setPanel p { x with fieldLog := kept ++ [(ptk % 4096, event, x.boots, (s.pt ptk).ageing)] }

/-- R357: a local cycle of a PT in a stress bin: 2^24 of them raise the bin's counter. -/
def Pt.age (p : Pt) (bin : Fin 16) : Pt :=
  let n := (tabFind p.stress bin.val).getD 0 + 1
  if n < 2 ^ 24 then { p with stress := tabSet p.stress bin.val n }
  else { p with
    stress := tabSet p.stress bin.val 0
    ageing := tabSet p.ageing bin.val ((tabFind p.ageing bin.val).getD 0 + 1) }

/-- R357: an ageing counter of a PT raised. -/
def Pt.raiseAgeing (p : Pt) (i : Nat) : Pt := { p with ageing := tabSet p.ageing i ((tabFind p.ageing i).getD 0 + 1) }

/-- R328, R346, R433: a PT retired for good. -/
def State.retire (s : State) (ptk : Nat) : State :=
  (s.setPt ptk { s.pt ptk with role := .retired, probe := false, testDue := false }).logField ptk evRetired

/-- R353: every replica that runs on a tile, or for activations of a VT that have not committed, abandons its screen. -/
def State.abandonAll (s : State) (f : Act → Bool) : State :=
  (s.acts.filter (fun e => e.2.replica && f e.2)).foldl (fun s e => s.abandon e.1) s

/-- A PT leaves the Replica role: its screens are abandoned and its tile is empty. -/
def State.endReplica (s : State) (ptk : Nat) : State :=
  let tile := Config.replicaBase + ptk
  let s := s.abandonAll (fun a => a.tile == tile)
  { s with tiles := tabErase s.tiles tile }

/-- The die of a PT, as its key in the table of dies. -/
def ptDie (ptk : Nat) : Nat := ptk / 4096 * 64 + ptk % 4096 / 80

/-- R328, R330: the PT is the incoming one of a rotation that has not remapped, which keeps it Spare until then. -/
def State.reserved (s : State) (ptk : Nat) : Bool :=
  let d := s.die (ptDie ptk)
  (d.phase == .draining || d.phase == .copying) && d.inPt == ptk % 4096

/-- R329: the writable fields of ROTCMD. -/
def rotMask : Word := 0x1F1FFF0FFF
/-- R329: the status field of ROTCMD set. -/
def Die.setRotStatus (d : Die) (x : Word) : Die := { d with rotcmd := (d.rotcmd &&& rotMask) ||| (x <<< 40) }

/-- R331: the drain of a VT begins. -/
def State.beginRotation (s : State) (k out inn dt : Nat) (emerg : Bool) : State :=
  let s := s.setDie k { (s.die k).setRotStatus 1 with
    phase := .draining, emerg := emerg, outPt := out, inPt := inn, rotVt := dt }
  s.setTile dt { s.tile dt with draining := true }

/-- R328, R356: the PT is in service on a die and its targeted self-test is due. -/
def Pt.leavesFor (p : Pt) : Option Nat :=
  match p.role with
  | .inService vt => if p.testDue then some vt else none
  | _ => none

/-- R356, R364: the die controller rotates the lowest PT in service whose self-test is due out by emergency rotation, onto the
lowest Spare of the die, once it has one and no rotation is in progress; ROTCMD shows the rotation (log 81). -/
def State.settleDie (s : State) (k : Nat) : State :=
  let on (e : Nat × Pt) : Bool := ptDie e.1 == k && decide (e.1 % 4096 < 3200)
  if (s.die k).phase ≠ .idle then s
  else match s.pts.find? (fun e => on e && e.2.leavesFor.isSome), s.pts.find? (fun e => on e && e.2.role == .spare) with
  | some o, some i =>
    let d := s.die k
    let cmd : Word := BitVec.ofNat 64 (o.1 % 4096) ||| (BitVec.ofNat 64 (i.1 % 4096) <<< 16) ||| (1 <<< 28)
    let s := s.setDie k { d with rotcmd := (d.rotcmd &&& 0x1F00000000) ||| cmd }
    s.beginRotation k (o.1 % 4096) (i.1 % 4096) (k / 64 * 4096 + (o.2.leavesFor).getD 0) true
  | _, _ => s

/-- R356: the targeted self-test of a PT, if it is due: a PT in service keeps serving until emergency rotation takes it out, and
the Spare of a rotation waits for its turn; another goes to its test at once. -/
def State.settleTest (s : State) (ptk : Nat) : State :=
  let p := s.pt ptk
  if !p.testDue then s
  else match p.role with
  | .inService _ => s.settleDie (ptDie ptk)
  | .replica _ => let s := s.endReplica ptk; s.setPt ptk { s.pt ptk with role := .selfTest, testDue := false }
  | .spare => if s.reserved ptk then s else s.setPt ptk { p with role := .selfTest, testDue := false }
  | _ => s

/-- R356: a targeted self-test becomes due; a PT under test or retired has none to come. -/
def State.targetTest (s : State) (ptk : Nat) : State :=
  let p := s.pt ptk
  if p.role = .selfTest ∨ p.role = .retired then s else (s.setPt ptk { p with testDue := true }).settleTest ptk

/-- R355: the outcome of a PT's test, for the screening mismatches it was part of: the report of a PT that fails; and of a
pair neither of which has failed, once both tests have ended, as unresolved. -/
def State.reportScreens (s : State) (ptk : Nat) (pass : Bool) : State :=
  let p := ptk / 4096
  let n := ptk % 4096
  let x := s.panel p
  let mine (e : Nat × Nat × Option (Nat × Bool)) : Bool := e.1 == n || e.2.1 == n
  let other (e : Nat × Nat × Option (Nat × Bool)) : Option Bool := match e.2.2 with
    | some (m, q) => if m = n then none else some q
    | none => none
  if !x.screens.any mine then s else s.setPanel p { x with
    screens := x.screens.filterMap (fun e =>
      if !mine e then some e else if (other e).isSome then none else some (e.1, e.2.1, some (n, pass)))
    failReports := x.failReports ++ (if pass then [] else [([n], (s.pt ptk).commits, (s.pt ptk).overflow)]) ++
      (x.screens.filter (fun e => mine e && pass && other e == some true)).map (fun e => ([e.1, e.2.1], [], false)) }

/-- R328, R356, R338. A PT's self-test ends: Spare when it passes, else Retired. -/
def execSelfTestDone (p pt : Nat) (pass : Bool) (vmin : BitVec 64) (s : State) : Out State :=
  .next (
    let k := p * 4096 + pt
    let x := s.pt k
    if x.role ≠ .selfTest then s
    else
      let x := { x with ageing := tabSet x.ageing 16 vmin }
      let s := s.setPt k (if pass then { x.raiseAgeing 21 with role := .spare } else x)
      let s := s.reportScreens k pass
      if pass then s.settleDie (ptDie k) else (s.logField k evTestFailed).retire k)

/-! ### ROTCMD (R329, R330) -/

/-- R330: the checks of a GO: the VT that leaves, and whether this restores a lost one (R346). -/
def State.rotationOf (s : State) (k : Nat) (v : Word) : Option (Nat × Bool) :=
  let p := k / 64
  let out := (v.extractLsb' 0 12).toNat
  let inn := (v.extractLsb' 16 12).toNat
  let onDie (n : Nat) : Bool := decide (n < 3200) && n / 80 == k % 64
  let x := s.pt (p * 4096 + out)
  if onDie out && onDie inn && (s.pt (p * 4096 + inn)).role == .spare && (s.die k).phase == .idle then
    match x.role with
    | .inService vt => some (p * 4096 + vt, false)
    | .retired => if v.getLsbD 28 then x.lostVt.map (fun vt => (p * 4096 + vt, true)) else none
    | _ => none
  else none

/-! ### The remap (R335, R336) -/

/-- R335: the routers of a panel that have still to apply a generation. -/
def State.markersFor (s : State) (p : Nat) (g : BitVec 16) : List Nat :=
  (s.pts.filter (fun e => e.1 / 4096 == p && e.2.routerUp && !reached e.2.mapGen g)).map (·.1)

/-- R335: the panel's generation rises, at the outgoing and incoming routers first; the window of the die opens. -/
def State.newGeneration (s : State) (k : Nat) : State :=
  let p := k / 64
  let d := s.die k
  let x := s.panel p
  let g := x.mapGen + 1
  let s := s.setPanel p { x with mapGen := g }
  let up (s : State) (n : Nat) : State := s.setPt n { s.pt n with mapGen := g }
  let s := up (up s (p * 4096 + d.outPt)) (p * 4096 + d.inPt)
  let left := s.markersFor p g
  let s := s.setDie k { (d.setRotStatus (if left.isEmpty then 4 else 3)) with
    gen := g, markers := left, phase := if left.isEmpty then .idle else .window, emerg := false }
  if left.isEmpty then s.settleDie k else s

/-- R335. A router applies the next generation of its panel's map. -/
def execMapGenerationApply (p r : Nat) (s : State) : Out State :=
  .next (
    let k := p * 4096 + r
    let x := s.pt k
    if (tabFind s.pts k).isSome && x.routerUp && x.mapGen != (s.panel p).mapGen
    then s.setPt k { x with mapGen := x.mapGen + 1 } else s)

/-- R335: a message, a sent request or a segment for the VT of a rotation that the router has routed under an older generation
is still on its way; one to a VT lost since is discarded (R347). -/
def State.olderOpen (s : State) (k : Nat) (d : Die) : Bool :=
  let older (r : Route) : Bool := r.dt == d.rotVt && r.router == k && !reached r.gen d.gen
  !(s.tile d.rotVt).lost &&
  (s.msgs.any (fun m => m.lane == 0 && older ⟨m.dst, m.router, m.gen⟩) ||
    ((List.range s.reqs.length).zip s.reqs).any (fun x => x.2.routes.any older && s.mayLeave x.1 x.2) ||
    s.copies.any (fun c => c.2.flight.any (fun u => match u.route with | some r => older r | none => false)))

/-- R335: the marker of a router passed on; with the last one the window of a die closes. -/
def State.passMarker (s : State) (die k : Nat) : State :=
  let d := s.die die
  let left := d.markers.filter (· != k)
  if left.isEmpty then (s.setDie die { d.setRotStatus 4 with markers := [], phase := .idle }).settleDie die
  else s.setDie die { d with markers := left }

/-- R335. A router's marker is forwarded to the incoming router, after what it has routed under older generations; with the
last one the window closes. -/
def execMarker (p r : Nat) (s : State) : Out State :=
  .next (
    let k := p * 4096 + r
    match s.dies.find? (fun e => e.1 / 64 == p && e.2.phase == .window && e.2.markers.contains k &&
        reached (s.pt k).mapGen e.2.gen) with
    | none => s
    | some (die, d) =>
      if s.olderOpen k d then s else s.passMarker die k)

/-! ### Rotation (R331 to R338) -/

/-- R331, R333: the activations of a VT, replicas and firmware contexts aside. -/
def State.vtActs (s : State) (dt : Nat) : List (Nat × Act) :=
  s.acts.filter (fun e => !e.2.fw && !e.2.replica && e.2.dt == dt)

/-- The place of an activation that is RUNNING on its tile, in a slot or waiting for one. -/
def Place.running : Place → Bool
  | .slot _ => true
  | .displaced => true
  | .blockedUrgent => true
  | .resumed => true
  | _ => false

/-- R85, R332: a running activation may be suspended: nothing of it is outstanding; a block stops after the instruction that its
buffer has sent. -/
def State.quiet (s : State) (e : Nat × Act) : Bool := !s.pendingWork e.1

/-- R331, R332: the drain of a VT may end. -/
def State.drained (s : State) (dt : Nat) (emerg : Bool) : Bool :=
  (s.vtActs dt).all (fun e => e.2.place != .committing && (!e.2.place.running || (emerg && s.quiet e))) &&
    !s.copies.any (fun c => c.2.dt == dt)

/-- R332: an activation suspended; its tagged registers are dropped. -/
def State.suspend (s : State) (k : Nat) : State :=
  ((s.dropTags k).leaveSlot k).updAct k (fun a => { a with place := .suspended })

/-- R353: the screens of a VT's activations that a rotation carries before they commit are abandoned. -/
def State.abandonTwins (s : State) (dt : Nat) : State :=
  (s.vtActs dt).foldl (fun s e => match e.2.twin with | some r => s.abandon r | none => s) s

/-- R331, R332. No activation of the tile runs or commits and its copies have ended, so the state copy begins; the
activations that an emergency or the drain limit stops are suspended. -/
def execDrainEnd (p die : Nat) (s : State) : Out State :=
  .next (
    let k := p * 64 + die
    let d := s.die k
    if d.phase ≠ .draining || !s.drained d.rotVt d.emerg then s
    else
      let s := s.abandonTwins d.rotVt
      let s := (s.vtActs d.rotVt).foldl (fun s e => if e.2.place.running then s.suspend e.1 else s) s
      s.setDie k { (s.die k).setRotStatus 2 with phase := .copying })

/-- R332. The drain limit expires. -/
def execDrainLimitExpiry (p die : Nat) (s : State) : Out State :=
  .next (
    let k := p * 64 + die
    let d := s.die k
    if d.phase = .draining then s.setDie k { d with emerg := true } else s)

/-- R157, R333, R334: what is not carried: caches, translation entries and the vectors of the register cache. -/
def Core.cold (c : Core) : Core := { c with l1 := [], icache := [], tlb := [], vcache := [], buffer := none }

/-- R333: bytes of LM in a list of ranges. -/
def inAreas (l : List (Nat × Nat)) (a : Nat) : Bool := l.any (fun r => decide (r.1 ≤ a) && decide (a < r.1 + r.2))

/-- R157, R333, R334, R371: a tile as the state copy carries it onto a scrubbed one: without the bytes of free workspace areas,
caches and the throttle. -/
def Tile.carried (t : Tile) : Tile :=
  { t with
    lm := t.lm.filter (fun e => !inAreas t.vacant e.1)
    lmPoison := t.lmPoison.filter (fun w => !inAreas t.vacant (8 * w))
    comp := t.comp.cold
    stag := t.stag.cold
    dtlb := []
    throttle := 0
    rotations := t.rotations + 1
    draining := false
    vacant := [] }

/-- R219, R331, R332, R337: the suspended activations of a core wait for slots after those that a `tresume` resumed in the
drain. -/
def State.requeue (s : State) (dt : Nat) (stg : Bool) : State :=
  let ks := ((s.vtActs dt).filter (fun e => e.2.place == .suspended && e.2.stg == stg)).map (·.1)
  let s := ks.foldl (fun s k => s.updAct k (fun a => { a with place := .resumed, status := { a.status with disp := false } })) s
  (s.updCore dt stg (fun c => { c with resumed := c.resumed ++ ks.filter (fun k => !c.resumed.contains k) })).refill dt stg

/-- R333, R345: the sourced tile-store regions of a VT refetched, each copied where its source cannot be read. -/
def State.refetchStore (s : State) (dt : Nat) : State :=
  (s.tile dt).sourced.foldl (fun s r => if r.isLm then s else (s.refetch dt r).getD s) s

/-- R335, R337, R338. The state copy has ended: the roles change, the generation rises and the incoming tile resumes. -/
def execRemap (p die : Nat) (s : State) : Out State :=
  .next (
    let k := p * 64 + die
    let d := s.die k
    if d.phase ≠ .copying || (s.pt (p * 4096 + d.inPt)).role ≠ .spare then s
    else
      let dt := d.rotVt
      let s := s.refetchStore dt
      let out := p * 4096 + d.outPt
      let inn := p * 4096 + d.inPt
      let s := s.setPt out { (s.pt out).raiseAgeing 20 with role := .selfTest, probe := false, testDue := false }
      let s := s.setPt inn { s.pt inn with role := .inService (dt % 4096) }
      let s := s.setTile dt (s.tile dt).carried
      ((s.newGeneration k).requeue dt false).requeue dt true)

/-! ### Sudden loss (R346) -/

/-- R346: the copies that a lost tile issued end with its distributor; their bytes not delivered leave P. -/
def State.dropCopies (s : State) (dt : Nat) : State :=
  (s.copies.filter (fun c => c.2.dt == dt)).foldl (fun s c =>
    let s := { s with copies := tabErase s.copies c.1 }
    c.2.credits.foldl (fun s x => match x.rod with
      | some k => if x.done < x.expect then s.lowerPending x.dt k (x.expect - x.done) else s
      | none => s) s) s

/-- R341, R346: what the loss of a VT leaves of its tile until it is restored: an epoch cut short is discarded, and the
nodes that were effected stay known (R226). -/
def State.lostTile (s : State) (dt : Nat) : Tile :=
  let t := s.tile dt
  { t with
    lost := true
    draining := false
    inFlight := none
    effLost := ((s.vtActs dt).filter (fun e => e.2.status.eff)).map (fun e => e.2.index) }

/-- R346: a VT is lost with the PT that serves it. A rotation of it that has not remapped ends (log 17). -/
def State.loseTile (s : State) (ptk vt : Nat) : State :=
  let dt := ptk / 4096 * 4096 + vt
  let s := s.abandonAll (fun a => a.dt == dt)
  let s := s.dropCopies dt
  let acts := s.vtActs dt
  let s := s.setTile dt (s.lostTile dt)
  let s : State := { s with
    acts := s.acts.filter (fun e => !acts.any (fun x => x.1 == e.1))
    reqs := s.reqs.map (fun r => if acts.any (fun x => x.1 == r.owner) then { r with owner := orphan } else r)
    tiles := s.tiles.map (fun e =>
      if e.1 / 4096 = dt / 4096 ∧ e.1 < Config.replicaBase ∧ s.partnerOf e.1 = dt
      then (e.1, { e.2 with mirror := none, dirty := true }) else e) }
  let s := s.retire ptk
  let s := s.setPt ptk { s.pt ptk with lostVt := some vt }
  let k := ptDie ptk
  let d := s.die k
  if d.rotVt = dt ∧ (d.phase = .draining ∨ d.phase = .copying)
  then (s.setDie k { d.setRotStatus 0 with phase := .idle, emerg := false }).settleDie k else s

/-- R346. A tile takes an uncorrectable failure of its own logic. -/
def execTileLoss (p pt : Nat) (s : State) : Out State :=
  .next (match (s.pt (p * 4096 + pt)).role with
    | .inService vt => s.loseTile (p * 4096 + pt) vt
    | _ => s)

/-- R196. A router dies: its segment starts to re-combine and its own tile is lost. -/
def execRouterDeath (p pt : Nat) (s : State) : Out State :=
  .next (
    let k := p * 4096 + pt
    let x := s.pt k
    if (tabFind s.pts k).isNone || !x.routerUp then s
    else
      let s := s.setPt k { x with routerUp := false }
      let die := p * 64 + pt / 80
      let s := if pt < 3200 then s.setDie die { s.die die with recomb := true } else s
      let s := s.dies.foldl (fun s e => if e.1 / 64 = p ∧ e.2.markers.contains k then s.passMarker e.1 k else s) s
      match x.role with
      | .inService vt => s.loseTile k vt
      | _ => s)

/-! ### Restore (R347 to R350) -/

/-- R348: a node as epoch E recorded it; one that was running then is treated as aborted. -/
def Node.aborted (n : Node) : Bool :=
  n.state == stRunning || n.state == stParked || n.state == stFaulted || n.state == stCommitting

/-- R347 step 3: the successor lists of launched nodes and the zeroed inboxes of a VT written over its mirrored bytes. -/
def State.restoredLm (s : State) (dt : Nat) (m : Snapshot) : List Host.Cell :=
  let lm := m.bytes.foldl (fun l e => memWrite l e.1 e.2) []
  let lm := (s.graphs.map (fun g => g.2.succs)).flatten.foldl (fun l e =>
    if e.1 / 4096 = dt then
      memWriteBytes l ((tabFind m.nodes (e.1 % 4096)).getD Node.empty).succ.toNat ((e.2.map (fun w => leBytes 8 w.toNat)).flatten)
    else l) lm
  m.nodes.foldl (fun l e => memWriteBytes l e.2.inbox.toNat (List.replicate (64 * e.2.inboxsz.toNat) 0)) lm

/-- R347 step 4: the ranges of the general region that a restore leaves with known bytes. -/
def State.restoredRanges (s : State) (dt : Nat) (m : Snapshot) : List (Nat × Nat) :=
  m.mirrored.map (fun r => (r.base, r.len)) ++
    ((s.graphs.map (fun g => g.2.succs)).flatten.filter (fun e => e.1 / 4096 == dt)).map (fun e =>
      (((tabFind m.nodes (e.1 % 4096)).getD Node.empty).succ.toNat, 8 * e.2.length)) ++
    m.nodes.map (fun e => (e.2.inbox.toNat, 64 * e.2.inboxsz.toNat))

/-- R347: what a VT's mirror holds, or nothing where its partner has none. -/
def Tile.mirrorOf (t : Tile) : Snapshot := t.mirror.getD ⟨0, [], [], [], [], [], [], [], []⟩

/-- R158, R343, R347: the poisoned words of a restored VT: those that no known range covers, and those that were poisoned in
mirrored regions and are not rewritten whole. -/
def State.restoredPoison (s : State) (dt : Nat) (m : Snapshot) : List Nat :=
  let words := (List.range ((Config.lmSize - Config.generalBase) / 8)).map (· + Config.generalBase / 8)
  let covers (l : List (Nat × Nat)) (w : Nat) : Bool := l.any (fun r => decide (r.1 ≤ 8 * w) && decide (8 * w + 8 ≤ r.1 + r.2))
  let known := s.restoredRanges dt m
  let rewritten := known.drop m.mirrored.length
  words.filter (fun w => !covers known w || (m.poison.contains w && !covers rewritten w))

/-- R347 steps 2 to 4, R348: the tile of a VT as its mirror restores it. Retention records that have been freed since are
not restored: their acknowledgements reached the partner too (R342). -/
def State.restoredTile (s : State) (dt : Nat) : Tile :=
  let t := s.tile dt
  let m := t.mirrorOf
  let clean (c : Core) : Core := { Core.empty with halt := c.halt, halted := c.halted, perf := c.perf }
  { t with
    lm := s.restoredLm dt m
    lmPoison := s.restoredPoison dt m
    nodes := m.nodes
    rods := m.rods
    store := []
    tsPoison := List.range (64 * 65536)
    queues := Vector.replicate 8 []
    tails := Vector.replicate 8 []
    fresh := Vector.replicate 8 0
    pushed := Vector.replicate 8 0
    engined := Vector.replicate 8 0
    freed := Vector.replicate 8 0
    comp := clean t.comp
    stag := clean t.stag
    accs := Vector.replicate 4 Acc.zero
    claim := none
    waiters := []
    bindings := m.bindings
    mirrored := m.mirrored
    sourced := m.sourced
    dtlb := []
    epochNext := m.no + 1
    inFlight := none
    acked := m.no
    applied := m.no
    dirty := true
    retained := m.retained.filterMap (fun r => t.retained.find? (fun x => x.id == r.id))
    throttle := 0
    sampled := []
    awaited := []
    repro := []
    fates := []
    vacant := [] }

/-- R226, R348: the fate of a node of a restored VT: one recorded as running is aborted with cause ABORT and an all-ones
value, a READY one goes back on its lists. -/
def State.restoreNode (s : State) (dt : Nat) (e : Nat × Node) : State :=
  let n := e.2
  if n.state = stReady then s.enlist dt e.1
  else if n.aborted then
    let s := s.setNode dt e.1 { n with state := stFaulted }
    let retry := decide (n.attempt.toNat + 1 ≤ n.retry.toNat) && !(s.tile dt).effLost.contains e.1
    s.decideFate dt e.1 retry cABORT (BitVec.allOnes 64) (Config.lostPc s.tick)
  else s

/-- R350: one edge that leads from a launched node into the restored VT: a REPRODUCE producer that is DONE is fired
again, with no beads, and its consumer awaits its restore item; that firing may be sampled as any (R351). -/
def State.applyPolicy (s : State) (lost : Nat) (key : Nat) (entry : Word) : State :=
  let (dt, i) := refSlot entry
  let src := key / 4096
  let n := s.node src (key % 4096)
  let c := s.node dt i
  let fired := (s.tile src).repro.contains (key % 4096, lost)
  if dt ≠ lost ∨ refMatches entry c = false ∨ c.state = stDone ∨ c.state = stCancelled ∨
    s.policyOf src (key % 4096) entry ≠ 2 ∨ (n.state ≠ stDone ∧ fired = false) then s
  else
    let t := s.tile lost
    let s := s.setTile lost { t with awaited := t.awaited ++ [(i, src)] }
    let t := s.tile src
    if fired then s else
    let s := s.setTile src { t with repro := (key % 4096, lost) :: t.repro }
    (s.setNode src (key % 4096) { n with beads := 0 }).fire src (key % 4096)

/-- R350: the edges of every launched node, with its key. -/
def State.launchedEdges (s : State) : List (Nat × Word) :=
  ((s.graphs.map (fun g => (g.2.succs.map (fun e => e.2.map (fun w => (e.1, w)))).flatten))).flatten

/-- R347 step 1: the messages for a VT under older generations are discarded. -/
def State.discardFor (s : State) (dt : Nat) : State :=
  { s with msgs := s.msgs.filter (fun m => !(m.dst == dt && m.lane == 0)) }

/-- R347 steps 1 to 6: the restore of a lost VT on a spare, up to its notices. -/
def State.beginRestore (s : State) (k out inn dt : Nat) : State :=
  let p := k / 64
  let s := s.setDie k { s.die k with rotVt := dt, outPt := out, inPt := inn }
  let s := s.setPt (p * 4096 + out) { s.pt (p * 4096 + out) with lostVt := none }
  let s := s.setPt (p * 4096 + inn) { s.pt (p * 4096 + inn) with role := .inService (dt % 4096) }
  let s := (s.newGeneration k).discardFor dt
  let s := s.setTile dt (s.restoredTile dt)
  let s := (s.tile dt).sourced.foldl (fun s r => (s.refetch dt r).getD s) s
  let edges := s.launchedEdges
  let s := (s.tile dt).nodes.foldl (fun s e => s.restoreNode dt e) s
  let s := edges.foldl (fun s e => s.applyPolicy dt e.1 e.2) s
  s.setTile dt { s.tile dt with
    notices := (s.tiles.filter (fun e => s.configured e.1 && decide (e.1 < Config.replicaBase) && e.1 != dt)).map (·.1) ++
      s.fws.map (fun e => Config.fwKey + e.1) }

/-- R329, R330, R346: ROTCMD written. -/
def State.writeRotcmd (s : State) (k : Nat) (v : Word) : State :=
  let d := s.die k
  let d := { d with rotcmd := (v &&& rotMask) ||| (d.rotcmd &&& 0xFF0000000000) }
  let s := s.setDie k d
  if !v.getLsbD 63 then s
  else
    let out := (v.extractLsb' 0 12).toNat
    let inn := (v.extractLsb' 16 12).toNat
    match s.rotationOf k v with
    | none => s.setDie k (d.setRotStatus 0x10)
    | some (dt, true) => s.beginRestore k out inn dt
    | some (dt, false) => s.beginRotation k out inn dt (v.getLsbD 28)

/-- R329. A GO starts a planned rotation, or is refused. -/
def execRotcmdGo (p die : Nat) (v : BitVec 64) (s : State) : Out State :=
  .next (if v.getLsbD 63 && !v.getLsbD 28 && decide (die < 40) then s.writeRotcmd (p * 64 + die) v else s)

/-- R332, R346. A GO with EMERG starts an emergency rotation or a restore, or is refused. -/
def execRotcmdEmerg (p die : Nat) (v : BitVec 64) (s : State) : Out State :=
  .next (if v.getLsbD 63 && v.getLsbD 28 && decide (die < 40) then s.writeRotcmd (p * 64 + die) v else s)

/-- R347: the last epoch of a VT that its restore recovered. -/
def State.epochOf (s : State) (dt : Nat) : BitVec 32 := (s.tile dt).applied

/-- R347, R349: a node request of a tile repeated from its retention record. -/
def State.repeatNode (s : State) (src : Nat) (op : ReqOp) (nref : Word) (id : Nat) : Req :=
  ⟨orphan, nref, 0, op, 1, [], false, false, 0, [], none, op.target.toList.map (s.routeTo src), id⟩

/-- R347, R349, R424: a node request of a tile sent again from its retention record. -/
def State.requestAgain (s : State) (src : Nat) (op : ReqOp) (nref : Word) (id : Nat) : State :=
  (op.target.toList).foldl (fun s dt => s.cross (src / 4096) (dt / 4096) dt (.req id))
    { s with reqs := s.reqs ++ [s.repeatNode src op nref id] }

/-- R347: a retention record of a sender sent again, its effect being in no epoch. -/
def State.emitAgain (s : State) (src : Nat) (r : Retained) : State :=
  (s.updKept src false (fun l => l.map (fun x => if x.id = r.id then { x with epoch := none } else x))).emit src r

/-- R350: a retention record whose token stands kept for its payload alone, which is sent again. -/
def State.keepAgain (s : State) (src : Nat) (r : Retained) (b : Body) : State :=
  let r := { r with body := b, epoch := none, issuer := none }
  (s.updKept src false (fun l => l.map (fun x => if x.id = r.id then r else x))).emit src r

/-- R347 step 7: one retention record of a request to the restored VT: acknowledged by its epoch, or sent again if it had been
sent (R349). -/
def State.resendOne (s : State) (src lost : Nat) (r : Retained) : State :=
  let drop := s.updKept src true (fun l => l.filter (fun x => x.id != r.id))
  let acked := match r.epoch with | some e => epochBy e (s.epochOf lost) | none => false
  if acked then
    match s.keepsPayload src r with
    | some b => s.keepAgain src r b
    | none => drop
  else if !r.sent then s
  else match r.body with
    | .node op nref => drop.requestAgain src op nref r.id
    | .restoreItem _ _ => if s.payloadSpent r then drop else s.emit src r
    | .token _ _ _ _ _ _ => s.emitAgain src r
    | .rodAdd _ _ => s.emitAgain src r
    | _ => s

/-- R347 step 7: the bytes of a tile's copies into the restored VT that no recovered epoch holds, and those under way, are sent
again under the new generation. -/
def Copy.resend (c : Copy) (lost : Nat) (e : BitVec 32) (route : Route) : Copy :=
  let again (x : Nat × BitVec 32 × Segment) : Bool := x.1 == lost && !epochBy x.2.1 e
  let back := (c.kept.filter again).map (·.2.2)
  { c with
    kept := c.kept.filter (fun x => !again x && x.1 != lost)
    flight := (c.flight ++ back).map (fun u => { u with
      route := u.route.map (fun r => if r.dt = lost then route else r) })
    credits := c.credits.mapIdx (fun i x =>
      { x with done := x.done - ((back.filter (fun u => u.credit && u.tgt == i)).map (fun u => u.bytes.length)).sum }) }

/-- R336, R347: the router that takes a tile's messages to the restored VT holds the new generation. -/
def State.noticed (s : State) (dt lost : Nat) : Bool :=
  reached (s.pt (s.firstRouter dt lost)).mapGen (s.die (s.dieOf lost)).gen

/-- R347. A restore notice reaches a tile, or a firmware core (log 92), which sends again what the restored VT has not
acknowledged. -/
def execRestoreNotice (dt lost : Nat) (s : State) : Out State :=
  .next (
    let t := s.tile lost
    if !t.notices.contains dt || !s.noticed dt lost then s
    else
      let s := s.setTile lost { t with notices := t.notices.filter (· != dt) }
      let s : State := { s with
        msgs := s.msgs.filter (fun m => !(m.src == dt && m.dst == lost && m.lane == 0 && m.keep.isSome))
        copies := s.copies.map (fun c => if c.2.dt = dt then (c.1, c.2.resend lost (s.epochOf lost) (s.routeTo dt lost)) else c)
        reqs := s.reqs.map (fun r => if r.agent = dt then
          { r with routes := r.routes.map (fun x => if x.dt = lost then s.routeTo dt lost else x) } else r) }
      ((s.kept dt).filter (fun r => r.dst == lost)).foldl (fun s r => s.resendOne dt lost r) s)

/-- R347 step 8: a restored retention record sent again, unless its effect stands elsewhere or its message is under way
(R349). A request to the VT itself whose effect no recovered epoch holds is sent again, and so is the payload of an edge
within the VT, kept alone or with its token, whose count stands (R350). -/
def State.resendRestored (s : State) (dt : Nat) (r : Retained) : State :=
  let t := s.tile dt
  let drop := s.setTile dt { t with retained := t.retained.filter (fun x => x.id != r.id), dirty := true }
  let stands := match r.epoch with
    | some e => decide (r.dst ≠ dt) || epochBy e (s.epochOf dt)
    | none => s.msgs.any (fun m => m.keep == some r.id) || s.reqs.any (fun q => q.id == r.id)
  match r.body with
  | .beadReturn gid b => drop.returnBeads dt gid b
  | .node op nref => if stands then s else drop.requestAgain dt op nref r.id
  | .restoreItem _ _ => if r.dst ≠ dt then s else if s.payloadSpent r then drop else s.emit dt r
  | _ =>
    let s := s.setTile dt { t with retained := t.retained.map (fun x => if x.id = r.id then { x with issuer := none } else x) }
    if !stands then s.emitAgain dt r
    else if r.dst ≠ dt ∨ r.epoch.isNone then s
    else match s.keepsPayload dt r with
      | some b => s.keepAgain dt r b
      | none => s

/-- R347. After every notice the spare sends its retention records again and resumes. -/
def execRestoreResend (dt : Nat) (s : State) : Out State :=
  .next (
    let t := s.tile dt
    if !t.lost || (s.ptOf dt).isNone || !t.notices.isEmpty then s
    else
      let s := t.retained.foldl (fun s r => s.resendRestored dt r) s
      s.setTile dt { s.tile dt with lost := false, effLost := [] })

/-! ### Screening (R355) -/

/-- R355: a clean screen empties the ring of the PT's commits. -/
def Pt.clean (p : Pt) : Pt := { p with commits := [], overflow := false }

/-- R355: a mismatch between two PTs: counted, logged, and both go to targeted self-test. -/
def State.mismatch (s : State) (orig rep : Nat) : State :=
  let s := s.setPt orig ((s.pt orig).raiseAgeing 19)
  let s := s.setPt rep ((s.pt rep).raiseAgeing 19)
  let s := (s.logField orig evMismatch).logField rep evMismatch
  let x := s.panel (orig / 4096)
  let s := s.setPanel (orig / 4096) { x with screens := x.screens ++ [(orig % 4096, rep % 4096, none)] }
  (s.targetTest orig).targetTest rep

/-- R355. The original and the replica have reached `nend`: their signatures are compared. -/
def execScreenCompare (key : Nat) (s : State) : Out State :=
  .next (match s.act? key with
    | some a =>
      match a.mate with
      | some (sig, orig) =>
        if !(a.replica && a.atEnd) then s
        else
          let rep := a.tile - Config.replicaBase
          let s := s.abandon key
          if a.finalSig = sig then (s.setPt orig (s.pt orig).clean).setPt rep (s.pt rep).clean
          else s.mismatch orig rep
      | none => s
    | none => s)

/-! ### Probes (R358, R359) -/

/-- R358: the tile has declared a slow state. -/
def State.slow (s : State) (dt : Nat) : Bool :=
  let t := s.tile dt
  t.draining || t.comp.halted || t.stag.halted || t.throttle != 0 || decide (t.reserve ≤ 0) ||
    (s.panel (s.ptKey dt / 4096)).brake

/-- R16: the tile that runs on a PT: that of the VT it serves, or that of its replicas. -/
def State.tileOn (s : State) (ptk : Nat) : Option Nat :=
  match (s.pt ptk).role with
  | .inService vt => some (ptk / 4096 * 4096 + vt)
  | .replica _ => some (Config.replicaBase + ptk)
  | _ => none

/-- R359. Counted silent router cycles send a probe to the tile. A step takes this event only where a slot of the tile is
eligible (R358: State.eventOpen). -/
def execSilenceProbe (p pt : Nat) (s : State) : Out State :=
  .next (
    let k := p * 4096 + pt
    let x := s.pt k
    match s.tileOn k with
    | some tile => if x.probe || s.slow tile then s else s.setPt k { x with probe := true }
    | none => s)

/-- R359. A tile answers its probe and goes to targeted self-test. -/
def execProbeAnswer (p pt : Nat) (s : State) : Out State :=
  .next (
    let k := p * 4096 + pt
    let x := s.pt k
    if x.probe then (s.setPt k { x with probe := false }).targetTest k else s)

/-- R359. A probe is not answered in time: the VT is lost. A replica's tile serves no VT, and goes to its self-test (R328; log
82). -/
def execProbeTimeout (p pt : Nat) (s : State) : Out State :=
  .next (
    let k := p * 4096 + pt
    let x := s.pt k
    if !x.probe then s
    else match x.role with
    | .inService vt => s.loseTile k vt
    | .replica _ => (s.setPt k { x with probe := false }).targetTest k
    | _ => s)

/-! ### Power quanta (R362) -/

/-- R362: HIGH in units of the reserve. -/
def Tile.highUnits (t : Tile) : Int := 64 * (t.high.toNat : Int)

/-- R362, R429. The die power controller grants quanta to a tile, within the draw that the cap and its ramp grant the module; its
reserve stops growing at HIGH. -/
def execQuantaGrant (dt : Nat) (s : State) : Out State :=
  .next (
    let t := s.tile dt
    if s.tileOn (s.ptKey dt) = some dt then
      let x := t.reserve + (Config.grantUnits t.grant.toNat (s.panel (s.ptKey dt / 4096)).granted.toNat s.tick : Int)
      s.setTile dt { t with reserve := if t.highUnits ≤ t.reserve then t.reserve else min x t.highUnits }
    else s)

/-- R362: the tile of a mesh neighbour on the die that has the lowest reserve; of equals the lowest PT number (log 18). -/
def State.poorest (s : State) (ptk : Nat) : Option Nat :=
  match (neighbours (ptk % 4096)).filterMap (fun n => s.tileOn (ptk / 4096 * 4096 + n)) with
  | [] => none
  | d :: rest => some (rest.foldl (fun b e => if (s.tile e).reserve < (s.tile b).reserve then e else b) d)

/-- R362. A tile above HIGH passes its excess to the neighbour with the lowest reserve. -/
def execReserveShare (dt : Nat) (s : State) : Out State :=
  .next (
    let t := s.tile dt
    let k := s.ptKey dt
    if s.tileOn k ≠ some dt then s
    else match s.poorest k with
      | none => s
      | some d =>
        if t.highUnits < t.reserve then
          let x := s.tile d
          (s.setTile dt { t with reserve := t.highUnits }).setTile d { x with reserve := x.reserve + (t.reserve - t.highUnits) }
        else s)

end Sys2Proof.Machine
end

