-- ==== Sys2Proof/Machine/System.lean ====
section
/-! DEFINITION. CSRs (R376, R377) and the registers of the die controller with what they start (R153, R363, R377), the
system instructions of major 0x3E (R383 to R395), and the words that always trap ILLEGAL (R35). -/

namespace Sys2Proof.Machine

/-! ### Page migration (R153, R154, R377, R378) -/

/-- R377: the page that MIGSRC names: its address, and its size code. -/
def Die.migPage (d : Die) : Nat × Nat := ((d.migsrc.extractLsb' 16 36).toNat * 2 ^ 16, (d.migsrc.extractLsb' 0 2).toNat)

/-- R5, R377: the fields of MIGDST that software writes, STATUS among them. -/
def migMask : Word := 0x7F0FFFFFFFFF0000
/-- R377: the status of MIGDST set. -/
def Die.setMigStatus (d : Die) (x : Word) : Die := { d with migdst := (d.migdst &&& 0xFFFFFFFFF0000) ||| (x <<< 56) }

/-- Two ranges share an address. -/
def rangesMeet (a n b m : Nat) : Bool := decide (a < b + m) && decide (b < a + n)

/-- R377, R378: a GO to MIGDST is refused. -/
def State.migrationRefused (s : State) (k old size new : Nat) : Bool :=
  let n := pageBytes size
  let hbm (a : Nat) : Bool := decide (a < 2 ^ 45) && s.backed (k / 64) a
  !hbm old || !hbm new || new / 2 ^ 42 != old / 2 ^ 42 || size == 3 ||
    s.pages.any (fun e => e.home == 2 &&
      (e.pa :: e.replicas.map (atDie e.pa)).any (fun pa => rangesMeet pa (pageBytes e.size) old n)) ||
    s.dies.any (fun e => e.2.mig.any (fun g => rangesMeet g.old g.size old n))

/-- R377: STATUS of MIGDST as a migration sets it: that of the one last started is shown (log 93). -/
def Die.tell (d : Die) (g : Migration) (x : Word) : Die := if g.told then d.setMigStatus x else d

/-- R377: MIGDST written; a GO starts the migration, beside those in progress, or is refused. -/
def State.writeMigdst (s : State) (k : Nat) (v : Word) : State :=
  let d := s.die k
  let d := { d with migdst := v &&& migMask }
  let s := s.setDie k d
  if !v.getLsbD 63 then s
  else
    let (old, size) := d.migPage
    let new := (v.extractLsb' 16 36).toNat * 2 ^ 16
    if s.migrationRefused k old size new then s.setDie k (d.setMigStatus 0x40)
    else s.setDie k { d.setMigStatus 1 with
      mig := d.mig.map (fun g => { g with told := false }) ++ [⟨old, new, pageBytes size, 1, none, 0, [], false, false, true⟩] }

/-- R154: a live lease covers an address of the physical range. -/
def State.pageLeased (s : State) (old size : Nat) : Bool :=
  s.pages.any (fun e => rangesMeet e.pa (pageBytes e.size) old size &&
    s.acts.any (fun a => (a.2.asid == e.asid || e.glob) &&
      a.2.leases.any (fun l => rangesMeet l.base l.len e.va (pageBytes e.size))))

/-- R153: a physical address as the switch of a page moves it. -/
def movePa (old new size pa : Nat) : Nat := if old ≤ pa ∧ pa < old + size then new + (pa - old) else pa

/-- R153: a home as the switch of a page moves it. -/
def moveHome (old new size : Nat) : Home → Home
  | .phys pa => .phys (movePa old new size pa)
  | h => h

/-- R153 step 2: some lines of a page, numbered from its start, with their key tags and their poison, copied to the new home. -/
def State.copyLines (s : State) (old new size : Nat) (some : Nat → Bool) : State :=
  let on (base l : Nat) : Bool := decide (base ≤ 128 * l) && decide (128 * l < base + size) && some (l - base / 128)
  let move (l : Nat) : Nat := l - old / 128 + new / 128
  { s with
    phys := (s.phys.filter (fun e => on old (e.1 / 128))).foldl (fun m e => memWrite m (e.1 - old + new) e.2)
      (s.phys.filter (fun e => !on new (e.1 / 128)))
    keys := (s.keys.filter (fun e => on old e.1)).foldl (fun t e => tabSet t (move e.1) e.2)
      (s.keys.filter (fun e => !on new e.1))
    poison := s.poison.filter (fun l => !on new l) ++ (s.poison.filter (on old)).map move }

/-- R153: the line is copied in the current round of a migration. -/
def Migration.inRound (g : Migration) (line : Nat) : Bool := match g.todo with | some ls => ls.contains line | none => true

/-- R153 step 2: the lines of the current round of a die's next migration copied, in increasing order, below line n. -/
def State.copyRound (s : State) (k n : Nat) : State :=
  match (s.die k).mig with
  | g :: rest =>
    let s := s.copyLines g.old g.new g.size (fun l => decide (g.copied ≤ l) && decide (l < n) && g.inRound l)
    s.setDie k { s.die k with mig := { g with copied := max g.copied n } :: rest }
  | [] => s

/-- R153 step 5: no translation entry of a page is left in a list. -/
def dropPage (old size : Nat) (l : List Tlb) : List Tlb :=
  l.filter (fun e => !rangesMeet e.pa (pageBytes e.size) old size)

/-- The translation entries of a core filtered. -/
def Core.mapTlb (c : Core) (f : List Tlb → List Tlb) : Core := { c with tlb := f c.tlb }

/-- R153, R236: a binding request as the switch of a page moves its watchpoint. -/
def moveWatch (old new size : Nat) : ReqOp → ReqOp
  | .evb d ref (some (.watch a len m v)) c => .evb d ref (some (.watch (movePa old new size a) len m v)) c
  | op => op

/-- R153, R236: a live binding as the switch of a page moves its watchpoint. -/
def moveBinding (old new size : Nat) (b : Binding) : Binding :=
  match b.source with
  | .watch a len m v => { b with source := .watch (movePa old new size a) len m v }
  | _ => b

/-- R153, R236: a retention record as the switch of a page moves the watchpoint of its request. -/
def moveKept (old new size : Nat) (r : Retained) : Retained :=
  match r.body with
  | .node op nref => { r with body := .node (moveWatch old new size op) nref }
  | _ => r

/-- R153, R236: an epoch's record as the switch of a page moves its watchpoints. -/
def Snapshot.movePage (m : Snapshot) (old new size : Nat) : Snapshot :=
  { m with
    bindings := m.bindings.map (moveBinding old new size)
    retained := m.retained.map (moveKept old new size) }

/-- R153 step 5: the writes that a frozen page has held performed at its new home, in the order they arrived. -/
def State.releaseHeld (s : State) (g : Migration) : State :=
  let mine (h : Nat × Nat × List Byte) : Bool := decide (g.old ≤ h.2.1) && decide (h.2.1 < g.old + g.size)
  (s.held.filter mine).foldl (fun s h => s.perform h.1 [(.phys (movePa g.old g.new g.size h.2.1), h.2.2)])
    { s with held := s.held.filter (fun h => !mine h) }

/-- R153 step 5: the page switches: all of its lines are at the new home, its entries are invalidated everywhere, and every
access translated before goes to the new home; `rest` are the die's other migrations. -/
def State.switchPage (s : State) (k : Nat) (g : Migration) (rest : List Migration) : State :=
  let moving := s.pages.filter (fun e => rangesMeet e.pa (pageBytes e.size) g.old g.size)
  let s := s.copyLines g.old g.new g.size (fun _ => true)
  let f := dropPage g.old g.size
  let mv := moveHome g.old g.new g.size
  let pa := movePa g.old g.new g.size
  let s : State := { s with
    tiles := s.tiles.map (fun e => (e.1, { e.2 with
      comp := e.2.comp.mapTlb f
      stag := e.2.stag.mapTlb f
      dtlb := f e.2.dtlb
      bindings := e.2.bindings.map (moveBinding g.old g.new g.size)
      retained := e.2.retained.map (moveKept g.old g.new g.size)
      inFlight := e.2.inFlight.map (·.movePage g.old g.new g.size)
      mirror := e.2.mirror.map (·.movePage g.old g.new g.size) }))
    dies := s.dies.map (fun e => (e.1, { e.2 with tlb := f e.2.tlb }))
    pages := s.pages.map (fun e => { e with pa := pa e.pa })
    graphs := s.graphs.map (fun e => (e.1, { e.2 with grec := pa e.2.grec }))
    reqs := s.reqs.map (fun r => { r with
      op := moveWatch g.old g.new g.size r.op
      elems := r.elems.map (fun e => { e with home := mv e.home }) })
    early := s.early.map (fun e => { e with home := mv e.home })
    acts := s.acts.map (fun e => (e.1, { e.2 with adds := e.2.adds.map (fun d => { d with home := mv d.home }) }))
    copies := s.copies.map (fun e => (e.1, { e.2 with flight := e.2.flight.map (fun u => { u with home := mv u.home }) }))
    moved := ⟨g.old, g.new, g.size, moving.flatMap (fun e => s.dies.map (fun d => (d.1, e)))⟩ :: s.moved }
  (s.setDie k { (s.die k).tell g 3 with mig := rest }).releaseHeld g

/-- R153: the next round of a migration, which copies the lines written. -/
def Migration.again (g : Migration) : Migration := { g with todo := some g.dirty, copied := 0, dirty := [] }

/-- R153, R154: the end of a round of a migration, its last lines copied: it switches, pauses under a lease, resumes after one,
freezes after the fourth round, or repeats; those of the die take turns. -/
def State.roundEnd (s : State) (k : Nat) (g : Migration) (rest : List Migration) : State :=
  let s := s.copyRound k (g.size / 128)
  let g := { g with copied := max g.copied (g.size / 128) }
  let put (g : Migration) : State := s.setDie k { s.die k with mig := rest ++ [g] }
  if g.frozen then s.switchPage k g rest
  else if s.pageLeased g.old g.size then put { g with paused := true }
  else if g.paused then put { g.again with paused := false, round := 1 }
  else if g.dirty.isEmpty then s.switchPage k g rest
  else if 4 ≤ g.round then s.setDie k { (s.die k).tell g 2 with mig := rest ++ [{ g.again with frozen := true }] }
  else put { g.again with round := g.round + 1 }

/-- R153. A round of the next migration of a die ends, or one paused under a lease resumes. -/
def execMigrationRoundEnd (p die : Nat) (s : State) : Out State :=
  .next (match (s.die (p * 64 + die)).mig with
    | g :: rest => s.roundEnd (p * 64 + die) g rest
    | [] => s)

/-- R153. A GO starts migrating the page that MIGSRC names, or is refused. -/
def execMigrationGo (p die : Nat) (v : BitVec 64) (s : State) : Out State :=
  .next (if v.getLsbD 63 && decide (die < 40) then s.writeMigdst (p * 64 + die) v else s)

/-! ### PTCMD and L2GATE (R351, R363, R377) -/

/-- R5, R377: the fields of PTCMD that software writes, STATUS among them. -/
def ptMask : Word := 0xFF000FFFFFFF
/-- R377: the status of PTCMD set. -/
def Die.setPtStatus (d : Die) (x : Word) : Die := { d with ptcmd := (d.ptcmd &&& 0x0FFFFFFF) ||| (x <<< 40) }

/-- R352: the tile of a PT that takes the Replica role for a VT: its tile store holds the VT's sourced regions, every
other row poisoned. -/
def State.loadReplica (s : State) (ptk dt : Nat) : State :=
  let tile := Config.replicaBase + ptk
  let regions := (s.tile dt).sourced.filter (fun r => !r.isLm)
  let s := s.setTile tile { Tile.empty with tsPoison := List.range (64 * 65536), reserve := 64 * 3072 }
  let s := regions.foldl (fun s r => (s.refetch tile r).getD s) s
  s.setPt ptk { s.pt ptk with role := .replica (dt % 4096) }

/-- R328, R377: PTCMD written; a GO makes the transition of its op, or is refused. The Spare that a rotation takes in is no longer
one to assign (log 81); a new Spare may let a PT whose test is due go out (R356). -/
def State.writePtcmd (s : State) (k : Nat) (v : Word) : State :=
  let d := s.die k
  let d := { d with ptcmd := v &&& ptMask }
  let s := s.setDie k d
  if !v.getLsbD 63 then s
  else
    let pt := (v.extractLsb' 0 12).toNat
    let ptk := k / 64 * 4096 + pt
    let dt := k / 64 * 4096 + (v.extractLsb' 16 12).toNat
    let here := decide (pt < 3200) && pt / 80 == k % 64
    let done (s : State) : State := s.setDie k (d.setPtStatus 0)
    let refused := s.setDie k (d.setPtStatus 0x10)
    match (v.extractLsb' 12 4).toNat, (s.pt ptk).role with
    | 1, .spare => if here && s.configured dt && !s.reserved ptk then done (s.loadReplica ptk dt) else refused
    | 2, .replica _ =>
      if here then (done (let s := s.endReplica ptk; s.setPt ptk { s.pt ptk with role := .spare })).settleDie k else refused
    | 3, .spare => if here && !s.reserved ptk then done (s.setPt ptk { s.pt ptk with role := .selfTest }) else refused
    | _, _ => refused

/-- R377: a GO of one op of PTCMD. -/
def ptcmdOp (op p die : Nat) (v : Word) (s : State) : State :=
  if v.getLsbD 63 && (v.extractLsb' 12 4).toNat == op && decide (die < 40) then s.writePtcmd (p * 64 + die) v else s

/-- R377. PTCMD op 1. -/
def execPtcmdSpareToReplica (p die : Nat) (v : BitVec 64) (s : State) : Out State := .next (ptcmdOp 1 p die v s)
/-- R377. PTCMD op 2. -/
def execPtcmdReplicaToSpare (p die : Nat) (v : BitVec 64) (s : State) : Out State := .next (ptcmdOp 2 p die v s)
/-- R377. PTCMD op 3. -/
def execPtcmdSpareToSelfTest (p die : Nat) (v : BitVec 64) (s : State) : Out State := .next (ptcmdOp 3 p die v s)

/-- R363, R377: L2GATE written. Gating writes dirty lines back and changes no value that an access returns; it is done
when the write is, so BUSY reads 0. -/
def State.writeL2gate (s : State) (k : Nat) (v : Word) : State := s.setDie k { s.die k with l2gate := v &&& 0xFFFFFFFF }

/-- R363. A write to L2GATE. -/
def execL2gate (p die : Nat) (v : BitVec 64) (s : State) : Out State :=
  .next (if die < 40 then s.writeL2gate (p * 64 + die) v else s)

/-! ### CSRs (R248, R249, R293, R376, R377) -/

/-- R248: the rounding stream written; zero gives 1. -/
def Act.setSeed (a : Act) (v : Word) : Act := { a with seed := if v.setWidth 32 = (0 : BitVec 32) then 1 else v.setWidth 32 }

/-- R248. A write to SEED by the issuing context. -/
def execSeedWrite (v : BitVec 64) (s : State) : Out State := .next (s.updHere (fun a => a.setSeed v))

/-- The die of the issuing firmware core, as its key in the table of dies. -/
def State.fwDie (s : State) : Nat := s.fwHere / 256 * 64 + s.fwHere % 256 / 4

/-- R377: COREID. -/
def State.coreId (s : State) : Word :=
  let a := s.here
  if a.fw then
    let die := s.fwDie % 64
    let cls := if s.fwHere % 4 ≠ 0 then 2 else if die < 40 then 3 else 4
    BitVec.ofNat 64 (cls + die * 2 ^ 16)
  else
    let pt := s.ptKey a.tile % 4096
    BitVec.ofNat 64 ((if a.stg then 1 else 0) + pt * 8 + pt / 80 * 2 ^ 16)

/-- R377: performance counter n of the issuing core. -/
def State.perfOf (s : State) (n : Fin 8) : Word :=
  if s.here.fw then (s.fwCore s.fwHere).perf[n] else s.hereCore.perf[n]

/-- R377: what a CSR reads. -/
def State.csrRead (s : State) (c : BitVec 12) : Word :=
  let a := s.here
  let f := s.fwCore s.fwHere
  let d := s.die s.fwDie
  match c.toNat with
  | 0x001 => a.fpflags.setWidth 64
  | 0x002 => if a.trapnv then 1 else 0
  | 0x003 => a.seed.setWidth 64
  | 0x004 => if a.fw then 0 else a.mxinj.setWidth 64
  | 0x005 => a.cause.toWord
  | 0x400 => f.trapbase
  | 0x401 => f.get ++ (0 : BitVec 28) ++ f.log2n
  | 0x402 => f.put.setWidth 64
  | 0x403 => f.key.setWidth 64
  | 0x404 => f.halt.bits.setWidth 64
  | 0x410 => d.rotcmd
  | 0x411 => d.ptcmd
  | 0x412 => d.migsrc
  | 0x413 => d.migdst
  | 0x414 => d.l2gate
  | 0xF00 => 0x0100
  | 0xF01 => 0x00B00040
  | 0xF02 => s.coreId
  | n => if n / 8 = 0x180 then s.perfOf ⟨n % 8, Nat.mod_lt _ (by decide)⟩ else 0

/-- R377, R390, R396: the halt field of the issuing firmware core written. -/
def State.writeHgcore (s : State) (v : Word) : State :=
  let h := HaltField.ofBits (v.setWidth 7)
  let stop := h.member && (s.panel (s.fwHere / 256)).triggered.contains h.group.toNat
  s.setFw s.fwHere { s.fwCore s.fwHere with halt := h, halted := stop }

/-- R377: a CSR written; bits that the map marks R or reserved are not changed. -/
def State.csrWrite (s : State) (c : BitVec 12) (v : Word) : State :=
  let f := s.fwCore s.fwHere
  let k := s.fwDie
  match c.toNat with
  | 0x001 => s.updHere (fun a => { a with fpflags := v.setWidth 5 })
  | 0x002 => s.updHere (fun a => { a with trapnv := v.getLsbD 0 })
  | 0x003 => s.updHere (fun a => a.setSeed v)
  | 0x004 => if s.here.fw then s else s.updHere (fun a => { a with mxinj := v.setWidth 2 })
  | 0x400 => s.setFw s.fwHere { f with trapbase := v &&& 0xFFFE0 }
  | 0x401 => s.setFw s.fwHere { f with log2n := v.setWidth 4, get := v.extractLsb' 32 32 }
  | 0x403 => s.setFw s.fwHere { f with key := v.setWidth 8 }
  | 0x404 => s.writeHgcore v
  | 0x410 => s.writeRotcmd k v
  | 0x411 => s.writePtcmd k v
  | 0x412 => s.setDie k { s.die k with migsrc := v &&& 0xFFFFFFFFF0003 }
  | 0x413 => s.writeMigdst k v
  | 0x414 => s.writeL2gate k v
  | _ => s

/-- R376: a CSR of the die controller. -/
def dieCsr (c : BitVec 12) : Bool := decide (0x410 ≤ c.toNat) && decide (c.toNat ≤ 0x414)

/-- R34, R372, R376: the checks of a CSR access; `word` is the instruction's. An unassigned number is ILLEGAL at step 2, PRIV
is step 3, a write of a CSR whose access is R is a check of the instruction's own. -/
def checkCsr (word : BitVec 32) (write : Bool) (c : BitVec 12) (s : State) : Res Unit := do
  require (WellFormed.csrAssigned c) cILLEGAL (word.setWidth 64)
  if decide (0x400 ≤ c.toNat) && decide (c.toNat < 0x800) then privileged word s else pure ()
  require (!write || WellFormed.csrWritable c) cILLEGAL (word.setWidth 64)
  require (!dieCsr c || (s.fwHere % 4 == 0 && decide (s.fwDie % 64 < 40))) cILLEGAL (word.setWidth 64)

/-- R376: the word of a CSR access. -/
def csrWord (d a : BitVec 5) (op : BitVec 2) (c : BitVec 12) : BitVec 32 := 0xFD#8 ++ d ++ a ++ op ++ c

/-- R34, R116: an instruction of four bytes whose check comes before any register is read. -/
def checkedInstr (check : State → Res Unit) (reads writes : List Nat) (f : State → Res State) (s : State) : Out State :=
  issue s (fun s => do
    check s
    let t ← withRegs reads writes f s
    return t.done 4)

/-- R376. Reads a CSR. -/
def execCsrr (d : BitVec 5) (csr : BitVec 12) (s : State) : Out State :=
  checkedInstr (checkCsr (csrWord d 0 0 csr) false csr) [] [d.toNat] (fun s => .ok (s.setW d (s.csrRead csr))) s

/-- R376. Writes a CSR. -/
def execCsrw (a : BitVec 5) (csr : BitVec 12) (s : State) : Out State :=
  checkedInstr (checkCsr (csrWord 0 a 1 csr) true csr) [a.toNat] [] (fun s => .ok (s.csrWrite csr (s.w a))) s

/-- R376: a CSR changed by f of its old value and wa; the old value goes to wd. -/
def csrChange (d a : BitVec 5) (csr : BitVec 12) (f : Word → Word → Word) (s : State) : Res State :=
  let old := s.csrRead csr
  .ok ((s.csrWrite csr (f old (s.w a))).setW d old)

/-- R376. Sets CSR bits, returning the old value. -/
def execCsrs (d a : BitVec 5) (csr : BitVec 12) (s : State) : Out State :=
  checkedInstr (checkCsr (csrWord d a 2 csr) true csr) [a.toNat] [d.toNat] (csrChange d a csr (fun x y => x ||| y)) s

/-- R376. Clears CSR bits, returning the old value. -/
def execCsrc (d a : BitVec 5) (csr : BitVec 12) (s : State) : Out State :=
  checkedInstr (checkCsr (csrWord d a 3 csr) true csr) [a.toNat] [d.toNat] (csrChange d a csr (fun x y => x &&& ~~~y)) s

/-! ### Translation service (R384 to R389) -/

/-- R383: the word of an instruction of major 0x3E. -/
def sysWord (d a b : BitVec 5) (fn : BitVec 9) : BitVec 32 := 0xFE#8 ++ d ++ a ++ b ++ fn

/-- R372: a privileged instruction of major 0x3E. -/
def sysInstr (word : BitVec 32) (reads writes : List Nat) (f : State → Res State) (s : State) : Out State :=
  checkedInstr (privileged word) reads writes f s

/-- R384. Resumes a parked activation; it acts at the handle's home. -/
def execTresume (d a b : BitVec 5) (s : State) : Out State :=
  sysInstr (sysWord d a b 0) [a.toNat, b.toNat] [d.toNat]
    (fun s => .ok (s.request (.tresume d (s.w a) (s.w b)) 1 [] .none)) s

/-- R384. Aborts a parked activation; it acts at the handle's home. -/
def execTabort (d a b : BitVec 5) (s : State) : Out State :=
  sysInstr (sysWord d a b 1) [a.toNat, b.toNat] [d.toNat]
    (fun s => .ok (s.request (.tabort d (s.w a) (s.w b)) 1 [] .none)) s

/-- R387: the replica dies of E3. -/
def replicasOf (e3 : Nat) : List Nat :=
  (List.range 4).filterMap (fun i => if e3.testBit (8 * i + 7) then some (e3 / 2 ^ (8 * i) % 64) else none)

/-- R374: HBM of a die. -/
def inHbm (pa : Nat) : Bool := decide (pa < 2 ^ 45) && decide (pa / 2 ^ 36 % 64 < 40)

/-- R387: the entry of an image's four doublewords, unless it is refused. -/
def tlbImage (e0 e1 e2 e3 : Nat) : Option Tlb :=
  let size := e2 / 2 ^ 29 % 4
  let home := e2 / 2 ^ 23 % 4
  let dies := replicasOf e3
  let clear := e0 % 2 ^ 16 == 0 && decide (e0 < 2 ^ 56) && e1 % 2 ^ 16 == 0 && decide (e1 < 2 ^ 52) && decide (e2 < 2 ^ 31) &&
    decide (e3 < 2 ^ 32) && (List.range 4).all (fun i => !e3.testBit (8 * i + 6))
  let region := match home with
    | 0 => inHbm e1
    | 1 => decide (2 ^ 51 ≤ e1)
    | 2 => inHbm e1 && dies.contains (e1 / 2 ^ 36 % 64)
    | _ => false
  if clear && size != 3 && e0 % pageBytes size == 0 && e1 % pageBytes size == 0 && region && dies.all (fun d => decide (d ≤ 39))
  then some
    { va := e0, size := size, pa := e1, key := BitVec.ofNat 8 e2, asid := BitVec.ofNat 12 (e2 / 2 ^ 8), glob := e2.testBit 20
      place := BitVec.ofNat 2 (e2 / 2 ^ 21), home := home, mig := e2.testBit 25, r := e2.testBit 26, w := e2.testBit 27
      x := e2.testBit 28, replicas := dies }
  else none

/-- R381, R388: the tile that a distributor handle of a die names. -/
def State.distributorOf (s : State) (die : Nat) (h : Word) : Option Nat :=
  let dt := (h.extractLsb' 0 15).toNat
  if h.getLsbD 63 && h.extractLsb' 15 48 == 0 && s.configured dt && s.dieOf dt == die then some dt else none

/-- R322: a copy after its die's translation cache has been filled: one that waits for that page has no fill request
unanswered. -/
def Copy.filled (c : Copy) (e : Tlb) : Copy :=
  match c.asked with
  | some va => if e.covers c.asid va then { c with asked := none } else c
  | none => c

/-- R322, R388: an entry installed in the die cache, and where wb says; the result. -/
def State.fillTlb (s : State) (e : Tlb) (h : Word) : State × Word :=
  let k := s.fwDie
  let d := s.die k
  let s := s.setDie k { d with tlb := installTlb d.tlb e 8192 }
  let s := { s with copies := s.copies.map (fun c => if s.dieOf c.2.dt = k then (c.1, c.2.filled e) else c) }
  if h = 0 then (s, 0)
  else match s.distributorOf k h with
    | some dt => (s.setTile dt { s.tile dt with dtlb := installTlb (s.tile dt).dtlb e 64 }, 0)
    | none =>
      match s.parkedBy h with
      | some a =>
        let x := s.act a
        if s.dieOf x.tile = k then (s.updCore x.tile x.stg (fun c => { c with tlb := installL1 c.tlb e }), 0)
        else (s, errorCode 2)
      | none => (s, errorCode 2)

/-- R388: tlbfill; its result returns as a response. -/
def fillFromImage (d a b : BitVec 5) (s : State) : Res State := do
  let off := s.w a
  require (decide (off.toNat % 32 = 0)) cALIGN off
  require (decide (off.toNat + 32 ≤ Config.fwSize)) cBOUNDS off
  let e (i : Nat) : Nat := s.localRead (off.toNat + 8 * i) 8
  match tlbImage (e 0) (e 1) (e 2) (e 3) with
  | none => return s.request (.tlbfill d (errorCode 1)) 1 [] .none
  | some x =>
    let r := s.fillTlb x (s.w b)
    return r.1.request (.tlbfill d r.2) 1 [] .none

/-- R388. Installs a TLB entry image. -/
def execTlbfill (d a b : BitVec 5) (s : State) : Out State :=
  sysInstr (sysWord d a b 2) [a.toNat, b.toNat] [d.toNat] (fillFromImage d a b) s

/-- R389: an entry matches a tlbinv: without ALLAS only entries of its ASID that are not global do (DEDUCED, log 19). -/
def Tlb.matches (e : Tlb) (va : Nat) (v : Word) : Bool :=
  (v.getLsbD 12 || (!e.glob && e.asid == v.extractLsb' 0 12)) &&
    (v.getLsbD 13 || va / pageBytes e.size == e.va / pageBytes e.size)

/-- R389: the entries of a list that a tlbinv leaves. -/
def keepTlb (va : Nat) (v : Word) (l : List Tlb) : List Tlb := l.filter (fun e => !e.matches va v)

/-- R389: the dies within the reach of a tlbinv. -/
def reachDie (own : Nat) (v : Word) (k : Nat) : Bool :=
  match (v.extractLsb' 14 2).toNat with
  | 0 => k == own
  | 1 => k / 64 == own / 64
  | _ => true

/-- R389: the caches of a core that a tlbinv leaves; with ICACHE every cached instruction within reach is dropped. -/
def Core.invalidate (c : Core) (va : Nat) (v : Word) : Core :=
  { c with tlb := keepTlb va v c.tlb, icache := if v.getLsbD 16 then [] else c.icache }

/-- R153, R378: the old page of a switched migration is still mapped by some translation entry. -/
def State.stillMapped (s : State) (m : Moved) : Bool :=
  let hit (l : List Tlb) : Bool := l.any (fun e => rangesMeet e.pa (pageBytes e.size) m.old m.size)
  s.dies.any (fun e => hit e.2.tlb) || s.tiles.any (fun e => hit e.2.comp.tlb || hit e.2.stag.tlb || hit e.2.dtlb)

/-- R378, R389: tlbinv; once every table entry of a switched page has been covered at every die, its accesses are no longer
forwarded. -/
def invalidate (a b : BitVec 5) (s : State) : Res State := do
  let v := s.w b
  let va := (s.w a).toNat
  require (decide (v.toNat < 2 ^ 17) && v.extractLsb' 14 2 != 3) cBOUNDS v
  let own := s.fwDie
  let s : State := { s with
    dies := s.dies.map (fun e => if reachDie own v e.1 then (e.1, { e.2 with tlb := keepTlb va v e.2.tlb }) else e)
    tiles := s.tiles.map (fun e => if reachDie own v (s.dieOf e.1) then (e.1, { e.2 with
      comp := e.2.comp.invalidate va v
      stag := e.2.stag.invalidate va v
      dtlb := keepTlb va v e.2.dtlb }) else e) }
  let moved := s.moved.map (fun m => { m with
    uncovered := m.uncovered.filter (fun x => !(reachDie own v x.1 && x.2.matches va v)) })
  return { s with moved := moved.filter (fun m => !m.uncovered.isEmpty || s.stillMapped m) }

/-- R389. Invalidates matching translation entries within its reach. -/
def execTlbinv (a b : BitVec 5) (s : State) : Out State :=
  sysInstr (sysWord 0 a b 3) [a.toNat, b.toNat] [] (invalidate a b) s

/-! ### Contexts, calls, halts, idle, beam control (R385, R391 to R395) -/

/-- R391: the registers of a firmware context written to its workspace, with a header PC. -/
def State.writeContext (s : State) (pc : Word) : State :=
  let a := { s.here with pc := pc }
  { s with phys := memWriteBytes s.phys (fwBase s.fwHere + a.wp) ((List.range Config.wsSize).map (a.wsByte [])) }

/-- R391: the registers of a firmware context as the workspace at wp holds them. -/
def State.readContext (s : State) (wp : Nat) : State :=
  let at0 := fwBase s.fwHere + wp
  s.updHere (fun a => (List.range 0x240).foldl (fun a i =>
    a.setWsWord i (BitVec.ofNat 64 (leNat ((List.range 8).map (fun j => memRead s.phys (at0 + 8 * i + j)))))) { a with wp := wp })

/-- R391: wssw. -/
def switchContext (a : BitVec 5) (s : State) : Res State := do
  let wp := s.w a
  require (decide (wp.toNat % 512 = 0) && decide (wp.toNat + Config.wsSize ≤ Config.fwSize)) cBOUNDS wp
  return (s.writeContext (s.here.pc + 4)).readContext wp.toNat

/-- R391. Switches a firmware core's context. -/
def execWssw (a : BitVec 5) (s : State) : Out State :=
  issue s (fun s => do
    privileged (sysWord 0 a 0 4) s
    withRegs [a.toNat] [] (switchContext a) s)

/-- R385: the activation parks with the header PC at the next instruction. -/
def parkNext (code : BitVec 8) (v : Word) (s : State) : State :=
  (s.advance 4).takeTrap s.cur (trapOf code v)

/-- R385. Parks the activation with cause SVC. -/
def execSvc (a : BitVec 5) (s : State) : Out State :=
  issue s (fun s => do
    nodeOnly s
    withRegs [a.toNat] [] (fun s => .ok (parkNext cSVC (s.w a) s)) s)

/-- R394: the panel and halt field of the issuing core. -/
def State.hereHalt (s : State) : Nat × HaltField :=
  if s.here.fw then (s.fwHere / 256, (s.fwCore s.fwHere).halt) else (s.here.dt / 4096, s.hereCore.halt)

/-- R385, R375, R394: brk. -/
def breakHere (s : State) : State :=
  let (p, h) := s.hereHalt
  let s := if h.member && h.brk && !s.here.replica then s.setHalt p h.group.toNat true else s
  parkNext cBREAK 0 s

/-- R385. Parks with cause BREAK and may trigger a halt group; a firmware core stops. -/
def execBrk (s : State) : Out State := issue s (fun s => .ok (breakHere s))

/-- R395: halt. -/
def haltGroup (a b : BitVec 5) (s : State) : Res State := do
  let g := s.w a
  require (decide (g.toNat < 16)) cBOUNDS g
  return s.setHalt (s.fwHere / 256) g.toNat (!(s.w b).getLsbD 0)

/-- R395. Triggers or releases a halt group. -/
def execHalt (a b : BitVec 5) (s : State) : Out State :=
  sysInstr (sysWord 0 a b 7) [a.toNat, b.toNat] [] (haltGroup a b) s

/-- R392: the core idles unless a trap record waits (log 12). -/
def idleCore (s : State) : Res State :=
  let f := s.fwCore s.fwHere
  .ok (if f.put = f.get then s.setFw s.fwHere { f with idle := true } else s)

/-- R392. Stops a firmware core's issue until a trap record or a halt release. -/
def execIdle (s : State) : Out State := sysInstr (sysWord 0 0 0 8) [] [] idleCore s

/-- R392. An idle firmware core resumes issue on a trap record. -/
def execIdleWake (fw : Nat) (s : State) : Out State :=
  .next (
    let f := s.fwCore fw
    if f.idle && f.put != f.get then s.setFw fw { f with idle := false } else s)

/-- R393: bmmask. -/
def maskLeaf (a b : BitVec 5) (s : State) : Res State := do
  let x := s.w a
  let v := s.w b
  let p := s.fwHere / 256
  let g := (x.extractLsb' 0 4).toNat
  let vt := (x.extractLsb' 16 12).toNat
  let dt := p * 4096 + vt
  let op := (x.extractLsb' 30 2).toNat
  require (x &&& ~~~(0xCFFF000F : Word) == 0) cBOUNDS x
  require (op != 3) cBOUNDS x
  if op = 2 then
    require (vt == 0) cBOUNDS x
    return s.setGroup p g { s.group p g with asid := if v.getLsbD 12 then some (v.setWidth 12) else none }
  else
    require (decide (vt < (s.panel p).vts)) cBOUNDS x
    let l := (s.tile dt).leaf g
    if op = 0 then return (s.setLeaf dt g { l with exc := v.getLsbD 0 }).checkPhase p g
    else
      let y := s.group p g
      let s := s.setGroup p g { y with raised := y.raised.filter (· != dt) }
      return (s.setLeaf dt g { l with member := false, arr := 0, up := false }).checkPhase p g

/-- R393. Firmware control of the beam. -/
def execBmmask (a b : BitVec 5) (s : State) : Out State :=
  sysInstr (sysWord 0 a b 9) [a.toNat, b.toNat] [] (maskLeaf a b) s

/-! ### Words that always trap (R35) -/

/-- R35. An undefined word always traps ILLEGAL. -/
def execUdf (x : BitVec 24) (s : State) : Out State :=
  issue s (fun _ => .error (trapOf cILLEGAL ((0xFF#8 ++ x : BitVec 32).setWidth 64)))

/-- R35. The halfword 0x0000 always traps ILLEGAL. -/
def execIll (s : State) : Out State := issue s (fun _ => .error (trapOf cILLEGAL 0))

end Sys2Proof.Machine
end

