-- ==== Sys2Proof/Machine/Launch.lean ====
section
/-! DEFINITION. Submission queues and the launch unit (R199 to R211, R420 to R423). -/

namespace Sys2Proof.Machine

/-! ### Queues (R420 to R423) -/

/-- R422: the panel without the slots of some queues. The turn stays where it is: where the queue served last loses its slot, it
passes to the one before it that is left, or to none, so that its successor is next. -/
def Panel.dropSlots (x : Panel) (done : Nat → Bool) : Panel :=
  { x with
    active := x.active.filter (fun q => !done q)
    serve := if done x.serve then ((x.active.takeWhile (· != x.serve)).filter (fun q => !done q)).getLast?.getD 1024 else x.serve }

/-- R422: the slots of queues with nothing left freed. -/
def State.freeSlots (s : State) (p : Nat) : State :=
  let x := s.panel p
  let done (q : Nat) : Bool := let y := s.queue p q; y.sqhead == y.sqtail && y.held.isEmpty
  (x.active.filter done).foldl (fun s q => s.setQueue p q { s.queue p q with qstat := 0 }) (s.setPanel p (x.dropSlots done))

/-- R421. A host write to SQTAIL. -/
def execSqtailNotify (p q : Nat) (v : BitVec 32) (s : State) : Out State :=
  .next (
    let x := { s.queue p q with sqtail := v }
    let y := s.panel p
    if 1024 ≤ q ∨ y.state = .off then s
    else if y.state = .serviceOnly then s.setQueue p q { s.queue p q with qstat := 0x80 }
    else if !x.enable then s.setQueue p q { x with qstat := 0x80 }
    else if ringSize x.sqlog2 < (v - x.sqhead).toNat then s.setQueue p q { x with qstat := 0x81 }
    else if y.active.contains q then
      if v = x.sqhead ∧ x.held = [] then
        let s := s.setQueue p q { x with qstat := 0 }
        s.setPanel p ((s.panel p).dropSlots (· == q))
      else s.setQueue p q { x with qstat := 1 }
    else if v = x.sqhead then
      let s := s.setQueue p q { x with qstat := 0 }
      s.setPanel p { s.panel p with waitingQ := y.waitingQ.filter (· != q) }
    else
      let s := s.setQueue p q { x with qstat := 2 }
      if y.waitingQ.contains q then s
      else
        let y := s.panel p
        s.setPanel p { y with waitingQ := y.waitingQ ++ [q] })

/-- R9: the I/O die whose queue mapper and launch unit serve a queue (log 83). -/
def mapperOf (q : Nat) : Nat := q % 4

/-- R422: the queue mapper of a queue's I/O die has one of its 32 active slots free. -/
def Panel.slotFree (x : Panel) (q : Nat) : Bool := decide ((x.active.filter (fun r => mapperOf r == mapperOf q)).length < 32)

/-- R421, R422: a queue that waits can be mapped: a slot of its mapper is free, it is enabled and has pending records, and no
later notify has made it disabled or overrun, which leaves it its place. -/
def State.mappable (s : State) (p q : Nat) : Bool :=
  let y := s.queue p q
  (s.panel p).slotFree q && y.enable && y.qstat == 2 && y.sqhead != y.sqtail

/-- R422. A queue mapper maps its earliest waiting queue into a free active slot; of the four, the one whose queue has waited
longest moves. -/
def execQueueSlotMap (p : Nat) (s : State) : Out State :=
  .next (
    let x := s.panel p
    match x.waitingQ.find? (s.mappable p) with
    | some q =>
      let s := s.setPanel p { x with waitingQ := x.waitingQ.filter (· != q), active := x.active ++ [q] }
      s.setQueue p q { s.queue p q with qstat := 1 }
    | none => s)

/-- R423: held completion records of a queue written while the ring has room. -/
def State.writeHeld (s : State) (p q : Nat) : Nat → State
  | 0 => s
  | n + 1 =>
    let x := s.queue p q
    match x.held with
    | ws :: rest => if x.room then ((s.setQueue p q { x with held := rest }).writeCompletion p q ws).writeHeld p q n else s
    | [] => s

/-- R423. A host write to CQHEAD. -/
def execCqhead (p q : Nat) (v : BitVec 32) (s : State) : Out State :=
  .next (
    let y := s.panel p
    if 1024 ≤ q ∨ y.state = .off ∨ y.state = .serviceOnly then s
    else
      let s := s.setQueue p q { s.queue p q with cqhead := v }
      (s.writeHeld p q (s.queue p q).held.length).freeSlots p)

/-! ### Taking a record (R202, R421) -/

/-- R421: the words of the next submission record of a queue. The ring is read under key id 0 (log 15). -/
def State.nextRecord (s : State) (p q : Nat) : List Nat :=
  let x := s.queue p q
  let pa := x.sqbase + 128 * (x.sqhead.toNat % ringSize x.sqlog2)
  (List.range 16).map (fun i => s.homeRead 0 (.phys (pa + 8 * i)) 8)

/-- R421: SQHEAD raised past the record that has been read. -/
def State.takeRecord (s : State) (p q : Nat) : State :=
  let s := s.setQueue p q { s.queue p q with sqhead := (s.queue p q).sqhead + 1 }
  s.setPanel p { s.panel p with serve := q }

/-- R202: a reserved bit of a launch record is set, or its OP is above 3. -/
def recordBad (l : List Nat) : Bool :=
  let w (i : Nat) : Nat := l.getD i 0
  decide (2 ^ 23 ≤ w 0) || decide (3 < w 0 % 16) || (l.drop 8).any (· != 0) ||
    [1, 2, 3, 5].any (fun i => decide (2 ^ 56 ≤ w i)) || decide (2 ^ 32 ≤ w 4) || decide (2 ^ 16 ≤ w 7)

/-- R208: the completion record of an operation that is not a completed graph's. -/
def State.endRecord (s : State) (p q status op gid : Nat) (tag : Nat) : State :=
  (s.postCompletion p q (completionWords status op gid (BitVec.ofNat 64 tag) 0 0 0)).freeSlots p

/-- R211, R237: every live binding of a graph unbound. -/
def State.unbindGraph (s : State) (gid : Nat) : State :=
  s.tiles.foldl (fun s e => (e.2.bindings.filter (fun b => b.gid == gid)).foldl (fun s b => s.unbind e.1 b 1) s) s

/-- R211, R435: a graph cancelled by the host: its nodes that have not started are cancelled and its bindings unbound. -/
def State.cancelGraph (s : State) (gid : Nat) (g : Graph) : State :=
  let s := { s with graphs := tabSet s.graphs gid { g with cancelled := true } }
  let s := g.slots.foldl (fun s e =>
    let n := s.node e.1 e.2
    if n.gid.toNat = gid ∧ (n.state = stEmpty ∨ n.state = stArmed ∨ n.state = stReady) then s.cancel e.1 e.2 0 2 else s) s
  s.unbindGraph gid

/-! ### The graph image (R199 to R201) -/

/-- The owner of a launch: the address-space id and the key id of its queue (R199, R202). -/
structure Owner where
  asid : BitVec 12
  key  : BitVec 8
deriving DecidableEq, Repr

/-- R420: the owner of a queue. -/
def Queue.owner (x : Queue) : Owner := ⟨x.asid, x.key⟩

/-- The physical address behind an owner's virtual address, if it is mapped and readable. -/
def State.ownedAt (s : State) (p : Nat) (o : Owner) (va : Nat) : Option Nat :=
  match s.walk o.asid va with
  | some e => if e.r && s.backed p (e.phys va) then some (e.phys va) else none
  | none => none

/-- A doubleword at an owner's virtual address, if it is mapped and readable, under the owner's key id (R199). -/
def State.readOwned (s : State) (p : Nat) (o : Owner) (va : Nat) : Option Nat :=
  (s.ownedAt p o va).map (fun pa => s.homeRead o.key.toNat (.phys pa) 8)

/-- n doublewords at an owner's virtual address, up to the first that is not mapped. -/
def State.readWords (s : State) (p : Nat) (o : Owner) : Nat → Nat → Option (List Nat)
  | _, 0 => some []
  | va, n + 1 => match s.readOwned p o va with
    | some x => (s.readWords p o (va + 8) n).map (x :: ·)
    | none => none

/-- n bytes at an owner's virtual address, up to the first that is not mapped. -/
def State.readBytes (s : State) (p : Nat) (o : Owner) : Nat → Nat → Option (List Byte)
  | _, 0 => some []
  | va, n + 1 => match s.ownedAt p o va with
    | some pa => (s.readBytes p o (va + 1) n).map (s.physByte o.key.toNat pa :: ·)
    | none => none

/-- R199, R200: a graph image: the words of its templates, edges, shards and regions, with the regions' bytes. -/
structure Image where
  templates : List (List Nat)
  edges     : List Nat
  shards    : List (List Nat)
  regions   : List (List Nat × List Byte)

/-- A list cut into groups of n. -/
def chunks (n : Nat) (l : List Nat) : List (List Nat) :=
  (List.range (l.length / n)).map (fun i => (l.drop (n * i)).take n)

/-- R199, R201: the header is in order: version, template count, reserved bits, aligned tables. -/
def headerOk (h : List Nat) : Bool :=
  let w (i : Nat) : Nat := h.getD i 0
  w 0 % 2 ^ 16 == 1 && w 0 / 2 ^ 16 % 2 ^ 16 != 0 && decide (w 1 < 2 ^ 32) &&
    [2, 3, 4, 5].all (fun i => decide (w i < 2 ^ 56) && w i % 8 == 0) && w 6 == 0 && w 7 == 0

/-- R199, R200, R201: the image at an address, unless an offset of it, that of an empty table or region too, or an entry lies
outside its mapped range. -/
def State.readImage (s : State) (p : Nat) (o : Owner) (va : Nat) : Option Image := do
  let h ← s.readWords p o va 8
  let w (i : Nat) : Nat := h.getD i 0
  let inside (off : Nat) : Bool := (s.ownedAt p o (va + off)).isSome
  if headerOk h && va % 64 == 0 && [2, 3, 4, 5].all (fun i => inside (w i)) then
    let ts ← s.readWords p o (va + w 2) (16 * (w 0 / 2 ^ 16 % 2 ^ 16))
    let es ← s.readWords p o (va + w 3) (w 1)
    let ss ← s.readWords p o (va + w 4) (2 * (w 0 / 2 ^ 32 % 2 ^ 16))
    let gs ← s.readWords p o (va + w 5) (4 * (w 0 / 2 ^ 48))
    let rs ← (chunks 4 gs).mapM (fun r => if inside (r.getD 0 0)
      then (s.readBytes p o (va + r.getD 0 0) (r.getD 1 0)).map (fun bs => (r, bs)) else none)
    return { templates := chunks 16 ts, edges := es, shards := chunks 2 ss, regions := rs }
  else none

/-- Field d of four 16-bit fields of a doubleword. -/
def field16 (x d : Nat) : Nat := x / 2 ^ (16 * d) % 2 ^ 16

/-- R56, R200: the grid of a template: blocks per dimension, [] for a single node, none where SHARD names no entry or a
total or block is 0. -/
def Image.grid (im : Image) (t : List Nat) : Option (List Nat) :=
  let k := t.getD 8 0 / 2 ^ 32 % 2 ^ 16
  if k = 0xFFFF then some []
  else match im.shards[k]? with
    | none => none
    | some sh => (List.range 4).mapM (fun d =>
        let total := field16 (sh.getD 0 0) d
        let block := field16 (sh.getD 1 0) d
        if total = 0 ∨ block = 0 then none else some ((total + block - 1) / block))

/-- Copies of a grid. -/
def gridSize (g : List Nat) : Nat := g.foldl (· * ·) 1

/-- R200, R201: the fields of a template are in range, and every bit that the launch unit writes or that is reserved is
zero. -/
def templateOk (t : List Nat) : Bool :=
  let w (i : Nat) : Nat := t.getD i 0
  decide (w 0 < 2 ^ 61) && decide (w 1 < 2 ^ 16) && w 2 == 0 && w 3 % 2 ^ 33 == 0 && w 4 % 2 ^ 22 == 0 &&
    w 0 / 2 ^ 48 % 4 != 3 && w 4 / 2 ^ 62 != 3 &&
    w 8 % 2 ^ 16 / 2 ^ 12 == 0 && w 8 / 2 ^ 28 % 16 == 0 && w 8 / 2 ^ 48 == 0 && (t.drop 9).all (· == 0)

/-- R57, R200: a region entry is in order and its target lies in the general region or the tile store. -/
def regionEntryOk (r : List Nat) : Bool :=
  let p2 := r.getD 2 0
  let off := p2 % 2 ^ 23
  let n := r.getD 1 0
  p2 % 2 ^ 62 == off && decide (r.getD 3 0 < 2 ^ 12) &&
    (if p2.testBit 62 then decide (off + n ≤ 2 ^ 23)
     else decide (Config.generalBase ≤ off) && decide (off + n ≤ Config.lmSize))

/-- One expanded node: its template, its copy number, its home offset and its slot. -/
structure Copied where
  tmpl : Nat
  copy : Nat
  home : Nat
  slot : Nat

/-- R56: the copies of the templates, in install order. -/
def Image.expand (im : Image) : List Copied :=
  (((List.range im.templates.length).zip im.templates).map (fun e =>
    (List.range (gridSize ((im.grid e.2).getD []))).map (fun i =>
      { tmpl := e.1, copy := i, home := e.2.getD 8 0 % 2 ^ 12 + i, slot := e.2.getD 8 0 / 2 ^ 16 % 2 ^ 12 : Copied }))).flatten

/-- Template i of an image. -/
def Image.tmpl (im : Image) (i : Nat) : List Nat := im.templates.getD i []

/-- R55, R56: the successors of an expanded node, each with the edge's bits from POLICY up. -/
def Image.succsOf (im : Image) (c : Copied) : List (Copied × Nat) :=
  (im.edges.map (fun e =>
    let dst := e / 2 ^ 16 % 2 ^ 16
    if e % 2 ^ 16 ≠ c.tmpl then []
    else
      let t := im.tmpl dst
      let g := (im.grid t).getD []
      let at0 (i : Nat) : Copied × Nat :=
        ({ tmpl := dst, copy := i, home := t.getD 8 0 % 2 ^ 12 + i, slot := t.getD 8 0 / 2 ^ 16 % 2 ^ 12 }, e / 2 ^ 32 % 16)
      if g = [] then [at0 0]
      else if (im.grid (im.tmpl c.tmpl)).getD [] = [] then (List.range (gridSize g)).map at0
      else [at0 c.copy])).flatten

/-- R201: the tests that need no expansion: templates, shards, edges and regions in order, copies within 4,095. -/
def Image.tablesOk (im : Image) : Bool :=
  im.shards.all (fun sh => (List.range 4).all (fun d => field16 (sh.getD 0 0) d != 0 && field16 (sh.getD 1 0) d != 0)) &&
  im.templates.all (fun t => templateOk t &&
    (match im.grid t with | some g => decide (t.getD 8 0 % 2 ^ 12 + gridSize g ≤ 4096) | none => false)) &&
  im.edges.all (fun e =>
    let a := e % 2 ^ 16
    let b := e / 2 ^ 16 % 2 ^ 16
    let ga := (im.grid (im.tmpl a)).getD []
    let gb := (im.grid (im.tmpl b)).getD []
    decide (e < 2 ^ 36) && decide (a < im.templates.length) && decide (b < im.templates.length) &&
      (ga == [] || gb == [] || ga == gb)) &&
  im.regions.all (fun r => regionEntryOk r.1)

/-- R201: the tests of the expanded nodes. -/
def Image.nodesOk (im : Image) (cs : List Copied) : Bool :=
  cs.all (fun c => decide ((im.succsOf c).length ≤ 2047)) &&
  cs.any (fun c => (im.tmpl c.tmpl).getD 1 0 % 2 ^ 16 == 0) &&
  decide ((cs.map (fun c => (c.home, c.slot))).Nodup)

/-! ### Installation (R203 to R207) -/

/-- R56, R200: the record of an expanded node as its template and copy give it. -/
def Image.record (im : Image) (c : Copied) : Node :=
  let t := im.tmpl c.tmpl
  let n := Node.ofWords (fun i => BitVec.ofNat 64 (t.getD i 0))
  match im.grid t with
  | some (g0 :: g1 :: g2 :: _) =>
    let sh := im.shards.getD (t.getD 8 0 / 2 ^ 32 % 2 ^ 16) []
    let i (d : Nat) : Nat := match d with
      | 0 => c.copy % g0
      | 1 => c.copy / g0 % g1
      | 2 => c.copy / (g0 * g1) % g2
      | _ => c.copy / (g0 * g1 * g2)
    let total (d : Nat) : Nat := field16 (sh.getD 0 0) d
    let block (d : Nat) : Nat := field16 (sh.getD 1 0) d
    let pack (f : Nat → Nat) : Word := BitVec.ofNat 64 (f 0 + f 1 * 2 ^ 16 + f 2 * 2 ^ 32 + f 3 * 2 ^ 48)
    { n with org := pack (fun d => i d * block d % 2 ^ 16), ext := pack (fun d => min (block d) (total d - i d * block d)) }
  | _ => n

/-- R198: beam membership of a leaf ended. -/
def Leaf.cleared (l : Leaf) : Leaf := { l with member := false, arr := 0, up := false }

/-- R133, R157: the L1 cache and the register cache of a core invalidated. -/
def Core.invalidated (c : Core) : Core := { c with l1 := [], vcache := [] }

/-- R157, R180, R198, R371: a tile scrubbed for an owner: its memories, the node table among them (R126, log 94), and rods are
zero, its caches empty, its membership of groups and its throttle end. -/
def Tile.scrubbed (t : Tile) (asid : BitVec 12) : Tile :=
  { t with
    lm := []
    lmPoison := []
    nodes := []
    store := []
    tsPoison := []
    rods := []
    leaves := t.leaves.map (fun e => (e.1, e.2.cleared))
    throttle := 0
    comp := t.comp.invalidated
    stag := t.stag.invalidated
    vacant := []
    lastOwner := some asid }

/-- R198: the raise of a VT whose membership has ended no longer counts in a group. -/
def State.lowerRaise (s : State) (dt g : Nat) : State :=
  let y := s.group (dt / 4096) g
  s.setGroup (dt / 4096) g { y with raised := y.raised.filter (· != dt) }

/-- R157: a tile scrubbed before it serves a different owner; the groups it leaves may complete their phase (R194). -/
def State.scrubFor (s : State) (dt : Nat) (asid : BitVec 12) : State :=
  let t := s.tile dt
  if t.lastOwner = some asid then s
  else if t.lastOwner = none then s.setTile dt { t with lastOwner := some asid }
  else (List.range 16).foldl (fun s g => (s.lowerRaise dt g).checkPhase (dt / 4096) g) (s.setTile dt (t.scrubbed asid))

/-- R204, R205: a slot bound and its successor list and inbox allocated: the state and the record, or the status. -/
def State.bindSlot (s : State) (gid base : Nat) (im : Image) (c : Copied) : Except Nat State :=
  let dt := base + c.home
  let old := s.node dt c.slot
  let succ := im.succsOf c
  if old.state ≠ stEmpty ∨ old.gid ≠ 0 then .error 0x13
  else
    let n := im.record c
    match s.heapTake dt gid (8 * succ.length) with
    | none => .error 0x14
    | some (at1, s) =>
      match s.heapTake dt gid (64 * n.inboxsz.toNat) with
      | none => .error 0x14
      | some (at2, s) => .ok (s.setNode dt c.slot { n with
          gen := old.gen + 1
          gid := BitVec.ofNat 16 gid
          state := stEmpty
          live := 0
          beads := 0
          succ := BitVec.ofNat 22 at1
          nsucc := BitVec.ofNat 11 succ.length
          inbox := BitVec.ofNat 22 at2 })

/-- R203 step 4: every slot bound. -/
def State.bindAll (s : State) (gid base : Nat) (im : Image) : List Copied → Except Nat State
  | [] => .ok s
  | c :: cs => match s.bindSlot gid base im c with
    | .ok t => t.bindAll gid base im cs
    | .error e => .error e

/-- R214: the successor entries of an expanded node, its targets bound. -/
def State.entriesOf (s : State) (base : Nat) (im : Image) (c : Copied) : List Word :=
  (im.succsOf c).map (fun x =>
    let dt := base + x.1.home
    nodeRef dt x.1.slot (s.node dt x.1.slot) ||| BitVec.ofNat 64 (x.2 * 2 ^ 59))

/-- R57: the homes of a region entry, as DTs. -/
def regionHomes (base : Nat) (cs : List Copied) (r : List Nat) : List Nat :=
  if (r.getD 2 0).testBit 63 then (cs.map (fun c => base + c.home)).eraseDups else [base + r.getD 3 0]

/-- R57, R283, R344: a region's bytes written into a tile store: a slice written whole is no longer poisoned, and the sourced
regions they lie in are released. -/
def Tile.putStore (t : Tile) (off : Nat) (bs : List Byte) : Tile :=
  let whole (n : Nat) : Bool := decide (off ≤ 2 * n) && decide (2 * n + 2 ≤ off + bs.length)
  let met (g : Region) : Bool := !g.isLm && decide (off < 128 * (g.base + g.len)) && decide (128 * g.base < off + bs.length)
  { t with
    store := ((List.range bs.length).zip bs).foldl (fun m e =>
      let row := (off + e.1) / 128
      tabSet m row (BitVec.ofNat 1024 (putByte ((tabFind m row).getD 0).toNat ((off + e.1) % 128) e.2))) t.store
    tsPoison := t.tsPoison.filter (fun n => !whole n)
    sourced := t.sourced.filter (fun g => !met g)
    dirty := t.dirty || t.sourced.any met }

/-- R57, R203 step 6, R404: a region entry's bytes written at its homes; those of LM are the graph's from now on. -/
def State.writeRegion (s : State) (base : Nat) (cs : List Copied) (r : List Nat × List Byte) : State :=
  let off := r.1.getD 2 0 % 2 ^ 23
  (regionHomes base cs r.1).foldl (fun s dt =>
    if (r.1.getD 2 0).testBit 62 then s.setTile dt ((s.tile dt).putStore off r.2)
    else
      let s := s.perform 0 [(.lm dt off, r.2)]
      s.setTile dt { s.tile dt with vacant := cutRanges (s.tile dt).vacant off r.2.length }) s

/-- R206: the beads of root i of n. -/
def rootShare (n i : Nat) : Nat := 2 ^ 32 / n + (if i + 1 = n then 2 ^ 32 % n else 0)

/-- R203 steps 8 and 9, R206: every node armed, then the roots fired with their beads. -/
def State.armAll (s : State) (base : Nat) (cs : List Copied) : State :=
  let s := cs.foldl (fun s c =>
    let n := s.node (base + c.home) c.slot
    s.setNode (base + c.home) c.slot { n with live := n.live + n.count.toNat, state := stArmed }) s
  let roots := cs.filter (fun c => (s.node (base + c.home) c.slot).count == 0)
  ((List.range roots.length).zip roots).foldl (fun s x =>
    (s.hold (base + x.2.home) x.2.slot (rootShare roots.length x.1)).fire (base + x.2.home) x.2.slot) s

/-- R202: n bytes at an owner's address are mapped with R and W. -/
def State.ownedRange (s : State) (p : Nat) (asid : BitVec 12) (va n : Nat) : Bool :=
  decide (va + n ≤ 2 ^ 56) && (List.range n).all (fun i => match s.walk asid (va + i) with
    | some e => e.r && e.w && s.backed p (e.phys (va + i))
    | none => false)

/-- R202: the checks of a LAUNCH record on its addresses; the physical address of its graph record. -/
def State.launchTarget (s : State) (p : Nat) (asid : BitVec 12) (l : List Nat) : Option Nat :=
  let w (i : Nat) : Nat := l.getD i 0
  if recordBad l || w 2 % 64 != 0 || w 3 % 32 != 0 || w 5 % 32 != 0 ||
    !s.ownedRange p asid (w 2) 64 || !s.ownedRange p asid (w 3) (32 * (w 4 % 2 ^ 16)) ||
    !s.ownedRange p asid (w 5) (32 * (w 4 / 2 ^ 16)) then none
  else match s.walk asid (w 2) with
    | some e => if e.home = 0 then some (e.phys (w 2)) else none
    | none => none

/-- R203: the lowest free graph id (log 20). -/
def State.freeGid (s : State) : Option Nat :=
  ((List.range (s.graphs.length + 1)).map (· + 1)).find? (fun g => decide (g < 2 ^ 16) && (tabFind s.graphs g).isNone)

/-- R203 step 7, R207: the graph made live, its record written. -/
def State.addGraph (s : State) (gid : Nat) (g : Graph) : State :=
  ({ s with graphs := tabSet s.graphs gid g } : State).perform g.key.toNat
    [(.phys g.grec, (([2 ^ 32, 0, gid * 2 ^ 16, 0, 0, 0, 0, 0] : List Nat).map (leBytes 8)).flatten)]

/-- R202: the placement base of a LAUNCH record. -/
def launchBase (l : List Nat) : Nat := l.getD 0 0 / 2 ^ 8 % 2 ^ 15

/-- R57, R204: the tiles at which a graph has a node or a region. -/
def Image.homes (im : Image) (base : Nat) : List Nat :=
  (im.expand.map (fun c => base + c.home) ++ (im.regions.map (fun r => regionHomes base im.expand r.1)).flatten).eraseDups

/-- R57, R404: the LM ranges of a graph's regions, by tile. -/
def Image.lmRegions (im : Image) (base : Nat) : List (Nat × Nat × Nat) :=
  (im.regions.map (fun r => if (r.1.getD 2 0).testBit 62 then [] else
    (regionHomes base im.expand r.1).map (fun dt => (dt, r.1.getD 2 0 % 2 ^ 23, r.1.getD 1 0)))).flatten

/-- R204: every home of a graph is a configured VT of the panel of its base, which is in the domain of the queue's. -/
def State.placed (s : State) (p base : Nat) (im : Image) : Bool :=
  (im.homes base).all (fun dt => dt / 4096 == base / 4096 && s.names p dt)

/-- R203: the image of a launch installed, its roots fired; or the status of its failure. -/
def State.install (s : State) (p q gid grec : Nat) (l : List Nat) (im : Image) : Except Nat State :=
  let x := s.queue p q
  let base := launchBase l
  let cs := im.expand
  if !s.placed p base im then .error 0x12
  else
    let s := (im.homes base).foldl (fun s dt => s.scrubFor dt x.asid) s
    match s.bindAll gid base im cs with
    | .error e => .error e
    | .ok s =>
      let succs := cs.map (fun c => ((base + c.home) * 4096 + c.slot, s.entriesOf base im c))
      let s := succs.foldl (fun s e =>
        let dt := e.1 / 4096
        s.perform 0 [(.lm dt (s.node dt (e.1 % 4096)).succ.toNat, (e.2.map (fun w => leBytes 8 w.toNat)).flatten)]) s
      let s := im.regions.foldl (fun s r => s.writeRegion base cs r) s
      let prio := l.getD 0 0 / 16 % 16
      let s := s.addGraph gid
        { panel := p
          queue := q
          asid := x.asid
          key := x.key
          prio := if prio = 0 then 1 else prio
          grec := grec
          exq := l.getD 3 0
          exqcap := l.getD 4 0 % 2 ^ 16
          roots := l.getD 5 0
          rootcap := l.getD 4 0 / 2 ^ 16
          tag := BitVec.ofNat 64 (l.getD 6 0)
          halted := false
          cancelled := false
          slots := cs.map (fun c => (base + c.home, c.slot))
          image := l.getD 1 0
          succs := succs
          regions := im.lmRegions base }
      .ok (s.armAll base cs)

/-- R202, R203, R208: a LAUNCH record, or one with no valid OP, served. -/
def State.launch (s : State) (p q : Nat) (l : List Nat) : State :=
  let fail (status : Nat) : State := s.endRecord p q status (l.getD 0 0 % 16) 0 (l.getD 6 0)
  let o := (s.queue p q).owner
  match s.launchTarget p o.asid l with
  | none => fail 0x10
  | some grec =>
    match s.freeGid with
    | none => fail 0x15
    | some gid =>
      match s.readImage p o (l.getD 1 0) with
      | none => fail 0x11
      | some im =>
        if !im.tablesOk || !im.nodesOk im.expand then fail 0x11
        else match s.install p q gid grec l im with
          | .ok t => t.freeSlots p
          | .error e => fail e

/-- R157, R404: a graph that could be installed must wait: a graph of another owner lives on one of its tiles, which is not
scrubbed under it, or an activation's area meets one of its regions (log 84). -/
def State.installWaits (s : State) (p : Nat) (asid : BitVec 12) (base : Nat) (im : Image) : Bool :=
  let busy := im.expand.any (fun c => let n := s.node (base + c.home) c.slot; n.state != stEmpty || n.gid != 0)
  s.placed p base im && !busy &&
  ((im.homes base).any (fun dt => s.graphs.any (fun g => g.2.asid != asid &&
      (g.2.slots.any (fun e => e.1 == dt) || g.2.regions.any (fun r => r.1 == dt)))) ||
    (im.lmRegions base).any (fun r => s.acts.any (fun e => !e.2.fw && e.2.tile == r.1 && e.2.area != 0 &&
      decide (e.2.wp < r.2.1 + r.2.2) && decide (r.2.1 < e.2.wp + e.2.area))))

/-- R157, R346, R404: the launch unit waits: for a tile of the panel that a launch names and that is lost or being copied, or for
the tiles of a graph that could be installed. -/
def State.launchWaits (s : State) (p q : Nat) (l : List Nat) : Bool :=
  let o := (s.queue p q).owner
  let dead := s.tiles.any (fun e => e.1 / 4096 == launchBase l / 4096 && s.names p e.1 && !s.homeOpen (.lm e.1 0))
  dead || ((s.launchTarget p o.asid l).isSome && (match s.readImage p o (l.getD 1 0) with
    | some im => im.tablesOk && im.nodesOk im.expand && s.installWaits p o.asid (launchBase l) im
    | none => false))

/-! ### Serving the queues (R202, R422) -/

/-- R157, R346, R404: the next record of a queue is a LAUNCH that must wait. -/
def State.recordWaits (s : State) (p q : Nat) : Bool :=
  let l := s.nextRecord p q
  let op := l.getD 0 0 % 16
  !(decide (1 ≤ op) && decide (op ≤ 3)) && s.launchWaits p q l

/-- R153: some page is frozen: the launch units, whose accesses its old home would hold, take no record. -/
def State.freezing (s : State) : Bool := s.dies.any (fun e => e.2.mig.any (·.frozen))

/-- R422: the queue of the panel that is served next: round robin over the mapped queues with pending records, so that each
launch unit serves its own in turn (log 83), past those whose record must wait (log 84). -/
def State.nextQueue (s : State) (p : Nat) : Option Nat :=
  let x := s.panel p
  let order := (x.active.dropWhile (fun q => q != x.serve)).drop 1 ++ x.active
  if x.state ≠ .ready || s.freezing then none
  else order.find? (fun q => let y := s.queue p q; y.enable && y.qstat == 1 && y.sqhead != y.sqtail && !s.recordWaits p q)

/-- R208, R211: an operation applied to a live graph of the queue's owner, its completion record posted. -/
def State.graphOp (s : State) (op p : Nat) (f : State → Nat → Graph → State) : State :=
  match s.nextQueue p with
  | none => s
  | some q =>
    let l := s.nextRecord p q
    if l.getD 0 0 % 16 ≠ op then s
    else
      let asid := (s.queue p q).asid
      let s := s.takeRecord p q
      let gid := l.getD 7 0
      if recordBad l then s.endRecord p q 0x10 op 0 (l.getD 6 0)
      else match tabFind s.graphs gid with
        | some g =>
          if g.asid = asid then (f s gid g).endRecord p q 0 op gid (l.getD 6 0)
          else s.endRecord p q 0x16 op 0 (l.getD 6 0)
        | none => s.endRecord p q 0x16 op 0 (l.getD 6 0)

/-- R211. A HALT record. -/
def execHaltRecord (p : Nat) (s : State) : Out State :=
  .next (s.graphOp 1 p (fun s gid g => { s with graphs := tabSet s.graphs gid { g with halted := true } }))

/-- R211. A RESUME record. -/
def execResumeRecord (p : Nat) (s : State) : Out State :=
  .next (s.graphOp 2 p (fun s gid g => { s with graphs := tabSet s.graphs gid { g with halted := false } }))

/-- R211. A CANCEL record. -/
def execCancelRecord (p : Nat) (s : State) : Out State :=
  .next (s.graphOp 3 p (fun s gid g => s.cancelGraph gid g))

/-- R203. A launch unit takes a LAUNCH record and installs its graph. -/
def execLaunchRecord (p : Nat) (s : State) : Out State :=
  .next (match s.nextQueue p with
    | none => s
    | some q =>
      let l := s.nextRecord p q
      let op := l.getD 0 0 % 16
      if 1 ≤ op ∧ op ≤ 3 then s else (s.takeRecord p q).launch p q l)

end Sys2Proof.Machine
end

