-- ==== Sys2Proof/Machine/Host.lean ====
section
/-! DEFINITION. The host, the fabric ports, the tray, power capping, boot and the errors of the outside world (R17, R158,
R394, R418 to R436). -/

namespace Sys2Proof.Machine

/-! ### Fabric ports (R424 to R426) -/

/-- The state with another port. -/
def State.setPort (s : State) (p n : Nat) (x : Port) : State :=
  let y := s.panel p
  s.setPanel p { y with ports := tabSet y.ports n x }

/-- R424: an acknowledgement of n: every flit of the replay buffer up to n is acknowledged. -/
def Port.acknowledge (x : Port) (n : BitVec 16) : Port :=
  if x.buffer.any (·.seq == n) then { x with buffer := (x.buffer.dropWhile (·.seq != n)).drop 1 } else x

/-- R424: a replay asked for, once until the replay arrives. -/
def Port.ask (x : Port) : Port :=
  if x.asked then x
  else { x with asked := true, replays := if x.replays = BitVec.allOnes 32 then x.replays else x.replays + 1 }

/-- R424, R425: a lane carries data: a data lane that the spare, lane 8, has not replaced, or the spare in its place. -/
def Port.carries (x : Port) (lane : Nat) : Bool :=
  if x.spared = 15 then decide (lane < 8) else decide (lane ≤ 8) && lane != x.spared.toNat

/-- R425: a CRC failure of a lane counted in its window of 2^24 router cycles, `window` being the number of that window;
the lane's limit starts a retrain. Counts of earlier windows go. -/
def Port.laneFailure (x : Port) (window lane : Nat) : Port :=
  let k := window * 16 + lane
  let n := (tabFind x.failures k).getD 0 + 1
  if !x.carries lane then x
  else
    let x := { x with failures := tabSet (x.failures.filter (fun e => e.1 / 16 == window)) k n }
    if x.lanelim.toNat ≤ n then { x with state := 1, failing := some lane } else x

/-- R424: what a flit that a port receives changes there: its acknowledgement, then, where it is the next expected and finds room,
the number expected; else it is a copy, or a replay is asked for. -/
def Port.receive (x : Port) (seq ack : BitVec 16) (crcOk room : Bool) (window lane : Nat) : Port :=
  if !crcOk then (x.laneFailure window lane).ask
  else
    let x := x.acknowledge ack
    if seq = x.expect ∧ room = true then { x with expect := x.expect + 1, asked := false }
    else if x.delivered seq then x
    else x.ask

/-- R424: both ends of a port's link are up: the panel at the other end. -/
def State.linked (s : State) (p n : Nat) : Option Nat :=
  match portPeer p n with
  | some q => if (s.port p n).state = 2 ∧ (s.port q (peerPort n)).state = 2 then some q else none
  | none => none

/-- R424: the flit of a sequence number in a port's replay buffer. -/
def Port.kept (x : Port) (n : BitVec 16) : Option Flit := x.buffer.find? (·.seq == n)

/-- R424, R426: a flit delivered: what it carries for another panel goes on from here. -/
def State.deliverFlit (s : State) (p : Nat) (f : Flit) : State :=
  if f.load.panel = p then s
  else
    let y := s.panel p
    s.setPanel p { y with outbound := y.outbound ++ [f.load] }

/-- R424: a flit that an end has sent bears the acknowledgement E − 1 of its receiver as it was then. -/
def Port.bore (x : Port) (ack : BitVec 16) : Bool := decide ((x.expect - 1 - ack).toNat < 4096)

/-- R424. A flit that the port at the other end keeps arrives, or arrives again, at a port that is up; it bears an
acknowledgement that that end has sent. A number that the other end does not keep is that of a copy of a flit that it did. No
other flit arrives whole. The windows of R425 are counted by the model's steps (log 21). -/
def execFlit (p port : Nat) (seq ack : BitVec 16) (crcOk room : Bool) (lane : Nat) (s : State) : Out State :=
  .next (match s.linked p port with
    | none => s
    | some q =>
      let x := s.port p port
      let y := s.port q (peerPort port)
      let t := s.setPort p port (x.receive seq ack crcOk room (s.tick / 2 ^ 24) lane)
      if crcOk = true ∧ y.bore ack = false then s
      else match y.kept seq with
        | some f => if crcOk = true ∧ room = true ∧ seq = x.expect then t.deliverFlit p f else t
        | none => if crcOk = true ∧ x.delivered seq = false then s else t)

/-- R424. The request of the other end for a replay from E, the number that it expects: what precedes E has arrived; the rest is
replayed in order. -/
def execReplayRequest (p port : Nat) (e : BitVec 16) (s : State) : Out State :=
  .next (match s.linked p port with
    | some q => if (s.port q (peerPort port)).asked = true ∧ (s.port q (peerPort port)).expect = e
        then s.setPort p port ((s.port p port).acknowledge (e - 1)) else s
    | none => s)

/-- R424. A port sends an idle flit, which bears the acknowledgement E − 1 of its receiver to the other end; it takes no sequence
number and carries no message. -/
def execIdleFlit (p port : Nat) (s : State) : Out State :=
  .next (match s.linked p port with
    | some q => s.setPort q (peerPort port) ((s.port q (peerPort port)).acknowledge ((s.port p port).expect - 1))
    | none => s)

/-! ### Routes (R426) -/

/-- R426: the ports of the pair of panels that a port serves: four in a row (log 22). -/
def pairPorts (n : Nat) : List Nat := (List.range 4).map (fun i => n / 4 * 4 + i)

/-- R426: a port of panel p that leads to panel q is not down. -/
def State.pairUp (s : State) (p q : Nat) : Bool := (pairPorts (pairBase p q)).any (fun m => (s.port p m).state != 0)

/-- R426: the panel that what goes from p to q passes next: q, or, with every port of the pair down, a third panel of the domain
that has ports to both (log 22). -/
def State.nextHop (s : State) (p q : Nat) : Nat :=
  if s.pairUp p q then q
  else ((List.range 8).find? (fun r => r != p && r != q && (s.panel r).inDomain && s.pairUp p r && s.pairUp r q)).getD q

/-- R426: the port that a parcel of panel p takes: that of its route to the next panel, or the one the route has moved to. -/
def State.portFor (s : State) (p : Nat) (t : Transit) : Nat :=
  let n := pairBase p (s.nextHop p t.panel) + t.route % 4
  (tabFind (s.panel p).routes n).getD n

/-- R424, R426: a new flit with the earliest parcel of a port's routes leaves the port, unless its replay buffer is full. -/
def State.sendFlit (s : State) (p n : Nat) : State :=
  let y := s.panel p
  let x := s.port p n
  match y.outbound.find? (fun t => s.portFor p t == n) with
  | none => s
  | some t =>
    if (s.linked p n).isNone || decide (4096 ≤ x.buffer.length) then s
    else ({ s with panels := tabSet s.panels p { y with outbound := y.outbound.erase t } } : State).setPort p n
      { x with buffer := x.buffer ++ [⟨x.next, t⟩], next := x.next + 1 }

/-- R27, R426: the routes of a port of a pair of panels that went down move to another port of the pair: its unacknowledged flits
leave there again, in order, before anything that came after them. With none left the pair is logged. A port that leads outside
the domain has no pair. -/
def State.movePort (s : State) (p n : Nat) : State :=
  if (portPeer p n).isNone then s else
  let x := s.port p n
  let y := s.panel p
  let s := (s.setPanel p { y with outbound := x.buffer.map (·.load) ++ y.outbound }).setPort p n { x with buffer := [] }
  let y := s.panel p
  match (pairPorts n).find? (fun m => m != n && (s.port p m).state == 2) with
  | some m =>
    let moved := (pairPorts n).filter (fun r => (tabFind y.routes r).getD r == n)
    s.setPanel p { y with routes := moved.foldl (fun l r => tabSet l r m) y.routes }
  | none => s.setPanel p { y with logged := y.logged ++ [n / 4] }

/-- R425. A retrain ends with a number of good lanes: the spare takes the failing lane's place, or the port runs at 4
lanes, or it goes down. The other lanes keep their counts. -/
def execRetrainEnd (p port good : Nat) (s : State) : Out State :=
  .next (
    let x := s.port p port
    if 32 ≤ port ∨ x.state ≠ 1 then s
    else
      let y := { x with failing := none, failures := x.failures.filter (fun e => some (e.1 % 16) != x.failing) }
      if good < 4 then (s.setPort p port { y with lanes := 0, state := 0 }).movePort p port
      else if x.spared = 15 ∧ x.lanes = 8 then
        s.setPort p port { y with spared := BitVec.ofNat 4 (x.failing.getD 15), state := 2 }
      else s.setPort p port { y with lanes := 4, state := 2 })

/-! ### Tray removal (R427) -/

/-- R427 step 1: a live graph has a node on the panel. -/
def State.graphsOn (s : State) (p : Nat) : Bool := s.graphs.any (fun g => g.2.slots.any (fun e => e.1 / 4096 == p))

/-- The panel of the agent that issued a request. -/
def Req.panel (r : Req) : Nat :=
  if Config.fwKey ≤ r.owner ∧ r.owner < orphan then agentPanel r.owner else (refSlot r.nref).1 / 4096

/-- R427 step 3: requests are in flight to or from the panel. -/
def State.trafficOf (s : State) (p : Nat) : Bool :=
  !(s.panel p).outbound.isEmpty || s.msgs.any (fun m => m.lane == 0 && ((agentPanel m.src == p) != (m.dst / 4096 == p))) ||
    s.reqs.any (fun r => r.routes.any (fun t => (t.dt / 4096 == p) != (r.panel == p)) ||
      r.elems.any (fun e => match e.home with
        | .lm _ _ => false
        | .phys pa => decide (pa < 2 ^ 45) && ((pa / 2 ^ 42 == p) != (r.panel == p)))) ||
    s.copies.any (fun c => c.2.dt / 4096 == p || c.2.flight.any (fun u => match u.home with
      | .lm dt _ => dt / 4096 == p
      | .phys pa => decide (pa < 2 ^ 45) && pa / 2 ^ 42 == p))

/-- R427. The next step of the shrink of a panel: its queues stop; it leaves the domain; its ports quiesce and the tray
shows SAFE. -/
def execPanelShrink (p : Nat) (s : State) : Out State :=
  .next (
    let x := s.panel p
    if x.state = .ready then s.setPanel p { x with state := .shrunk }
    else if x.state ≠ .shrunk ∨ x.safe = true then s
    else if x.joined then (if s.graphsOn p then s else s.setPanel p { x with inDomain := false, alone := false })
    else if s.trafficOf p || x.ports.any (fun e => !e.2.buffer.isEmpty || e.2.state == 1) then s
    else s.setPanel p { x with
      ports := x.ports.map (fun e => if e.2.state = 2 then (e.1, { e.2 with state := 3 }) else e), safe := true })

/-- R427. A booted panel is brought back into the domain by the steps in reverse. -/
def execTrayAddBack (p : Nat) (s : State) : Out State :=
  .next (
    let x := s.panel p
    if (x.state = .ready ∨ x.state = .shrunk) ∧ x.inDomain = false ∧ 0 < x.vts then s.setPanel p { x with
      ports := x.ports.map (fun e => if e.2.state = 3 then (e.1, { e.2 with state := 2 }) else e)
      safe := false
      inDomain := true
      alone := false
      state := .ready }
    else s)

/-- R427. Power is removed from a tray that shows SAFE: what is not kept without power is gone. -/
def execPowerRemoval (p : Nat) (s : State) : Out State :=
  .next (
    let x := s.panel p
    if x.safe then
      let s : State := { s with
        acts := s.acts.filter (fun e => if e.2.fw then (e.1 - Config.fwKey) / 256 != p else e.2.dt / 4096 != p)
        tiles := s.tiles.filter (fun e => e.1 % Config.replicaBase / 4096 != p)
        dies := s.dies.filter (fun e => e.1 / 64 != p)
        fws := s.fws.map (fun e => if e.1 / 256 = p then
          (e.1, { FwCore.empty with stopped := true, excluded := e.2.excluded, image := e.2.image }) else e)
        phys := s.phys.filter (fun e => e.1 / 2 ^ 42 != p && e.1 / 2 ^ 42 != 64 + p)
        keys := s.keys.filter (fun e => e.1 / 2 ^ 35 != p)
        poison := s.poison.filter (fun l => l / 2 ^ 35 != p)
        pts := s.pts.map (fun e => if e.1 / 4096 = p then
          (e.1, { Pt.spare (e.1 % 4096) with ageing := e.2.ageing, role := if e.2.role = .retired then .retired else .spare }) else e) }
      s.setPanel p { Panel.empty with
        boots := x.boots
        bootRec := x.bootRec
        bootFull := x.bootFull
        storedMap := x.storedMap
        fieldLog := x.fieldLog
        portsFailed := x.portsFailed
        retired := x.retired
        fused := x.fused
        fusedKey := x.fusedKey
        second := x.second }
    else s)

/-! ### Boot (R17, R430 to R433) -/

/-- R430: results of a step in the boot record. -/
def bootPassed : Nat := 1
/-- R430. -/
def bootFailed : Nat := 2
/-- R430. -/
def bootSkipped : Nat := 3
/-- R430. -/
def bootAlternate : Nat := 4

/-- R430: the boot record: the result of each step, 0 for one not run. -/
def bootRecord (l : List Nat) : List (Nat × Nat) := (List.range 10).map (fun i => (i + 1, l.getD i 0))

/-- R17, R430, R433: the PTs of a panel that count as retired: those the field log records, and those of excluded dies. -/
def retiredPts (log : List (Nat × Nat × Nat × List (Nat × Word))) (excluded : List Nat) : List Nat :=
  (List.range 3200).filter (fun n => excluded.contains (n / 80) || log.any (fun e => e.1 == n && e.2.1 == evRetired))

/-- R17: the VT count of a number of retired PTs. -/
def vtCount (retired : Nat) : Nat := min 3000 (40 * ((3160 - retired) / 40))

/-- R17: the PTs bound to VT 0, 1, …: firmware's choice where it is a proper one, else the lowest PTs. -/
def bindingOf (want : List Nat) (n : Nat) (retired : List Nat) : List Nat :=
  let good (k : Nat) : Bool := decide (k < 3200) && !retired.contains k
  if want.length = n ∧ want.Nodup ∧ want.all good = true then want else ((List.range 3200).filter good).take n

/-- R339: the checkpoint partner of VT v under a binding: the next VT in the ring of its die. -/
def ringNext (binding : List Nat) (v : Nat) : Nat :=
  let die := binding.getD v 0 / 80
  let vs := (List.range binding.length).filter (fun u => binding.getD u 0 / 80 == die)
  match (vs.find? (fun u => decide (v < u))), vs with
  | some u, _ => u
  | none, u :: _ => u
  | none, [] => v

/-- R430: a step failed on the previous boot. -/
def Panel.failedStep (x : Panel) (n : Nat) : Bool := x.bootRec.any (fun e => e.1 == n && e.2 == bootFailed)

/-- R434: the bytes of an image that its signature covers: header and body (log 30). -/
def FwImage.signedBytes (x : FwImage) : List Byte := ([x.version, x.length, x.rollback].map (leBytes 8)).flatten ++ x.body

/-- R434: the signature of an image verifies under the key whose digest is fused. -/
def FwImage.verifies (x : FwImage) (fusedKey : BitVec 256) : Bool :=
  decide (Config.digest x.key = fusedKey) && decide (x.signature = Config.imageSignature x.key (Config.digest x.signedBytes))

/-- R434: an image is accepted: its signature verifies and its rollback counter is at least the fused one. -/
def FwImage.accepted (x : FwImage) (fusedKey : BitVec 256) (fused : Nat) : Bool := x.verifies fusedKey && decide (fused ≤ x.rollback)

/-- R434: a panel accepts an image. -/
def Panel.accepts (x : Panel) (i : FwImage) : Bool := i.accepted x.fusedKey x.fused

/-- R434: the stored image of a firmware core of a panel is accepted. -/
def State.imageAccepted (s : State) (p c : Nat) : Bool := (s.panel p).accepts (s.fwCore (p * 256 + c)).image

/-- R430 step 1: the stored image that the management controller runs, the second where it is true: the first, unless step 1
failed on the previous boot, else the second. -/
def State.bootImage (s : State) (p : Nat) (rep : BootReport) : Option Bool :=
  if rep.image = 0 ∧ (s.panel p).failedStep 1 = false ∧ s.imageAccepted p 160 = true then some false
  else if rep.image ≤ 1 ∧ (s.panel p).accepts (s.panel p).second = true then some true
  else none

/-- R430, R434: the stored image that a firmware core loads: the management controller's second, where step 1 passed by it. -/
def State.storedImage (s : State) (fw : Nat) : FwImage :=
  let x := s.panel (fw / 256)
  if fw % 256 = 160 ∧ x.bootRec.contains (1, bootAlternate) = true then x.second else (s.fwCore fw).image

/-- R430 step 2: the I/O dies come up, with accepted images. -/
def State.ioUp (s : State) (p : Nat) (rep : BootReport) : Bool := rep.ioDies && [164, 168, 172].all (s.imageAccepted p)

/-- R430, R434, R435: the dies that step 4 excludes: a firmware core of theirs does not load or has no accepted image, or stopped
three times in an earlier boot. -/
def State.unloadedDies (s : State) (p : Nat) (rep : BootReport) : List Nat :=
  (List.range 40).filter (fun d => rep.unloaded.contains d || [0, 1, 2].any (fun i =>
    !s.imageAccepted p (d * 4 + i) || (s.fwCore (p * 256 + d * 4 + i)).excluded))

/-- R430, R435: the dies that a boot excludes, at step 3 or step 4. -/
def State.excludedDies (s : State) (p : Nat) (rep : BootReport) : List Nat :=
  ((rep.excluded ++ s.unloadedDies p rep).eraseDups).filter (fun d => decide (d < 40))

/-- R430, R432: the boot is a full one. -/
def Panel.fullBoot (x : Panel) : Bool := x.boots == 0 || x.bootFull || x.bootRec.any (fun e => e.2 == bootFailed)

/-- R373: the context that a firmware core starts with; its PC is the physical address of its firmware memory (log 6). -/
def bootContext (k : Nat) : Act :=
  { Act.zero with
    fw := true, place := .slot 0, dt := k / 256 * 4096, tile := k / 256 * 4096, pc := BitVec.ofNat 64 (fwBase k) }

/-- R10, R430: the firmware cores of a panel with their contexts, their images loaded; the management controller runs the image
that step 1 chose. A die that this boot excludes for its stops is tried again at the next (R435). -/
def State.startFirmware (s : State) (p : Nat) (excluded : List Nat) (second : Bool) : State :=
  let cores := ((List.range 40).filter (fun d => !excluded.contains d)).flatMap (fun d => [d * 4, d * 4 + 1, d * 4 + 2]) ++
    [160, 164, 168, 172]
  let s : State := { s with fws := s.fws.map (fun e => if e.1 / 256 = p then (e.1, { e.2 with excluded := false }) else e) }
  cores.foldl (fun s c =>
    let k := p * 256 + c
    let image := if c = 160 ∧ second = true then (s.panel p).second else (s.fwCore k).image
    let s := s.setFw k { FwCore.empty with image := (s.fwCore k).image, loaded := some image }
    let s : State := { s with phys := memWriteBytes s.phys (fwBase k) (image.body.take Config.fwSize) }
    s.setAct (Config.fwKey + k) (bootContext k)) s

/-- R12, R15, R17, R205, R339: the PTs, dies and tiles of a panel as boot leaves them. -/
def State.startTiles (s : State) (p : Nat) (binding retired excluded : List Nat) : State :=
  let roleOf (n : Nat) : Role :=
    if retired.contains n then .retired
    else if binding.contains n then .inService ((binding.takeWhile (· != n)).length) else .spare
  let s := (List.range 3204).foldl (fun s n =>
    let k := p * 4096 + n
    s.setPt k { Pt.spare n with ageing := (s.pt k).ageing, role := if n < 3200 then roleOf n else .retired }) s
  let s := (List.range 40).foldl (fun s d =>
    s.setDie (p * 64 + d) { Die.empty with excluded := excluded.contains d }) s
  (List.range binding.length).foldl (fun s v =>
    s.setTile (p * 4096 + v) { Tile.empty with
      heapBase := 0x1C0000
      heapLim := 0x200000
      partner := BitVec.ofNat 12 (ringNext binding v) }) s

/-- R430 step 7: a port is skipped: it failed on the previous boot, which excluded it. -/
def Panel.skipsPort (x : Panel) (n : Nat) : Bool := x.portsFailed.contains n

/-- R430 step 7: the ports that a boot trains and then excludes. -/
def Panel.portsOut (x : Panel) (rep : BootReport) : List Nat :=
  rep.portsOut.filter (fun n => decide (n < 32) && !x.skipsPort n)

/-- R430 step 7: the ports as their training leaves them; a port excluded or skipped is down. -/
def Panel.bootPorts (x : Panel) (rep : BootReport) : List (Nat × Port) :=
  (List.range 32).map (fun n => (n,
    if rep.portsOut.contains n || x.skipsPort n then { Port.empty with lanes := 0 } else { Port.empty with state := 2 }))

/-- R424, R430 step 7: the other ends of a panel's links after its training: their sequence numbers start again, and their
routes to it are as they were first. -/
def State.trainPeers (s : State) (p : Nat) : State :=
  (List.range 28).foldl (fun s n => match portPeer p n with
    | none => s
    | some q =>
      let m := peerPort n
      let y := s.panel q
      if (tabFind y.ports m).isNone then s
      else
        let x := s.port q m
        let st : BitVec 8 := if (s.port p n).state = 2 then 2 else 0
        (s.setPanel q { y with routes := tabErase y.routes m }).setPort q m
          { x with expect := 0, next := 0, buffer := [], asked := false, state := st, lanes := if st = 2 then 8 else 0 }) s

/-- R430: the result of a step that passed, by its alternate method or not. -/
def bootResult (alternate : Bool) : Nat := if alternate then bootAlternate else bootPassed

/-- R430 to R432: the boot record of a panel that reaches step 6; a fast boot runs no tile test. -/
def State.bootResults (s : State) (p : Nat) (rep : BootReport) (second full ok : Bool) : List Nat :=
  let x := s.panel p
  let hbm := bootResult (x.failedStep 3 || !rep.hbmSlow.isEmpty || !rep.excluded.isEmpty)
  let load := bootResult (x.failedStep 4 || !(s.unloadedDies p rep).isEmpty)
  let tests := if full then bootResult (x.failedStep 5) else 0
  let cxl := if rep.cxl then bootResult (rep.cxlSlow || x.failedStep 8) else bootFailed
  let ports := if (List.range 32).all (x.skipsPort) then bootSkipped
    else bootResult (!rep.portsSlow.isEmpty || !rep.portsOut.isEmpty || !x.portsFailed.isEmpty)
  let join := if x.failedStep 9 then bootSkipped else if 2 ≤ rep.join then bootFailed else bootResult (rep.join == 1)
  [bootResult second, bootPassed, hbm, load, tests] ++
    (if ok then [bootPassed, ports, cxl] ++ (if rep.cxl then [join] ++ (if join = bootFailed then [] else [bootPassed]) else [])
    else [bootFailed, 0, cxl])

/-- R430: a panel whose boot stops at a step. -/
def State.bootStops (s : State) (p : Nat) (l : List Nat) : State :=
  let x := s.panel p
  s.setPanel p { x with state := .off, boots := x.boots + 1, bootRec := bootRecord l, resetsLog := [] }

/-- R430 to R433: the boot of a panel from step 3 on. A fast boot keeps the stored tile map where its PTs are still good. A boot
whose step 8 or 9 fails stops there. -/
def State.bootFrom3 (s : State) (p : Nat) (rep : BootReport) (second : Bool) : State :=
  let x := s.panel p
  let full := x.fullBoot
  let excluded := s.excludedDies p rep
  let results := s.bootResults p rep second full
  let s := s.setPanel p { x with boots := x.boots + 1, resetsLog := [] }
  let s := excluded.foldl (fun s d => s.logField (p * 4096 + d * 80) evExcluded) s
  let known := retiredPts (s.panel p).fieldLog []
  let s := (if full then rep.failed.filter (fun n => decide (n < 3200) && !known.contains n) else []).eraseDups.foldl
    (fun s n => s.logField (p * 4096 + n) evRetired) s
  let retired := retiredPts (s.panel p).fieldLog excluded
  let n := vtCount retired.length
  let ok := decide (40 ≤ n)
  let record := bootRecord (results ok)
  let up := rep.cxl && (results ok).contains bootFailed == false
  if !ok then
    let s := s.startFirmware p excluded second
    s.setPanel p { s.panel p with
      state := if rep.cxl then .serviceOnly else .off, bootRec := record, vts := 0, retired := retired.length, safe := false }
  else
    let stored := !full && bindingOf x.storedMap n retired == x.storedMap
    let binding := bindingOf (if stored then x.storedMap else rep.binding) n retired
    let s := (s.startTiles p binding retired excluded).startFirmware p excluded second
    let y := s.panel p
    let joins := rep.join == 0 && !x.failedStep 9
    let s := s.setPanel p { y with
      state := if up then .ready else .off
      inDomain := up && joins
      alone := up && !joins
      vts := n
      mapGen := 0
      ports := y.bootPorts rep
      outbound := []
      routes := []
      portsFailed := y.portsOut rep
      bootRec := record
      bootFull := if up then false else y.bootFull
      storedMap := binding
      retired := retired.length
      safe := false }
    s.trainPeers p

/-- R430, R431: a panel can boot: it is off, or service-only, which a later boot may leave. -/
def Panel.bootable (x : Panel) : Bool := x.state == .off || x.state == .serviceOnly

/-- R430. The boot steps run in order on a panel that is off or service-only. -/
def execBoot (p : Nat) (rep : BootReport) (s : State) : Out State :=
  .next (
    if !(s.panel p).bootable || decide (8 ≤ p) then s
    else match s.bootImage p rep with
      | none => s.bootStops p [bootFailed]
      | some second =>
        if s.ioUp p rep then s.bootFrom3 p rep second else s.bootStops p [bootResult second, bootFailed])

/-- R430, R431: what the host can read of a panel's boots: the boot record with its resets, the steps that failed, the count of
retired PTs, the field log, and the ageing counters of a PT (log 95). -/
structure HostStatus where
  bootRec  : List (Nat × Nat)
  resets   : List Nat
  failed   : List Nat
  retired  : Nat
  fieldLog : List (Nat × Nat × Nat × List (Nat × Word))
deriving DecidableEq, Repr

/-- R430, R431: the host-readable status of a panel. -/
def State.hostStatus (s : State) (p : Nat) : HostStatus :=
  let x := s.panel p
  ⟨x.bootRec, x.resetsLog, (x.bootRec.filter (fun e => e.2 == bootFailed)).map (·.1), x.retired, x.fieldLog⟩

/-- R431: ageing counter i of a PT of a panel as the host reads it. -/
def State.hostAgeing (s : State) (p pt i : Nat) : Word := s.ageing (p * 4096 + pt) i

/-! ### Power capping (R428, R429) -/

/-- R428, R429: a millisecond of a panel has passed: its draw is averaged anew (log 31), and the draw that the cap grants rises by
RAMP at most, up to CAPW; under the brake it stays at what is drawn (log 32). -/
def Panel.measured (x : Panel) (tick : Nat) : Panel :=
  let d := Config.draw tick
  let up := min x.capw.toNat (x.granted.toNat + x.ramp.toNat)
  { x with
    draw := d
    limited := Config.limited tick
    granted := BitVec.ofNat 16 (if x.brake then min x.granted.toNat (min x.capw.toNat d.toNat) else up) }

/-- R428: a cap clamped to 2,000 to 16,000 W. -/
def clampCap (v : BitVec 16) : BitVec 16 := if v.toNat < 2000 then 2000 else if 16000 < v.toNat then 16000 else v

/-- R429. A write to CAPW. -/
def execCapw (p : Nat) (v : BitVec 16) (s : State) : Out State :=
  .next (s.setPanel p { s.panel p with capw := clampCap v })

/-- R429. A write to SWBRAKE. -/
def execSwbrake (p : Nat) (on : Bool) (s : State) : Out State := .next (s.setPanel p { s.panel p with swbrake := on })

/-- R429. A change of the brake input. -/
def execBrkpin (p : Nat) (on : Bool) (s : State) : Out State := .next (s.setPanel p { s.panel p with brkpin := on })

/-! ### Host requests (R418 to R420, R436) -/

/-- R418: the device-physical address of a host request: an address that an HDM decoder maps, or the address itself (log 85). -/
def Panel.hostAddress (x : Panel) (a : Nat) : Nat :=
  match x.hdm.find? (fun d => decide (d.2.1 ≤ a) && decide (a < d.2.1 + d.2.2.2)) with
  | some d => d.2.2.1 + (a - d.2.1)
  | none => a

/-- The lines of n bytes of physical memory. -/
def linesOf (pa n : Nat) : List Nat := (List.range ((pa + n - 1) / 128 + 1 - pa / 128)).map (pa / 128 + ·)

/-- R418: the panel after host requests have reached some lines: the host may cache those of HBM that it reads, and has taken its
own back from the bridges. -/
def Panel.hostReached (x : Panel) (ls : List Nat) (read : Bool) : Panel :=
  { x with
    hostLines := if read then (x.hostLines ++ ls.filter (fun l => decide (128 * l < 2 ^ 45))).eraseDups else x.hostLines
    bridgeLines := x.bridgeLines.filter (fun l => !ls.contains l) }

/-- R153, R418, R419. A host request is performed at its bridge, unless it is held at a frozen page: a write takes effect; a read
returns bytes to the host, or the data-error response where a line is poisoned. A line that host requests reach is in plaintext
(key id 0). -/
def execHostRequest (p : Nat) (req : HostAccess) (s : State) : Out State :=
  .next (
    let x := s.panel p
    let pa := x.hostAddress req.addr
    let n := if req.write then req.data.length else req.len
    let ls := linesOf pa n
    if x.state = .off ∨ n = 0 ∨ !(s.backed p pa && s.backed p (pa + n - 1)) ∨ ls.any (fun l => s.frozenAt (128 * l)) then s
    else
      let s := s.setPanel p (x.hostReached ls (!req.write))
      if req.write then s.perform 0 [(.phys pa, req.data)]
      else
        let bytes := (List.range n).map (fun i => s.physByte 0 (pa + i))
        s.setPanel p { s.panel p with answers := x.answers ++ [if ls.any s.poison.contains then none else some bytes] })

/-- R419, R420. The host asks firmware to assign a queue's owner or to write a bridge's host ranges. -/
def execMailboxRequest (p : Nat) (req : MailboxRequest) (s : State) : Out State :=
  .next (
    let x := s.panel p
    match req with
    | .assignQueue q key asid enable =>
      if x.state = .ready ∧ q < 1024 then
        s.setQueue p q { s.queue p q with key := key, asid := asid, enable := enable, lock := true }
      else s
    | .unlockQueue q =>
      if x.state = .ready ∧ q < 1024 then s.setQueue p q { s.queue p q with lock := false } else s
    | .hostRanges b l =>
      if x.state ≠ .off ∧ b < 4 ∧ l.length ≤ 16 ∧ l.all (fun r => r.1 % 2 ^ 16 == 0 && r.2 % 2 ^ 16 == 0) = true then
        s.setPanel p { x with hostRanges := tabSet x.hostRanges b l }
      else s)

/-- The bytes over which a digest of some records is taken: the records as the model holds them. -/
def recordBytes (l : List Nat) : List Byte := (l.map (leBytes 8)).flatten

/-- R434: the bytes of an image: header, body and signature (log 30). -/
def FwImage.bytes (x : FwImage) : List Byte := x.signedBytes ++ x.signature

/-- R436: an attestation report: nonce, part and stepping, digests of the firmware images loaded, of the boot record with its
resets (R435) and of the field log. -/
def State.report (s : State) (p : Nat) (nonce : BitVec 256) : List Byte :=
  let x := s.panel p
  let hash (l : List Byte) : List Byte := leBytes 32 (Config.digest l).toNat
  leBytes 32 nonce.toNat ++ leBytes 4 0x00B00040 ++
    ((s.fws.filter (fun e => e.1 / 256 == p)).flatMap (fun e => e.2.loaded.toList.flatMap (fun i => hash i.bytes))) ++
    hash (recordBytes (x.bootRec.flatMap (fun e => [e.1, e.2]) ++ x.resetsLog)) ++
    hash (recordBytes (x.fieldLog.flatMap (fun e => [e.1, e.2.1, e.2.2.1] ++ e.2.2.2.flatMap (fun c => [c.1, c.2.toNat]))))

/-- R436. An attestation request returns a signed report. -/
def execAttestationRequest (p : Nat) (nonce : BitVec 256) (s : State) : Out State :=
  .next (
    let x := s.panel p
    if x.state = .off then s
    else
      let r := s.report p nonce
      s.setPanel p { x with reports := x.reports ++ [r ++ Config.signature r] })

/-- R5, R420: the doubleword at 0x38 of a notify page as the host writes it: its fields are RWL, LOCK among them. -/
def Queue.writeOwner (x : Queue) (v : Word) : Queue :=
  if x.lock then x
  else { x with key := v.setWidth 8, asid := v.extractLsb' 8 12, enable := v.getLsbD 62, lock := v.getLsbD 63 }

/-- R420: a notify page's doubleword without behaviour of its own written; SQBASE and CQBASE keep what is written, aligned or not
(log 73). -/
def Queue.write (x : Queue) (off : Nat) (v : Word) : Queue :=
  match off with
  | 0x00 => { x with sqbase := v.toNat % 2 ^ 56 }
  | 0x08 => { x with sqlog2 := v.setWidth 4, cqlog2 := v.extractLsb' 16 4 }
  | 0x10 => { x with cqbase := v.toNat % 2 ^ 56 }
  | 0x28 => { x with msivec := v.setWidth 11, msien := v.getLsbD 11 }
  | 0x38 => x.writeOwner v
  | _ => x

/-- R5, R420, R426, R428, R432. A host write to a register of BAR 2 sets its writable fields. -/
def execRegisterWrite (p off : Nat) (v : BitVec 64) (s : State) : Out State :=
  .next (
    let x := s.panel p
    if x.state = .off then s
    else if off = 0x1000 then s.setPanel p { x with capw := clampCap (v.setWidth 16), ramp := v.extractLsb' 16 16 }
    else if off = 0x1010 then s.setPanel p { x with swbrake := v.getLsbD 0, pinen := v.getLsbD 1 }
    else if off = 0x3000 then s.setPanel p { x with bootFull := v.getLsbD 0 }
    else if 0x2000 ≤ off ∧ off < 0x2100 ∧ off % 8 = 0 then
      s.setPort p ((off - 0x2000) / 8) { s.port p ((off - 0x2000) / 8) with lanelim := v.extractLsb' 8 16 }
    else if 0x100000 ≤ off ∧ off < 0x100000 + 0x10000 * 1024 ∧ x.state ≠ .serviceOnly then
      let q := (off - 0x100000) / 0x10000
      s.setQueue p q ((s.queue p q).write (off % 0x10000) v)
    else s)

/-- R420: what a doubleword of a queue's notify page reads; offsets that are not listed read 0. -/
def Queue.read (x : Queue) (off : Nat) : Word :=
  match off with
  | 0x00 => BitVec.ofNat 64 x.sqbase
  | 0x08 => (0 : BitVec 44) ++ x.cqlog2 ++ (0 : BitVec 12) ++ x.sqlog2
  | 0x10 => BitVec.ofNat 64 x.cqbase
  | 0x18 => x.sqhead ++ x.sqtail
  | 0x20 => x.cqhead ++ x.cqtail
  | 0x28 => (0 : BitVec 52) ++ BitVec.ofBool x.msien ++ x.msivec
  | 0x30 => x.qstat.setWidth 64
  | 0x38 => BitVec.ofBool x.lock ++ BitVec.ofBool x.enable ++ (0 : BitVec 42) ++ x.asid ++ x.key
  | _ => 0

/-- R426: the port status doubleword. -/
def Port.read (x : Port) : Word :=
  x.state ++ x.replays ++ x.lanelim ++ x.spared ++ BitVec.ofNat 4 x.lanes

/-- R5, R420, R426, R428, R431, R432: what a register of BAR 2 returns to the host; a read changes nothing of the device. -/
def State.registerRead (s : State) (p off : Nat) : Word :=
  let x := s.panel p
  if off = 0x1000 then (0 : BitVec 32) ++ x.ramp ++ x.capw
  else if off = 0x1008 then (0 : BitVec 45) ++ BitVec.ofBool x.brkpin ++ BitVec.ofBool x.brake ++
    BitVec.ofBool x.limited ++ x.draw
  else if off = 0x1010 then (0 : BitVec 62) ++ BitVec.ofBool x.pinen ++ BitVec.ofBool x.swbrake
  else if off = 0x3000 then (BitVec.ofBool x.bootFull).setWidth 64
  else if 0x2000 ≤ off ∧ off < 0x2100 ∧ off % 8 = 0 then (s.port p ((off - 0x2000) / 8)).read
  else if 0x100000 ≤ off ∧ off < 0x100000 + 0x10000 * 1024 then
    let q := s.queue p ((off - 0x100000) / 0x10000)
    { q with enable := q.enable && x.state != PanelState.serviceOnly }.read (off % 0x10000)
  else 0

/-! ### Errors, debugger, firmware reset (R158, R394, R435) -/

/-- R134: the PT beside the L2 slice that owns a line of HBM. -/
def linePt (line : Nat) : Nat := line / 2 ^ 35 % 8 * 4096 + line / 2 ^ 29 % 64 * 80 + line % 2 ^ 29 % 80

/-- R158, R283, R356, R357. A memory error: corrected and counted, or its word, slice or line is poisoned and a targeted self-test
follows: of the tile, that of a Replica PT too, or of the PT beside the slice that owns the line (DEDUCED, log 101). -/
def execEccError (place : EccPlace) (correctable : Bool) (s : State) : Out State :=
  .next (
    let count (s : State) (k : Nat) : State := s.setPt k ((s.pt k).raiseAgeing 18)
    match place with
    | .lmWord dt w =>
      if s.tileOn (s.ptKey dt) ≠ some dt ∨ Config.lmSize / 8 ≤ w then s
      else if correctable then count s (s.ptKey dt)
      else
        let t := s.tile dt
        (s.setTile dt { t with lmPoison := if t.lmPoison.contains w then t.lmPoison else w :: t.lmPoison }).targetTest (s.ptKey dt)
    | .tsSlice dt w =>
      if s.tileOn (s.ptKey dt) ≠ some dt ∨ 64 * 65536 ≤ w then s
      else if correctable then count s (s.ptKey dt)
      else
        let t := s.tile dt
        (s.setTile dt { t with tsPoison := if t.tsPoison.contains w then t.tsPoison else w :: t.tsPoison }).targetTest (s.ptKey dt)
    | .line n =>
      if correctable then (if inHbm (128 * n) then count s (linePt n) else s)
      else
        let s := { s with poison := if s.poison.contains n then s.poison else n :: s.poison }
        if inHbm (128 * n) then s.targetTest (linePt n) else s)

/-- R394. The debugger triggers or releases a halt group. -/
def execDebuggerTrigger (p g : Nat) (rel : Bool) (s : State) : Out State :=
  .next (if g < 16 ∧ (s.panel p).state ≠ .off then s.setHalt p g (!rel) else s)

/-- R435: a die whose firmware core stopped three times: its graphs are cancelled and the next boot excludes it. -/
def State.endDie (s : State) (fw : Nat) : State :=
  let die := fw / 256 * 64 + fw % 256 / 4
  let s := s.setFw fw { s.fwCore fw with excluded := true }
  (s.graphs.filter (fun g => g.2.slots.any (fun e => (s.ptOf e.1).isSome && s.dieOf e.1 == die))).foldl
    (fun s g => match tabFind s.graphs g.1 with
      | some x => s.cancelGraph g.1 x
      | none => s) s

/-- R434, R435. A stopped firmware core is reset and its image reloaded, if it is still accepted, unless the core has stopped
three times in this boot. -/
def execFirmwareCoreReset (fw : Nat) (s : State) : Out State :=
  .next (
    let f := s.fwCore fw
    if !f.stopped || (tabFind s.fws fw).isNone || f.excluded then s
    else if 2 ≤ f.resets then s.endDie fw
    else if !(s.panel (fw / 256)).accepts (s.storedImage fw) then s
    else
      let x := s.panel (fw / 256)
      let s := s.setPanel (fw / 256) { x with resetsLog := x.resetsLog ++ [fw] }
      let base := fwBase fw
      let rest := s.phys.filter (fun e => decide (e.1 < base) || decide (base + Config.fwSize ≤ e.1))
      let s : State := { s with phys := memWriteBytes rest base ((s.storedImage fw).body.take Config.fwSize) }
      let s := s.setFw fw { FwCore.empty with
        image := f.image
        loaded := some (s.storedImage fw)
        resets := f.resets + 1
        retained := f.retained }
      s.setAct (Config.fwKey + fw) (bootContext fw))

end Sys2Proof.Machine
end

