-- ==== Sys2Proof/Machine/Integer.lean ====
section
/-! DEFINITION. The scalar integer instructions (R86 to R97) and their compact forms. -/

namespace Sys2Proof.Machine

/-- R90. wd := A + B. -/
def execAdd (d : BitVec 5) (a : BitVec 5) (b : BitVec 5) (w : Bool) (s : State) : Out State :=
  pureInstr (.int .add d a b w) s

/-- R90. wd := A − B. -/
def execSub (d : BitVec 5) (a : BitVec 5) (b : BitVec 5) (w : Bool) (s : State) : Out State :=
  pureInstr (.int .sub d a b w) s

/-- R90. wd := A AND B. -/
def execAnd (d : BitVec 5) (a : BitVec 5) (b : BitVec 5) (w : Bool) (s : State) : Out State :=
  pureInstr (.int .and d a b w) s

/-- R90. wd := A OR B. -/
def execOr (d : BitVec 5) (a : BitVec 5) (b : BitVec 5) (w : Bool) (s : State) : Out State :=
  pureInstr (.int .or d a b w) s

/-- R90. wd := A XOR B. -/
def execXor (d : BitVec 5) (a : BitVec 5) (b : BitVec 5) (w : Bool) (s : State) : Out State :=
  pureInstr (.int .xor d a b w) s

/-- R90. wd := A AND NOT B. -/
def execAndn (d : BitVec 5) (a : BitVec 5) (b : BitVec 5) (w : Bool) (s : State) : Out State :=
  pureInstr (.int .andn d a b w) s

/-- R90. Shifts A left by the low bits of B. -/
def execShl (d : BitVec 5) (a : BitVec 5) (b : BitVec 5) (w : Bool) (s : State) : Out State :=
  pureInstr (.int .shl d a b w) s

/-- R90. Shifts A right logically. -/
def execShr (d : BitVec 5) (a : BitVec 5) (b : BitVec 5) (w : Bool) (s : State) : Out State :=
  pureInstr (.int .shr d a b w) s

/-- R90. Shifts A right arithmetically. -/
def execSha (d : BitVec 5) (a : BitVec 5) (b : BitVec 5) (w : Bool) (s : State) : Out State :=
  pureInstr (.int .sha d a b w) s

/-- R90. Rotates A right within N bits. -/
def execRor (d : BitVec 5) (a : BitVec 5) (b : BitVec 5) (w : Bool) (s : State) : Out State :=
  pureInstr (.int .ror d a b w) s

/-- R90. wd := low N bits of A × B. -/
def execMul (d : BitVec 5) (a : BitVec 5) (b : BitVec 5) (w : Bool) (s : State) : Out State :=
  pureInstr (.int .mul d a b w) s

/-- R90. High half of the signed product. -/
def execMulh (d : BitVec 5) (a : BitVec 5) (b : BitVec 5) (w : Bool) (s : State) : Out State :=
  pureInstr (.int .mulh d a b w) s

/-- R90. High half of the unsigned product. -/
def execMulhu (d : BitVec 5) (a : BitVec 5) (b : BitVec 5) (w : Bool) (s : State) : Out State :=
  pureInstr (.int .mulhu d a b w) s

/-- R91. Signed quotient rounded toward zero, with fixed results for zero divisor and overflow. -/
def execDiv (d : BitVec 5) (a : BitVec 5) (b : BitVec 5) (w : Bool) (s : State) : Out State :=
  pureInstr (.int .div d a b w) s

/-- R91. Unsigned quotient. -/
def execDivu (d : BitVec 5) (a : BitVec 5) (b : BitVec 5) (w : Bool) (s : State) : Out State :=
  pureInstr (.int .divu d a b w) s

/-- R91. Signed remainder with the sign of the dividend. -/
def execRem (d : BitVec 5) (a : BitVec 5) (b : BitVec 5) (w : Bool) (s : State) : Out State :=
  pureInstr (.int .rem d a b w) s

/-- R91. Unsigned remainder. -/
def execRemu (d : BitVec 5) (a : BitVec 5) (b : BitVec 5) (w : Bool) (s : State) : Out State :=
  pureInstr (.int .remu d a b w) s

/-- R90. Signed minimum. -/
def execMin (d : BitVec 5) (a : BitVec 5) (b : BitVec 5) (w : Bool) (s : State) : Out State :=
  pureInstr (.int .min d a b w) s

/-- R90. Signed maximum. -/
def execMax (d : BitVec 5) (a : BitVec 5) (b : BitVec 5) (w : Bool) (s : State) : Out State :=
  pureInstr (.int .max d a b w) s

/-- R90. Unsigned minimum. -/
def execMinu (d : BitVec 5) (a : BitVec 5) (b : BitVec 5) (w : Bool) (s : State) : Out State :=
  pureInstr (.int .minu d a b w) s

/-- R90. Unsigned maximum. -/
def execMaxu (d : BitVec 5) (a : BitVec 5) (b : BitVec 5) (w : Bool) (s : State) : Out State :=
  pureInstr (.int .maxu d a b w) s

/-- R90. 1 if A < B signed, else 0. -/
def execSlt (d : BitVec 5) (a : BitVec 5) (b : BitVec 5) (w : Bool) (s : State) : Out State :=
  pureInstr (.int .slt d a b w) s

/-- R90. 1 if A < B unsigned, else 0. -/
def execSltu (d : BitVec 5) (a : BitVec 5) (b : BitVec 5) (w : Bool) (s : State) : Out State :=
  pureInstr (.int .sltu d a b w) s

/-- R90. 1 if A = B, else 0. -/
def execSeq (d : BitVec 5) (a : BitVec 5) (b : BitVec 5) (w : Bool) (s : State) : Out State :=
  pureInstr (.int .seq d a b w) s

/-- R90. Counts leading zero bits of A. -/
def execClz (d : BitVec 5) (a : BitVec 5) (w : Bool) (s : State) : Out State :=
  pureInstr (.int .clz d a 0 w) s

/-- R90. Counts trailing zero bits of A. -/
def execCtz (d : BitVec 5) (a : BitVec 5) (w : Bool) (s : State) : Out State :=
  pureInstr (.int .ctz d a 0 w) s

/-- R90. Counts set bits of A. -/
def execPopc (d : BitVec 5) (a : BitVec 5) (w : Bool) (s : State) : Out State :=
  pureInstr (.int .popc d a 0 w) s

/-- R90. Reverses the bits of A. -/
def execBrev (d : BitVec 5) (a : BitVec 5) (w : Bool) (s : State) : Out State :=
  pureInstr (.int .brev d a 0 w) s

/-- R90. Reverses the bytes of A. -/
def execBswap (d : BitVec 5) (a : BitVec 5) (w : Bool) (s : State) : Out State :=
  pureInstr (.int .bswap d a 0 w) s

/-- R90. Sign-extends the low 8, 16 or 32 bits of wa. -/
def execSext (d : BitVec 5) (a : BitVec 5) (b : BitVec 5) (s : State) : Out State :=
  pureInstr (.int .sext d a b false) s

/-- R90. Zero-extends the low 8, 16 or 32 bits of wa. -/
def execZext (d : BitVec 5) (a : BitVec 5) (b : BitVec 5) (s : State) : Out State :=
  pureInstr (.int .zext d a b false) s

/-- R90. wd := A + 2B. -/
def execAdds1 (d : BitVec 5) (a : BitVec 5) (b : BitVec 5) (w : Bool) (s : State) : Out State :=
  pureInstr (.int .adds1 d a b w) s

/-- R90. wd := A + 4B. -/
def execAdds2 (d : BitVec 5) (a : BitVec 5) (b : BitVec 5) (w : Bool) (s : State) : Out State :=
  pureInstr (.int .adds2 d a b w) s

/-- R90. wd := A + 8B. -/
def execAdds3 (d : BitVec 5) (a : BitVec 5) (b : BitVec 5) (w : Bool) (s : State) : Out State :=
  pureInstr (.int .adds3 d a b w) s

/-- R92. Builds a tile-window address from a DT and an offset. -/
def execVta (d : BitVec 5) (a : BitVec 5) (b : BitVec 5) (s : State) : Out State :=
  pureInstr (.int .vta d a b false) s

/-- R90. wd := wa if wd ≠ 0, else wb. -/
def execSel (d : BitVec 5) (a : BitVec 5) (b : BitVec 5) (s : State) : Out State :=
  pureInstr (.int .sel d a b false) s

/-- R93. Adds a sign-extended 14-bit immediate. -/
def execAddi (d : BitVec 5) (a : BitVec 5) (imm : BitVec 14) (s : State) : Out State :=
  pureInstr (.imm .addi d a imm) s

/-- R93. ANDs a zero-extended 14-bit immediate. -/
def execAndi (d : BitVec 5) (a : BitVec 5) (imm : BitVec 14) (s : State) : Out State :=
  pureInstr (.imm .andi d a imm) s

/-- R93. ORs a zero-extended 14-bit immediate. -/
def execOri (d : BitVec 5) (a : BitVec 5) (imm : BitVec 14) (s : State) : Out State :=
  pureInstr (.imm .ori d a imm) s

/-- R93. XORs a zero-extended 14-bit immediate. -/
def execXori (d : BitVec 5) (a : BitVec 5) (imm : BitVec 14) (s : State) : Out State :=
  pureInstr (.imm .xori d a imm) s

/-- R95. wd := sext(imm19) << 14. -/
def execLih (d : BitVec 5) (imm : BitVec 19) (s : State) : Out State :=
  pureInstr (.lih d imm) s

/-- R94. Shifts left by an immediate amount. -/
def execShli (d : BitVec 5) (a : BitVec 5) (w : Bool) (amt : BitVec 6) (s : State) : Out State :=
  pureInstr (.shift .shl d a w amt) s

/-- R94. Shifts right logically by an immediate amount. -/
def execShri (d : BitVec 5) (a : BitVec 5) (w : Bool) (amt : BitVec 6) (s : State) : Out State :=
  pureInstr (.shift .shr d a w amt) s

/-- R94. Shifts right arithmetically by an immediate amount. -/
def execShai (d : BitVec 5) (a : BitVec 5) (w : Bool) (amt : BitVec 6) (s : State) : Out State :=
  pureInstr (.shift .sha d a w amt) s

/-- R94. Rotates right by an immediate amount. -/
def execRori (d : BitVec 5) (a : BitVec 5) (w : Bool) (amt : BitVec 6) (s : State) : Out State :=
  pureInstr (.shift .ror d a w amt) s

/-- R96. wd := PC + 2 × sext(imm19). -/
def execAddpc (d : BitVec 5) (imm : BitVec 19) (s : State) : Out State :=
  plainInstr [] [d.toNat] (fun s => .ok (s.setW d (s.here.pc + (imm.signExtend 64 <<< 1)))) s

/-! ### Compact forms (R43, R97): the 32-bit equivalent, followed by PC + 2 -/

/-- R43. A compact register-only operation. -/
def compactInstr (op : PureOp) (s : State) : Out State :=
  issue s (fun s => do
    let t ← withRegs op.reads op.writes (execPure op) s
    return t.done 2)

/-- R43. No effect. -/
def execCNop (s : State) : Out State := issue s (fun s => .ok (s.done 2))

/-- R97. wd := wa. -/
def execCMov (d a : BitVec 4) (s : State) : Out State :=
  compactInstr (.imm .ori (d.setWidth 5) (a.setWidth 5) 0) s

/-- R97. wd := wd + sext(simm8). -/
def execCAddi (d : BitVec 4) (imm : BitVec 8) (s : State) : Out State :=
  compactInstr (.imm .addi (d.setWidth 5) (d.setWidth 5) (imm.signExtend 14)) s

/-- R97. wd := sext(simm8). -/
def execCLi (d : BitVec 4) (imm : BitVec 8) (s : State) : Out State :=
  issue s (fun s => do
    let t ← withRegs [] [d.toNat] (fun s => .ok (s.setW (d.setWidth 5) (imm.signExtend 64))) s
    return t.done 2)

/-- R97. As add. -/
def execCAdd (d a b : BitVec 4) (s : State) : Out State :=
  compactInstr (.int .add (d.setWidth 5) (a.setWidth 5) (b.setWidth 5) false) s

/-- R97. As sub. -/
def execCSub (d a b : BitVec 4) (s : State) : Out State :=
  compactInstr (.int .sub (d.setWidth 5) (a.setWidth 5) (b.setWidth 5) false) s

/-- R97. As shli wd, wd, amt. -/
def execCShli (d : BitVec 4) (amt : BitVec 6) (s : State) : Out State :=
  compactInstr (.shift .shl (d.setWidth 5) (d.setWidth 5) false amt) s

end Sys2Proof.Machine
end

