-- ==== Sys2Proof/Machine/MatrixOps.lean ====
section
/-! DEFINITION. The matrix and tile-store instructions (R296 to R300), majors 0x34 to 0x36. -/

namespace Sys2Proof.Machine

/-- R296. Takes the tile's matrix claim, waiting if another holds it. -/
def execMacq (s : State) : Out State := plainInstr [] [] matAcquire s

/-- R296. Closes open groups and releases the matrix claim. -/
def execMrel (s : State) : Out State := plainInstr [] [] matRelease s

/-- R296. Closes the open group and zeroes an accumulator. -/
def execMzero (a : BitVec 5) (s : State) : Out State :=
  pureInstr (.mzero a) s

/-- R296. Closes the open group and reads an accumulator row into a vector. -/
def execMrd (d : BitVec 5) (a : BitVec 5) (b : BitVec 5) (s : State) : Out State :=
  pureInstr (.mrd d a b) s

/-- R296. Closes the open group and writes an accumulator row from a vector. -/
def execMwr (d : BitVec 5) (a : BitVec 5) (b : BitVec 5) (s : State) : Out State :=
  pureInstr (.mwr d a b) s

/-- R296. Writes an accumulator's B-scale register. -/
def execMscl (d : BitVec 5) (a : BitVec 5) (s : State) : Out State :=
  pureInstr (.mscl d a) s

/-- R297. Reads an accumulator's rerun and group summary. -/
def execMchk (d : BitVec 5) (a : BitVec 5) (s : State) : Out State :=
  pureInstr (.mchk d a) s

/-- R296. Sets the skip pointer e6. -/
def execSset (a : BitVec 5) (s : State) : Out State :=
  pureInstr (.sset a) s

/-- R299. Multiplies A by tile-store B rows into an accumulator's exact K-group. -/
def execMma (d : BitVec 5) (a : BitVec 5) (b : BitVec 5) (fmt : BitVec 4) (inc : Bool) (sp : Bool) (init : Bool) (s : State) : Out State :=
  pureInstr (.mma d a b fmt inc sp init) s

/-- R300. Loads two tile-store rows into a vector. -/
def execTsld (d : BitVec 5) (s : State) : Out State :=
  pureInstr (.tsld d) s

/-- R300. Stores a vector into two tile-store rows. -/
def execTsst (a : BitVec 5) (s : State) : Out State :=
  pureInstr (.tsst a) s

/-- R300. Fills wb row pairs of the tile store with a vector. -/
def execTsfill (a : BitVec 5) (b : BitVec 5) (s : State) : Out State :=
  pureInstr (.tsfill a b) s

end Sys2Proof.Machine
end

