-- ==== Sys2Proof/Machine/Vector.lean ====
section
/-! DEFINITION. The vector instructions of majors 0x28 to 0x2F (R260 to R281). -/

namespace Sys2Proof.Machine

/-- R267. Integer vector add. -/
def execVaddVv (d : BitVec 5) (a : BitVec 5) (b : BitVec 5) (m : BitVec 3) (esz : BitVec 2) (s : State) : Out State :=
  pureInstr (.vint false .add d a b m esz) s

/-- R267. Integer vector subtract. -/
def execVsubVv (d : BitVec 5) (a : BitVec 5) (b : BitVec 5) (m : BitVec 3) (esz : BitVec 2) (s : State) : Out State :=
  pureInstr (.vint false .sub d a b m esz) s

/-- R267. Integer vector multiply. -/
def execVmulVv (d : BitVec 5) (a : BitVec 5) (b : BitVec 5) (m : BitVec 3) (esz : BitVec 2) (s : State) : Out State :=
  pureInstr (.vint false .mul d a b m esz) s

/-- R267. Integer vector signed high multiply. -/
def execVmulhVv (d : BitVec 5) (a : BitVec 5) (b : BitVec 5) (m : BitVec 3) (esz : BitVec 2) (s : State) : Out State :=
  pureInstr (.vint false .mulh d a b m esz) s

/-- R267. Integer vector signed minimum. -/
def execVminVv (d : BitVec 5) (a : BitVec 5) (b : BitVec 5) (m : BitVec 3) (esz : BitVec 2) (s : State) : Out State :=
  pureInstr (.vint false .min d a b m esz) s

/-- R267. Integer vector signed maximum. -/
def execVmaxVv (d : BitVec 5) (a : BitVec 5) (b : BitVec 5) (m : BitVec 3) (esz : BitVec 2) (s : State) : Out State :=
  pureInstr (.vint false .max d a b m esz) s

/-- R267. Integer vector unsigned minimum. -/
def execVminuVv (d : BitVec 5) (a : BitVec 5) (b : BitVec 5) (m : BitVec 3) (esz : BitVec 2) (s : State) : Out State :=
  pureInstr (.vint false .minu d a b m esz) s

/-- R267. Integer vector unsigned maximum. -/
def execVmaxuVv (d : BitVec 5) (a : BitVec 5) (b : BitVec 5) (m : BitVec 3) (esz : BitVec 2) (s : State) : Out State :=
  pureInstr (.vint false .maxu d a b m esz) s

/-- R267. Integer vector AND. -/
def execVandVv (d : BitVec 5) (a : BitVec 5) (b : BitVec 5) (m : BitVec 3) (esz : BitVec 2) (s : State) : Out State :=
  pureInstr (.vint false .and d a b m esz) s

/-- R267. Integer vector OR. -/
def execVorVv (d : BitVec 5) (a : BitVec 5) (b : BitVec 5) (m : BitVec 3) (esz : BitVec 2) (s : State) : Out State :=
  pureInstr (.vint false .or d a b m esz) s

/-- R267. Integer vector XOR. -/
def execVxorVv (d : BitVec 5) (a : BitVec 5) (b : BitVec 5) (m : BitVec 3) (esz : BitVec 2) (s : State) : Out State :=
  pureInstr (.vint false .xor d a b m esz) s

/-- R267. Integer vector shift left. -/
def execVshlVv (d : BitVec 5) (a : BitVec 5) (b : BitVec 5) (m : BitVec 3) (esz : BitVec 2) (s : State) : Out State :=
  pureInstr (.vint false .shl d a b m esz) s

/-- R267. Integer vector logical shift right. -/
def execVshrVv (d : BitVec 5) (a : BitVec 5) (b : BitVec 5) (m : BitVec 3) (esz : BitVec 2) (s : State) : Out State :=
  pureInstr (.vint false .shr d a b m esz) s

/-- R267. Integer vector arithmetic shift right. -/
def execVshaVv (d : BitVec 5) (a : BitVec 5) (b : BitVec 5) (m : BitVec 3) (esz : BitVec 2) (s : State) : Out State :=
  pureInstr (.vint false .sha d a b m esz) s

/-- R267. Integer vector saturating add. -/
def execVaddsatVv (d : BitVec 5) (a : BitVec 5) (b : BitVec 5) (m : BitVec 3) (esz : BitVec 2) (s : State) : Out State :=
  pureInstr (.vint false .addsat d a b m esz) s

/-- R267. Integer vector saturating subtract. -/
def execVsubsatVv (d : BitVec 5) (a : BitVec 5) (b : BitVec 5) (m : BitVec 3) (esz : BitVec 2) (s : State) : Out State :=
  pureInstr (.vint false .subsat d a b m esz) s

/-- R267. Integer vector–scalar add. -/
def execVaddVs (d : BitVec 5) (a : BitVec 5) (b : BitVec 5) (m : BitVec 3) (esz : BitVec 2) (s : State) : Out State :=
  pureInstr (.vint true .add d a b m esz) s

/-- R267. Integer vector–scalar subtract. -/
def execVsubVs (d : BitVec 5) (a : BitVec 5) (b : BitVec 5) (m : BitVec 3) (esz : BitVec 2) (s : State) : Out State :=
  pureInstr (.vint true .sub d a b m esz) s

/-- R267. Integer vector–scalar multiply. -/
def execVmulVs (d : BitVec 5) (a : BitVec 5) (b : BitVec 5) (m : BitVec 3) (esz : BitVec 2) (s : State) : Out State :=
  pureInstr (.vint true .mul d a b m esz) s

/-- R267. Integer vector–scalar signed high multiply. -/
def execVmulhVs (d : BitVec 5) (a : BitVec 5) (b : BitVec 5) (m : BitVec 3) (esz : BitVec 2) (s : State) : Out State :=
  pureInstr (.vint true .mulh d a b m esz) s

/-- R267. Integer vector–scalar signed minimum. -/
def execVminVs (d : BitVec 5) (a : BitVec 5) (b : BitVec 5) (m : BitVec 3) (esz : BitVec 2) (s : State) : Out State :=
  pureInstr (.vint true .min d a b m esz) s

/-- R267. Integer vector–scalar signed maximum. -/
def execVmaxVs (d : BitVec 5) (a : BitVec 5) (b : BitVec 5) (m : BitVec 3) (esz : BitVec 2) (s : State) : Out State :=
  pureInstr (.vint true .max d a b m esz) s

/-- R267. Integer vector–scalar unsigned minimum. -/
def execVminuVs (d : BitVec 5) (a : BitVec 5) (b : BitVec 5) (m : BitVec 3) (esz : BitVec 2) (s : State) : Out State :=
  pureInstr (.vint true .minu d a b m esz) s

/-- R267. Integer vector–scalar unsigned maximum. -/
def execVmaxuVs (d : BitVec 5) (a : BitVec 5) (b : BitVec 5) (m : BitVec 3) (esz : BitVec 2) (s : State) : Out State :=
  pureInstr (.vint true .maxu d a b m esz) s

/-- R267. Integer vector–scalar AND. -/
def execVandVs (d : BitVec 5) (a : BitVec 5) (b : BitVec 5) (m : BitVec 3) (esz : BitVec 2) (s : State) : Out State :=
  pureInstr (.vint true .and d a b m esz) s

/-- R267. Integer vector–scalar OR. -/
def execVorVs (d : BitVec 5) (a : BitVec 5) (b : BitVec 5) (m : BitVec 3) (esz : BitVec 2) (s : State) : Out State :=
  pureInstr (.vint true .or d a b m esz) s

/-- R267. Integer vector–scalar XOR. -/
def execVxorVs (d : BitVec 5) (a : BitVec 5) (b : BitVec 5) (m : BitVec 3) (esz : BitVec 2) (s : State) : Out State :=
  pureInstr (.vint true .xor d a b m esz) s

/-- R267. Integer vector–scalar shift left. -/
def execVshlVs (d : BitVec 5) (a : BitVec 5) (b : BitVec 5) (m : BitVec 3) (esz : BitVec 2) (s : State) : Out State :=
  pureInstr (.vint true .shl d a b m esz) s

/-- R267. Integer vector–scalar logical shift right. -/
def execVshrVs (d : BitVec 5) (a : BitVec 5) (b : BitVec 5) (m : BitVec 3) (esz : BitVec 2) (s : State) : Out State :=
  pureInstr (.vint true .shr d a b m esz) s

/-- R267. Integer vector–scalar arithmetic shift right. -/
def execVshaVs (d : BitVec 5) (a : BitVec 5) (b : BitVec 5) (m : BitVec 3) (esz : BitVec 2) (s : State) : Out State :=
  pureInstr (.vint true .sha d a b m esz) s

/-- R267. Integer vector–scalar saturating add. -/
def execVaddsatVs (d : BitVec 5) (a : BitVec 5) (b : BitVec 5) (m : BitVec 3) (esz : BitVec 2) (s : State) : Out State :=
  pureInstr (.vint true .addsat d a b m esz) s

/-- R267. Integer vector–scalar saturating subtract. -/
def execVsubsatVs (d : BitVec 5) (a : BitVec 5) (b : BitVec 5) (m : BitVec 3) (esz : BitVec 2) (s : State) : Out State :=
  pureInstr (.vint true .subsat d a b m esz) s

/-- R270. Floating-point vector add, RNE. -/
def execVfaddVv (d : BitVec 5) (a : BitVec 5) (b : BitVec 5) (m : BitVec 3) (esz : BitVec 2) (s : State) : Out State :=
  pureInstr (.vfp false .add d a b m esz) s

/-- R270. Floating-point vector subtract. -/
def execVfsubVv (d : BitVec 5) (a : BitVec 5) (b : BitVec 5) (m : BitVec 3) (esz : BitVec 2) (s : State) : Out State :=
  pureInstr (.vfp false .sub d a b m esz) s

/-- R270. Floating-point vector multiply. -/
def execVfmulVv (d : BitVec 5) (a : BitVec 5) (b : BitVec 5) (m : BitVec 3) (esz : BitVec 2) (s : State) : Out State :=
  pureInstr (.vfp false .mul d a b m esz) s

/-- R270. Fused D + A × B. -/
def execVfmaVv (d : BitVec 5) (a : BitVec 5) (b : BitVec 5) (m : BitVec 3) (esz : BitVec 2) (s : State) : Out State :=
  pureInstr (.vfp false .ma d a b m esz) s

/-- R270. Fused D − A × B. -/
def execVfmsVv (d : BitVec 5) (a : BitVec 5) (b : BitVec 5) (m : BitVec 3) (esz : BitVec 2) (s : State) : Out State :=
  pureInstr (.vfp false .ms d a b m esz) s

/-- R270. Fused A × B − D. -/
def execVfnmaVv (d : BitVec 5) (a : BitVec 5) (b : BitVec 5) (m : BitVec 3) (esz : BitVec 2) (s : State) : Out State :=
  pureInstr (.vfp false .nma d a b m esz) s

/-- R271. IEEE minimumNumber per element. -/
def execVfminVv (d : BitVec 5) (a : BitVec 5) (b : BitVec 5) (m : BitVec 3) (esz : BitVec 2) (s : State) : Out State :=
  pureInstr (.vfp false .min d a b m esz) s

/-- R271. IEEE maximumNumber per element. -/
def execVfmaxVv (d : BitVec 5) (a : BitVec 5) (b : BitVec 5) (m : BitVec 3) (esz : BitVec 2) (s : State) : Out State :=
  pureInstr (.vfp false .max d a b m esz) s

/-- R270. Floating-point vector divide. -/
def execVfdivVv (d : BitVec 5) (a : BitVec 5) (b : BitVec 5) (m : BitVec 3) (esz : BitVec 2) (s : State) : Out State :=
  pureInstr (.vfp false .div d a b m esz) s

/-- R270. Floating-point vector square root. -/
def execVfsqrt (d : BitVec 5) (a : BitVec 5) (m : BitVec 3) (esz : BitVec 2) (s : State) : Out State :=
  pureInstr (.vfp false .sqrt d a 0 m esz) s

/-- R273. Bit-exact reciprocal square-root estimate. -/
def execVfrsqe (d : BitVec 5) (a : BitVec 5) (m : BitVec 3) (esz : BitVec 2) (s : State) : Out State :=
  pureInstr (.vfp false .rsqe d a 0 m esz) s

/-- R274. Bit-exact reciprocal estimate. -/
def execVfrcpe (d : BitVec 5) (a : BitVec 5) (m : BitVec 3) (esz : BitVec 2) (s : State) : Out State :=
  pureInstr (.vfp false .rcpe d a 0 m esz) s

/-- R271. Clears the sign bit of each element. -/
def execVfabs (d : BitVec 5) (a : BitVec 5) (m : BitVec 3) (esz : BitVec 2) (s : State) : Out State :=
  pureInstr (.vfp false .abs d a 0 m esz) s

/-- R271. Inverts the sign bit of each element. -/
def execVfneg (d : BitVec 5) (a : BitVec 5) (m : BitVec 3) (esz : BitVec 2) (s : State) : Out State :=
  pureInstr (.vfp false .neg d a 0 m esz) s

/-- R271. Copies the sign of B onto A. -/
def execVfcpysVv (d : BitVec 5) (a : BitVec 5) (b : BitVec 5) (m : BitVec 3) (esz : BitVec 2) (s : State) : Out State :=
  pureInstr (.vfp false .cpys d a b m esz) s

/-- R272. Writes a one-hot class code per element. -/
def execVfclass (d : BitVec 5) (a : BitVec 5) (m : BitVec 3) (esz : BitVec 2) (s : State) : Out State :=
  pureInstr (.vfp false .class d a 0 m esz) s

/-- R270. Floating-point vector–scalar add. -/
def execVfaddVs (d : BitVec 5) (a : BitVec 5) (b : BitVec 5) (m : BitVec 3) (esz : BitVec 2) (s : State) : Out State :=
  pureInstr (.vfp true .add d a b m esz) s

/-- R270. Floating-point vector–scalar subtract. -/
def execVfsubVs (d : BitVec 5) (a : BitVec 5) (b : BitVec 5) (m : BitVec 3) (esz : BitVec 2) (s : State) : Out State :=
  pureInstr (.vfp true .sub d a b m esz) s

/-- R270. Floating-point vector–scalar multiply. -/
def execVfmulVs (d : BitVec 5) (a : BitVec 5) (b : BitVec 5) (m : BitVec 3) (esz : BitVec 2) (s : State) : Out State :=
  pureInstr (.vfp true .mul d a b m esz) s

/-- R270. Fused D + A × scalar. -/
def execVfmaVs (d : BitVec 5) (a : BitVec 5) (b : BitVec 5) (m : BitVec 3) (esz : BitVec 2) (s : State) : Out State :=
  pureInstr (.vfp true .ma d a b m esz) s

/-- R270. Fused D − A × scalar. -/
def execVfmsVs (d : BitVec 5) (a : BitVec 5) (b : BitVec 5) (m : BitVec 3) (esz : BitVec 2) (s : State) : Out State :=
  pureInstr (.vfp true .ms d a b m esz) s

/-- R270. Fused A × scalar − D. -/
def execVfnmaVs (d : BitVec 5) (a : BitVec 5) (b : BitVec 5) (m : BitVec 3) (esz : BitVec 2) (s : State) : Out State :=
  pureInstr (.vfp true .nma d a b m esz) s

/-- R271. minimumNumber with a scalar. -/
def execVfminVs (d : BitVec 5) (a : BitVec 5) (b : BitVec 5) (m : BitVec 3) (esz : BitVec 2) (s : State) : Out State :=
  pureInstr (.vfp true .min d a b m esz) s

/-- R271. maximumNumber with a scalar. -/
def execVfmaxVs (d : BitVec 5) (a : BitVec 5) (b : BitVec 5) (m : BitVec 3) (esz : BitVec 2) (s : State) : Out State :=
  pureInstr (.vfp true .max d a b m esz) s

/-- R270. Floating-point vector–scalar divide. -/
def execVfdivVs (d : BitVec 5) (a : BitVec 5) (b : BitVec 5) (m : BitVec 3) (esz : BitVec 2) (s : State) : Out State :=
  pureInstr (.vfp true .div d a b m esz) s

/-- R271. Copies the sign of a scalar onto each element. -/
def execVfcpysVs (d : BitVec 5) (a : BitVec 5) (b : BitVec 5) (m : BitVec 3) (esz : BitVec 2) (s : State) : Out State :=
  pureInstr (.vfp true .cpys d a b m esz) s

/-- R275. Vector move. -/
def execVmov (d : BitVec 5) (a : BitVec 5) (m : BitVec 3) (esz : BitVec 2) (s : State) : Out State :=
  pureInstr (.vmov .mov d a 0 m esz) s

/-- R275. Broadcasts wb to every element. -/
def execVbcst (d : BitVec 5) (b : BitVec 5) (m : BitVec 3) (esz : BitVec 2) (s : State) : Out State :=
  pureInstr (.vmov .bcst d 0 b m esz) s

/-- R276. Extracts element wb into wd. -/
def execVext (d : BitVec 5) (a : BitVec 5) (b : BitVec 5) (esz : BitVec 2) (s : State) : Out State :=
  pureInstr (.vext d a b esz) s

/-- R276. Inserts wa into element wb of vd. -/
def execVins (d : BitVec 5) (a : BitVec 5) (b : BitVec 5) (esz : BitVec 2) (s : State) : Out State :=
  pureInstr (.vins d a b esz) s

/-- R275. Selects a or b elements by mask. -/
def execVsel (d : BitVec 5) (a : BitVec 5) (b : BitVec 5) (m : BitVec 3) (esz : BitVec 2) (s : State) : Out State :=
  pureInstr (.vmov .sel d a b m esz) s

/-- R275. Permutes by index vector. -/
def execVperm (d : BitVec 5) (a : BitVec 5) (b : BitVec 5) (m : BitVec 3) (esz : BitVec 2) (s : State) : Out State :=
  pureInstr (.vmov .perm d a b m esz) s

/-- R275. Rotates elements by wb. -/
def execVrot (d : BitVec 5) (a : BitVec 5) (b : BitVec 5) (m : BitVec 3) (esz : BitVec 2) (s : State) : Out State :=
  pureInstr (.vmov .rot d a b m esz) s

/-- R275. Interleaves the low halves of va and vb. -/
def execVzip (d : BitVec 5) (a : BitVec 5) (b : BitVec 5) (m : BitVec 3) (esz : BitVec 2) (s : State) : Out State :=
  pureInstr (.vmov .zip d a b m esz) s

/-- R275. Keeps the even elements of va then vb. -/
def execVunzip (d : BitVec 5) (a : BitVec 5) (b : BitVec 5) (m : BitVec 3) (esz : BitVec 2) (s : State) : Out State :=
  pureInstr (.vmov .unzip d a b m esz) s

/-- R275. Writes each element index. -/
def execViota (d : BitVec 5) (m : BitVec 3) (esz : BitVec 2) (s : State) : Out State :=
  pureInstr (.vmov .iota d 0 0 m esz) s

/-- R277. Integer sum reduction. -/
def execVradd (d : BitVec 5) (a : BitVec 5) (m : BitVec 3) (esz : BitVec 2) (s : State) : Out State :=
  pureInstr (.vred .add d a m esz) s

/-- R277. Signed maximum reduction. -/
def execVrmax (d : BitVec 5) (a : BitVec 5) (m : BitVec 3) (esz : BitVec 2) (s : State) : Out State :=
  pureInstr (.vred .max d a m esz) s

/-- R277. Signed minimum reduction. -/
def execVrmin (d : BitVec 5) (a : BitVec 5) (m : BitVec 3) (esz : BitVec 2) (s : State) : Out State :=
  pureInstr (.vred .min d a m esz) s

/-- R277. Unsigned maximum reduction. -/
def execVrmaxu (d : BitVec 5) (a : BitVec 5) (m : BitVec 3) (esz : BitVec 2) (s : State) : Out State :=
  pureInstr (.vred .maxu d a m esz) s

/-- R277. Unsigned minimum reduction. -/
def execVrminu (d : BitVec 5) (a : BitVec 5) (m : BitVec 3) (esz : BitVec 2) (s : State) : Out State :=
  pureInstr (.vred .minu d a m esz) s

/-- R278. Floating-point sum over a fixed pairwise tree. -/
def execVrfadd (d : BitVec 5) (a : BitVec 5) (m : BitVec 3) (esz : BitVec 2) (s : State) : Out State :=
  pureInstr (.vred .fadd d a m esz) s

/-- R278. Floating-point maximum reduction. -/
def execVrfmax (d : BitVec 5) (a : BitVec 5) (m : BitVec 3) (esz : BitVec 2) (s : State) : Out State :=
  pureInstr (.vred .fmax d a m esz) s

/-- R278. Floating-point minimum reduction. -/
def execVrfmin (d : BitVec 5) (a : BitVec 5) (m : BitVec 3) (esz : BitVec 2) (s : State) : Out State :=
  pureInstr (.vred .fmin d a m esz) s

/-- R277. Counts set bits of active elements. -/
def execVpopc (d : BitVec 5) (a : BitVec 5) (m : BitVec 3) (esz : BitVec 2) (s : State) : Out State :=
  pureInstr (.vred .popc d a m esz) s

/-- R277. Lowest index of an active non-zero element. -/
def execVfirst (d : BitVec 5) (a : BitVec 5) (m : BitVec 3) (esz : BitVec 2) (s : State) : Out State :=
  pureInstr (.vred .first d a m esz) s

/-- R279. Integer equal compare into a mask. -/
def execVcmpEq (d : BitVec 5) (a : BitVec 5) (b : BitVec 5) (m : BitVec 3) (esz : BitVec 2) (s : State) : Out State :=
  pureInstr (.vcmp 0 d a b m esz) s

/-- R279. Integer not-equal compare into a mask. -/
def execVcmpNe (d : BitVec 5) (a : BitVec 5) (b : BitVec 5) (m : BitVec 3) (esz : BitVec 2) (s : State) : Out State :=
  pureInstr (.vcmp 1 d a b m esz) s

/-- R279. Signed less-than compare. -/
def execVcmpLt (d : BitVec 5) (a : BitVec 5) (b : BitVec 5) (m : BitVec 3) (esz : BitVec 2) (s : State) : Out State :=
  pureInstr (.vcmp 2 d a b m esz) s

/-- R279. Signed less-or-equal compare. -/
def execVcmpLe (d : BitVec 5) (a : BitVec 5) (b : BitVec 5) (m : BitVec 3) (esz : BitVec 2) (s : State) : Out State :=
  pureInstr (.vcmp 3 d a b m esz) s

/-- R279. Unsigned less-than compare. -/
def execVcmpLtu (d : BitVec 5) (a : BitVec 5) (b : BitVec 5) (m : BitVec 3) (esz : BitVec 2) (s : State) : Out State :=
  pureInstr (.vcmp 4 d a b m esz) s

/-- R279. Unsigned less-or-equal compare. -/
def execVcmpLeu (d : BitVec 5) (a : BitVec 5) (b : BitVec 5) (m : BitVec 3) (esz : BitVec 2) (s : State) : Out State :=
  pureInstr (.vcmp 5 d a b m esz) s

/-- R279. Floating-point equal compare. -/
def execVcmpFeq (d : BitVec 5) (a : BitVec 5) (b : BitVec 5) (m : BitVec 3) (esz : BitVec 2) (s : State) : Out State :=
  pureInstr (.vcmp 8 d a b m esz) s

/-- R279. Floating-point less-than compare. -/
def execVcmpFlt (d : BitVec 5) (a : BitVec 5) (b : BitVec 5) (m : BitVec 3) (esz : BitVec 2) (s : State) : Out State :=
  pureInstr (.vcmp 9 d a b m esz) s

/-- R279. Floating-point less-or-equal compare. -/
def execVcmpFle (d : BitVec 5) (a : BitVec 5) (b : BitVec 5) (m : BitVec 3) (esz : BitVec 2) (s : State) : Out State :=
  pureInstr (.vcmp 10 d a b m esz) s

/-- R279. Floating-point unordered compare. -/
def execVcmpFun (d : BitVec 5) (a : BitVec 5) (b : BitVec 5) (m : BitVec 3) (esz : BitVec 2) (s : State) : Out State :=
  pureInstr (.vcmp 11 d a b m esz) s

/-- R280. md := ma AND mb. -/
def execMand (d : BitVec 5) (a : BitVec 5) (b : BitVec 5) (s : State) : Out State :=
  pureInstr (.mask .and d a b) s

/-- R280. md := ma OR mb. -/
def execMor (d : BitVec 5) (a : BitVec 5) (b : BitVec 5) (s : State) : Out State :=
  pureInstr (.mask .or d a b) s

/-- R280. md := ma XOR mb. -/
def execMxor (d : BitVec 5) (a : BitVec 5) (b : BitVec 5) (s : State) : Out State :=
  pureInstr (.mask .xor d a b) s

/-- R280. md := ma AND NOT mb. -/
def execMandn (d : BitVec 5) (a : BitVec 5) (b : BitVec 5) (s : State) : Out State :=
  pureInstr (.mask .andn d a b) s

/-- R280. md := NOT ma. -/
def execMnot (d : BitVec 5) (a : BitVec 5) (s : State) : Out State :=
  pureInstr (.mask .not d a 0) s

/-- R280. md := the lowest min(wa, 64) bits set. -/
def execMfirstn (d : BitVec 5) (a : BitVec 5) (s : State) : Out State :=
  pureInstr (.mask .firstn d a 0) s

/-- R280. wd := number of set bits of ma. -/
def execMcnt (d : BitVec 5) (a : BitVec 5) (s : State) : Out State :=
  pureInstr (.mask .cnt d a 0) s

end Sys2Proof.Machine
end

