-- ==== Sys2Proof/Machine/Dispatch.lean ====
section
/-! DEFINITION. Every step has its meaning: one arm per constructor of Instr, each one direct call. -/

namespace Sys2Proof.Machine

/-- The meaning of a step. An instruction word acts for the context that `cur` names. -/
def exec (i : Instr) (s : State) : Host.Outcome State Fault Refusal :=
  match i with
  | .br imm => Sys2Proof.Machine.execBr imm s
  | .call imm => Sys2Proof.Machine.execCall imm s
  | .beq a b off => Sys2Proof.Machine.execBeq a b off s
  | .bne a b off => Sys2Proof.Machine.execBne a b off s
  | .blt a b off => Sys2Proof.Machine.execBlt a b off s
  | .bge a b off => Sys2Proof.Machine.execBge a b off s
  | .bltu a b off => Sys2Proof.Machine.execBltu a b off s
  | .bgeu a b off => Sys2Proof.Machine.execBgeu a b off s
  | .bbs a b off => Sys2Proof.Machine.execBbs a b off s
  | .bbc a b off => Sys2Proof.Machine.execBbc a b off s
  | .jt a imm => Sys2Proof.Machine.execJt a imm s
  | .lpad lab => Sys2Proof.Machine.execLpad lab s
  | .ret => Sys2Proof.Machine.execRet s
  | .nend => Sys2Proof.Machine.execNend s
  | .nabort a => Sys2Proof.Machine.execNabort a s
  | .maskw => Sys2Proof.Machine.execMaskw s
  | .unmaskw => Sys2Proof.Machine.execUnmaskw s
  | .rep cnt len d a b => Sys2Proof.Machine.execRep cnt len d a b s
  | .add d a b w => Sys2Proof.Machine.execAdd d a b w s
  | .sub d a b w => Sys2Proof.Machine.execSub d a b w s
  | .and d a b w => Sys2Proof.Machine.execAnd d a b w s
  | .or d a b w => Sys2Proof.Machine.execOr d a b w s
  | .xor d a b w => Sys2Proof.Machine.execXor d a b w s
  | .andn d a b w => Sys2Proof.Machine.execAndn d a b w s
  | .shl d a b w => Sys2Proof.Machine.execShl d a b w s
  | .shr d a b w => Sys2Proof.Machine.execShr d a b w s
  | .sha d a b w => Sys2Proof.Machine.execSha d a b w s
  | .ror d a b w => Sys2Proof.Machine.execRor d a b w s
  | .mul d a b w => Sys2Proof.Machine.execMul d a b w s
  | .mulh d a b w => Sys2Proof.Machine.execMulh d a b w s
  | .mulhu d a b w => Sys2Proof.Machine.execMulhu d a b w s
  | .div d a b w => Sys2Proof.Machine.execDiv d a b w s
  | .divu d a b w => Sys2Proof.Machine.execDivu d a b w s
  | .rem d a b w => Sys2Proof.Machine.execRem d a b w s
  | .remu d a b w => Sys2Proof.Machine.execRemu d a b w s
  | .min d a b w => Sys2Proof.Machine.execMin d a b w s
  | .max d a b w => Sys2Proof.Machine.execMax d a b w s
  | .minu d a b w => Sys2Proof.Machine.execMinu d a b w s
  | .maxu d a b w => Sys2Proof.Machine.execMaxu d a b w s
  | .slt d a b w => Sys2Proof.Machine.execSlt d a b w s
  | .sltu d a b w => Sys2Proof.Machine.execSltu d a b w s
  | .seq d a b w => Sys2Proof.Machine.execSeq d a b w s
  | .clz d a w => Sys2Proof.Machine.execClz d a w s
  | .ctz d a w => Sys2Proof.Machine.execCtz d a w s
  | .popc d a w => Sys2Proof.Machine.execPopc d a w s
  | .brev d a w => Sys2Proof.Machine.execBrev d a w s
  | .bswap d a w => Sys2Proof.Machine.execBswap d a w s
  | .sext d a b => Sys2Proof.Machine.execSext d a b s
  | .zext d a b => Sys2Proof.Machine.execZext d a b s
  | .adds1 d a b w => Sys2Proof.Machine.execAdds1 d a b w s
  | .adds2 d a b w => Sys2Proof.Machine.execAdds2 d a b w s
  | .adds3 d a b w => Sys2Proof.Machine.execAdds3 d a b w s
  | .vta d a b => Sys2Proof.Machine.execVta d a b s
  | .sel d a b => Sys2Proof.Machine.execSel d a b s
  | .addi d a imm => Sys2Proof.Machine.execAddi d a imm s
  | .andi d a imm => Sys2Proof.Machine.execAndi d a imm s
  | .ori d a imm => Sys2Proof.Machine.execOri d a imm s
  | .xori d a imm => Sys2Proof.Machine.execXori d a imm s
  | .lih d imm => Sys2Proof.Machine.execLih d imm s
  | .shli d a w amt => Sys2Proof.Machine.execShli d a w amt s
  | .shri d a w amt => Sys2Proof.Machine.execShri d a w amt s
  | .shai d a w amt => Sys2Proof.Machine.execShai d a w amt s
  | .rori d a w amt => Sys2Proof.Machine.execRori d a w amt s
  | .addpc d imm => Sys2Proof.Machine.execAddpc d imm s
  | .mfi d b => Sys2Proof.Machine.execMfi d b s
  | .mfe d b => Sys2Proof.Machine.execMfe d b s
  | .mte d a => Sys2Proof.Machine.execMte d a s
  | .mfm d b => Sys2Proof.Machine.execMfm d b s
  | .mtm d a => Sys2Proof.Machine.execMtm d a s
  | .mfqc d b => Sys2Proof.Machine.execMfqc d b s
  | .wsa d => Sys2Proof.Machine.execWsa d s
  | .lde d a imm => Sys2Proof.Machine.execLde d a imm s
  | .rcpDef d b => Sys2Proof.Machine.execRcpDef d b s
  | .rcpTagW d a => Sys2Proof.Machine.execRcpTagW d a s
  | .rcpTagV d a => Sys2Proof.Machine.execRcpTagV d a s
  | .rcpUntag d b => Sys2Proof.Machine.execRcpUntag d b s
  | .rcpDrop d b => Sys2Proof.Machine.execRcpDrop d b s
  | .rcpMat d b => Sys2Proof.Machine.execRcpMat d b s
  | .rcpClr d => Sys2Proof.Machine.execRcpClr d s
  | .ldL t a ord sz off => Sys2Proof.Machine.execLdL t a ord sz off s
  | .stL t a ord sz off => Sys2Proof.Machine.execStL t a ord sz off s
  | .ldG t a ord sz off => Sys2Proof.Machine.execLdG t a ord sz off s
  | .stG t a ord sz off => Sys2Proof.Machine.execStG t a ord sz off s
  | .ldT t a ord sz off => Sys2Proof.Machine.execLdT t a ord sz off s
  | .stT t a ord sz off => Sys2Proof.Machine.execStT t a ord sz off s
  | .vldL d a m esz => Sys2Proof.Machine.execVldL d a m esz s
  | .vldG d a m esz => Sys2Proof.Machine.execVldG d a m esz s
  | .vldT d a m esz => Sys2Proof.Machine.execVldT d a m esz s
  | .vldsL d a b m esz => Sys2Proof.Machine.execVldsL d a b m esz s
  | .vldsG d a b m esz => Sys2Proof.Machine.execVldsG d a b m esz s
  | .vldxL d a b m esz => Sys2Proof.Machine.execVldxL d a b m esz s
  | .vldxG d a b m esz => Sys2Proof.Machine.execVldxG d a b m esz s
  | .vstL d a m esz => Sys2Proof.Machine.execVstL d a m esz s
  | .vstG d a m esz => Sys2Proof.Machine.execVstG d a m esz s
  | .vstT d a m esz => Sys2Proof.Machine.execVstT d a m esz s
  | .vstsL d a b m esz => Sys2Proof.Machine.execVstsL d a b m esz s
  | .vstsG d a b m esz => Sys2Proof.Machine.execVstsG d a b m esz s
  | .vstxL d a b m esz => Sys2Proof.Machine.execVstxL d a b m esz s
  | .vstxG d a b m esz => Sys2Proof.Machine.execVstxG d a b m esz s
  | .tchR d a b => Sys2Proof.Machine.execTchR d a b s
  | .tchW d a b => Sys2Proof.Machine.execTchW d a b s
  | .trel a => Sys2Proof.Machine.execTrel a s
  | .prefG a => Sys2Proof.Machine.execPrefG a s
  | .aaddL d a b ord scope sz64 => Sys2Proof.Machine.execAaddL d a b ord scope sz64 s
  | .aandL d a b ord scope sz64 => Sys2Proof.Machine.execAandL d a b ord scope sz64 s
  | .aorL d a b ord scope sz64 => Sys2Proof.Machine.execAorL d a b ord scope sz64 s
  | .axorL d a b ord scope sz64 => Sys2Proof.Machine.execAxorL d a b ord scope sz64 s
  | .aminL d a b ord scope sz64 => Sys2Proof.Machine.execAminL d a b ord scope sz64 s
  | .amaxL d a b ord scope sz64 => Sys2Proof.Machine.execAmaxL d a b ord scope sz64 s
  | .aminuL d a b ord scope sz64 => Sys2Proof.Machine.execAminuL d a b ord scope sz64 s
  | .amaxuL d a b ord scope sz64 => Sys2Proof.Machine.execAmaxuL d a b ord scope sz64 s
  | .aswpL d a b ord scope sz64 => Sys2Proof.Machine.execAswpL d a b ord scope sz64 s
  | .acasL d a b ord scope sz64 => Sys2Proof.Machine.execAcasL d a b ord scope sz64 s
  | .afaddL d a b ord scope sz64 => Sys2Proof.Machine.execAfaddL d a b ord scope sz64 s
  | .aaddKL d a b scope sz64 => Sys2Proof.Machine.execAaddKL d a b scope sz64 s
  | .aaddT d a b ord scope sz64 => Sys2Proof.Machine.execAaddT d a b ord scope sz64 s
  | .aandT d a b ord scope sz64 => Sys2Proof.Machine.execAandT d a b ord scope sz64 s
  | .aorT d a b ord scope sz64 => Sys2Proof.Machine.execAorT d a b ord scope sz64 s
  | .axorT d a b ord scope sz64 => Sys2Proof.Machine.execAxorT d a b ord scope sz64 s
  | .aminT d a b ord scope sz64 => Sys2Proof.Machine.execAminT d a b ord scope sz64 s
  | .amaxT d a b ord scope sz64 => Sys2Proof.Machine.execAmaxT d a b ord scope sz64 s
  | .aminuT d a b ord scope sz64 => Sys2Proof.Machine.execAminuT d a b ord scope sz64 s
  | .amaxuT d a b ord scope sz64 => Sys2Proof.Machine.execAmaxuT d a b ord scope sz64 s
  | .aswpT d a b ord scope sz64 => Sys2Proof.Machine.execAswpT d a b ord scope sz64 s
  | .acasT d a b ord scope sz64 => Sys2Proof.Machine.execAcasT d a b ord scope sz64 s
  | .afaddT d a b ord scope sz64 => Sys2Proof.Machine.execAfaddT d a b ord scope sz64 s
  | .aaddKT d a b scope sz64 => Sys2Proof.Machine.execAaddKT d a b scope sz64 s
  | .aaddG d a b ord scope sz64 => Sys2Proof.Machine.execAaddG d a b ord scope sz64 s
  | .aandG d a b ord scope sz64 => Sys2Proof.Machine.execAandG d a b ord scope sz64 s
  | .aorG d a b ord scope sz64 => Sys2Proof.Machine.execAorG d a b ord scope sz64 s
  | .axorG d a b ord scope sz64 => Sys2Proof.Machine.execAxorG d a b ord scope sz64 s
  | .aminG d a b ord scope sz64 => Sys2Proof.Machine.execAminG d a b ord scope sz64 s
  | .amaxG d a b ord scope sz64 => Sys2Proof.Machine.execAmaxG d a b ord scope sz64 s
  | .aminuG d a b ord scope sz64 => Sys2Proof.Machine.execAminuG d a b ord scope sz64 s
  | .amaxuG d a b ord scope sz64 => Sys2Proof.Machine.execAmaxuG d a b ord scope sz64 s
  | .aswpG d a b ord scope sz64 => Sys2Proof.Machine.execAswpG d a b ord scope sz64 s
  | .acasG d a b ord scope sz64 => Sys2Proof.Machine.execAcasG d a b ord scope sz64 s
  | .afaddG d a b ord scope sz64 => Sys2Proof.Machine.execAfaddG d a b ord scope sz64 s
  | .aaddKG d a b scope sz64 => Sys2Proof.Machine.execAaddKG d a b scope sz64 s
  | .stM t a ord sz off => Sys2Proof.Machine.execStM t a ord sz off s
  | .radd a rod => Sys2Proof.Machine.execRadd a rod s
  | .rset a rod => Sys2Proof.Machine.execRset a rod s
  | .rget d rod => Sys2Proof.Machine.execRget d rod s
  | .rarm a rod => Sys2Proof.Machine.execRarm a rod s
  | .rwait rod => Sys2Proof.Machine.execRwait rod s
  | .rtest d rod => Sys2Proof.Machine.execRtest d rod s
  | .barr rod => Sys2Proof.Machine.execBarr rod s
  | .bwait rod => Sys2Proof.Machine.execBwait rod s
  | .rrmt a b => Sys2Proof.Machine.execRrmt a b s
  | .rrmtK a b => Sys2Proof.Machine.execRrmtK a b s
  | .raddX a b => Sys2Proof.Machine.execRaddX a b s
  | .waitm d b => Sys2Proof.Machine.execWaitm d b s
  | .bmjoin a b => Sys2Proof.Machine.execBmjoin a b s
  | .bmarr a => Sys2Proof.Machine.execBmarr a s
  | .bmwait a => Sys2Proof.Machine.execBmwait a s
  | .bmq d a => Sys2Proof.Machine.execBmq d a s
  | .bmleave a => Sys2Proof.Machine.execBmleave a s
  | .tok a => Sys2Proof.Machine.execTok a s
  | .tokv d a b => Sys2Proof.Machine.execTokv d a b s
  | .ncan a => Sys2Proof.Machine.execNcan a s
  | .narm d a => Sys2Proof.Machine.execNarm d a s
  | .ndef d a b => Sys2Proof.Machine.execNdef d a b s
  | .nqry d a => Sys2Proof.Machine.execNqry d a s
  | .evb d a b => Sys2Proof.Machine.execEvb d a b s
  | .evu d a => Sys2Proof.Machine.execEvu d a s
  | .vaddVv d a b m esz => Sys2Proof.Machine.execVaddVv d a b m esz s
  | .vsubVv d a b m esz => Sys2Proof.Machine.execVsubVv d a b m esz s
  | .vmulVv d a b m esz => Sys2Proof.Machine.execVmulVv d a b m esz s
  | .vmulhVv d a b m esz => Sys2Proof.Machine.execVmulhVv d a b m esz s
  | .vminVv d a b m esz => Sys2Proof.Machine.execVminVv d a b m esz s
  | .vmaxVv d a b m esz => Sys2Proof.Machine.execVmaxVv d a b m esz s
  | .vminuVv d a b m esz => Sys2Proof.Machine.execVminuVv d a b m esz s
  | .vmaxuVv d a b m esz => Sys2Proof.Machine.execVmaxuVv d a b m esz s
  | .vandVv d a b m esz => Sys2Proof.Machine.execVandVv d a b m esz s
  | .vorVv d a b m esz => Sys2Proof.Machine.execVorVv d a b m esz s
  | .vxorVv d a b m esz => Sys2Proof.Machine.execVxorVv d a b m esz s
  | .vshlVv d a b m esz => Sys2Proof.Machine.execVshlVv d a b m esz s
  | .vshrVv d a b m esz => Sys2Proof.Machine.execVshrVv d a b m esz s
  | .vshaVv d a b m esz => Sys2Proof.Machine.execVshaVv d a b m esz s
  | .vaddsatVv d a b m esz => Sys2Proof.Machine.execVaddsatVv d a b m esz s
  | .vsubsatVv d a b m esz => Sys2Proof.Machine.execVsubsatVv d a b m esz s
  | .vaddVs d a b m esz => Sys2Proof.Machine.execVaddVs d a b m esz s
  | .vsubVs d a b m esz => Sys2Proof.Machine.execVsubVs d a b m esz s
  | .vmulVs d a b m esz => Sys2Proof.Machine.execVmulVs d a b m esz s
  | .vmulhVs d a b m esz => Sys2Proof.Machine.execVmulhVs d a b m esz s
  | .vminVs d a b m esz => Sys2Proof.Machine.execVminVs d a b m esz s
  | .vmaxVs d a b m esz => Sys2Proof.Machine.execVmaxVs d a b m esz s
  | .vminuVs d a b m esz => Sys2Proof.Machine.execVminuVs d a b m esz s
  | .vmaxuVs d a b m esz => Sys2Proof.Machine.execVmaxuVs d a b m esz s
  | .vandVs d a b m esz => Sys2Proof.Machine.execVandVs d a b m esz s
  | .vorVs d a b m esz => Sys2Proof.Machine.execVorVs d a b m esz s
  | .vxorVs d a b m esz => Sys2Proof.Machine.execVxorVs d a b m esz s
  | .vshlVs d a b m esz => Sys2Proof.Machine.execVshlVs d a b m esz s
  | .vshrVs d a b m esz => Sys2Proof.Machine.execVshrVs d a b m esz s
  | .vshaVs d a b m esz => Sys2Proof.Machine.execVshaVs d a b m esz s
  | .vaddsatVs d a b m esz => Sys2Proof.Machine.execVaddsatVs d a b m esz s
  | .vsubsatVs d a b m esz => Sys2Proof.Machine.execVsubsatVs d a b m esz s
  | .vfaddVv d a b m esz => Sys2Proof.Machine.execVfaddVv d a b m esz s
  | .vfsubVv d a b m esz => Sys2Proof.Machine.execVfsubVv d a b m esz s
  | .vfmulVv d a b m esz => Sys2Proof.Machine.execVfmulVv d a b m esz s
  | .vfmaVv d a b m esz => Sys2Proof.Machine.execVfmaVv d a b m esz s
  | .vfmsVv d a b m esz => Sys2Proof.Machine.execVfmsVv d a b m esz s
  | .vfnmaVv d a b m esz => Sys2Proof.Machine.execVfnmaVv d a b m esz s
  | .vfminVv d a b m esz => Sys2Proof.Machine.execVfminVv d a b m esz s
  | .vfmaxVv d a b m esz => Sys2Proof.Machine.execVfmaxVv d a b m esz s
  | .vfdivVv d a b m esz => Sys2Proof.Machine.execVfdivVv d a b m esz s
  | .vfsqrt d a m esz => Sys2Proof.Machine.execVfsqrt d a m esz s
  | .vfrsqe d a m esz => Sys2Proof.Machine.execVfrsqe d a m esz s
  | .vfrcpe d a m esz => Sys2Proof.Machine.execVfrcpe d a m esz s
  | .vfabs d a m esz => Sys2Proof.Machine.execVfabs d a m esz s
  | .vfneg d a m esz => Sys2Proof.Machine.execVfneg d a m esz s
  | .vfcpysVv d a b m esz => Sys2Proof.Machine.execVfcpysVv d a b m esz s
  | .vfclass d a m esz => Sys2Proof.Machine.execVfclass d a m esz s
  | .vfaddVs d a b m esz => Sys2Proof.Machine.execVfaddVs d a b m esz s
  | .vfsubVs d a b m esz => Sys2Proof.Machine.execVfsubVs d a b m esz s
  | .vfmulVs d a b m esz => Sys2Proof.Machine.execVfmulVs d a b m esz s
  | .vfmaVs d a b m esz => Sys2Proof.Machine.execVfmaVs d a b m esz s
  | .vfmsVs d a b m esz => Sys2Proof.Machine.execVfmsVs d a b m esz s
  | .vfnmaVs d a b m esz => Sys2Proof.Machine.execVfnmaVs d a b m esz s
  | .vfminVs d a b m esz => Sys2Proof.Machine.execVfminVs d a b m esz s
  | .vfmaxVs d a b m esz => Sys2Proof.Machine.execVfmaxVs d a b m esz s
  | .vfdivVs d a b m esz => Sys2Proof.Machine.execVfdivVs d a b m esz s
  | .vfcpysVs d a b m esz => Sys2Proof.Machine.execVfcpysVs d a b m esz s
  | .vmov d a m esz => Sys2Proof.Machine.execVmov d a m esz s
  | .vbcst d b m esz => Sys2Proof.Machine.execVbcst d b m esz s
  | .vext d a b esz => Sys2Proof.Machine.execVext d a b esz s
  | .vins d a b esz => Sys2Proof.Machine.execVins d a b esz s
  | .vsel d a b m esz => Sys2Proof.Machine.execVsel d a b m esz s
  | .vperm d a b m esz => Sys2Proof.Machine.execVperm d a b m esz s
  | .vrot d a b m esz => Sys2Proof.Machine.execVrot d a b m esz s
  | .vzip d a b m esz => Sys2Proof.Machine.execVzip d a b m esz s
  | .vunzip d a b m esz => Sys2Proof.Machine.execVunzip d a b m esz s
  | .viota d m esz => Sys2Proof.Machine.execViota d m esz s
  | .vradd d a m esz => Sys2Proof.Machine.execVradd d a m esz s
  | .vrmax d a m esz => Sys2Proof.Machine.execVrmax d a m esz s
  | .vrmin d a m esz => Sys2Proof.Machine.execVrmin d a m esz s
  | .vrmaxu d a m esz => Sys2Proof.Machine.execVrmaxu d a m esz s
  | .vrminu d a m esz => Sys2Proof.Machine.execVrminu d a m esz s
  | .vrfadd d a m esz => Sys2Proof.Machine.execVrfadd d a m esz s
  | .vrfmax d a m esz => Sys2Proof.Machine.execVrfmax d a m esz s
  | .vrfmin d a m esz => Sys2Proof.Machine.execVrfmin d a m esz s
  | .vpopc d a m esz => Sys2Proof.Machine.execVpopc d a m esz s
  | .vfirst d a m esz => Sys2Proof.Machine.execVfirst d a m esz s
  | .vcmpEq d a b m esz => Sys2Proof.Machine.execVcmpEq d a b m esz s
  | .vcmpNe d a b m esz => Sys2Proof.Machine.execVcmpNe d a b m esz s
  | .vcmpLt d a b m esz => Sys2Proof.Machine.execVcmpLt d a b m esz s
  | .vcmpLe d a b m esz => Sys2Proof.Machine.execVcmpLe d a b m esz s
  | .vcmpLtu d a b m esz => Sys2Proof.Machine.execVcmpLtu d a b m esz s
  | .vcmpLeu d a b m esz => Sys2Proof.Machine.execVcmpLeu d a b m esz s
  | .vcmpFeq d a b m esz => Sys2Proof.Machine.execVcmpFeq d a b m esz s
  | .vcmpFlt d a b m esz => Sys2Proof.Machine.execVcmpFlt d a b m esz s
  | .vcmpFle d a b m esz => Sys2Proof.Machine.execVcmpFle d a b m esz s
  | .vcmpFun d a b m esz => Sys2Proof.Machine.execVcmpFun d a b m esz s
  | .mand d a b => Sys2Proof.Machine.execMand d a b s
  | .mor d a b => Sys2Proof.Machine.execMor d a b s
  | .mxor d a b => Sys2Proof.Machine.execMxor d a b s
  | .mandn d a b => Sys2Proof.Machine.execMandn d a b s
  | .mnot d a => Sys2Proof.Machine.execMnot d a s
  | .mfirstn d a => Sys2Proof.Machine.execMfirstn d a s
  | .mcnt d a => Sys2Proof.Machine.execMcnt d a s
  | .vcvt d a rm dst src sat => Sys2Proof.Machine.execVcvt d a rm dst src sat s
  | .qnt d a b tgt rm sat => Sys2Proof.Machine.execQnt d a b tgt rm sat s
  | .dqt d a b tgt => Sys2Proof.Machine.execDqt d a b tgt s
  | .bamax d a => Sys2Proof.Machine.execBamax d a s
  | .scld d a tgt => Sys2Proof.Machine.execScld d a tgt s
  | .macq => Sys2Proof.Machine.execMacq s
  | .mrel => Sys2Proof.Machine.execMrel s
  | .mzero a => Sys2Proof.Machine.execMzero a s
  | .mrd d a b => Sys2Proof.Machine.execMrd d a b s
  | .mwr d a b => Sys2Proof.Machine.execMwr d a b s
  | .mscl d a => Sys2Proof.Machine.execMscl d a s
  | .mchk d a => Sys2Proof.Machine.execMchk d a s
  | .sset a => Sys2Proof.Machine.execSset a s
  | .mma d a b fmt inc sp init => Sys2Proof.Machine.execMma d a b fmt inc sp init s
  | .tsld d => Sys2Proof.Machine.execTsld d s
  | .tsst a => Sys2Proof.Machine.execTsst a s
  | .tsfill a b => Sys2Proof.Machine.execTsfill a b s
  | .cpy => Sys2Proof.Machine.execCpy s
  | .cpyd => Sys2Proof.Machine.execCpyd s
  | .cpyx => Sys2Proof.Machine.execCpyx s
  | .cpyts => Sys2Proof.Machine.execCpyts s
  | .cpyr => Sys2Proof.Machine.execCpyr s
  | .cpyq d => Sys2Proof.Machine.execCpyq d s
  | .ckdecl d a b => Sys2Proof.Machine.execCkdecl d a b s
  | .srcdecl d a b => Sys2Proof.Machine.execSrcdecl d a b s
  | .sgadd a => Sys2Proof.Machine.execSgadd a s
  | .sgqry d => Sys2Proof.Machine.execSgqry d s
  | .agerd d a => Sys2Proof.Machine.execAgerd d a s
  | .pwrrd d a => Sys2Proof.Machine.execPwrrd d a s
  | .pwrw a b => Sys2Proof.Machine.execPwrw a b s
  | .rtqry d a => Sys2Proof.Machine.execRtqry d a s
  | .csrr d csr => Sys2Proof.Machine.execCsrr d csr s
  | .csrw a csr => Sys2Proof.Machine.execCsrw a csr s
  | .csrs d a csr => Sys2Proof.Machine.execCsrs d a csr s
  | .csrc d a csr => Sys2Proof.Machine.execCsrc d a csr s
  | .tresume d a b => Sys2Proof.Machine.execTresume d a b s
  | .tabort d a b => Sys2Proof.Machine.execTabort d a b s
  | .tlbfill d a b => Sys2Proof.Machine.execTlbfill d a b s
  | .tlbinv a b => Sys2Proof.Machine.execTlbinv a b s
  | .wssw a => Sys2Proof.Machine.execWssw a s
  | .svc a => Sys2Proof.Machine.execSvc a s
  | .brk => Sys2Proof.Machine.execBrk s
  | .halt a b => Sys2Proof.Machine.execHalt a b s
  | .idle => Sys2Proof.Machine.execIdle s
  | .bmmask a b => Sys2Proof.Machine.execBmmask a b s
  | .udf x => Sys2Proof.Machine.execUdf x s
  | .ill => Sys2Proof.Machine.execIll s
  | .cNop => Sys2Proof.Machine.execCNop s
  | .cNend => Sys2Proof.Machine.execCNend s
  | .cRet => Sys2Proof.Machine.execCRet s
  | .cMov d a => Sys2Proof.Machine.execCMov d a s
  | .cAddi d imm => Sys2Proof.Machine.execCAddi d imm s
  | .cLi d imm => Sys2Proof.Machine.execCLi d imm s
  | .cAdd d a b => Sys2Proof.Machine.execCAdd d a b s
  | .cSub d a b => Sys2Proof.Machine.execCSub d a b s
  | .cLdw d a off => Sys2Proof.Machine.execCLdw d a off s
  | .cStw t a off => Sys2Proof.Machine.execCStw t a off s
  | .cBeqz a off => Sys2Proof.Machine.execCBeqz a off s
  | .cBnez a off => Sys2Proof.Machine.execCBnez a off s
  | .cBr off => Sys2Proof.Machine.execCBr off s
  | .cShli d amt => Sys2Proof.Machine.execCShli d amt s
  | .sqtailNotify p q v => Sys2Proof.Machine.execSqtailNotify p q v s
  | .queueSlotMap p => Sys2Proof.Machine.execQueueSlotMap p s
  | .launchRecord p => Sys2Proof.Machine.execLaunchRecord p s
  | .haltRecord p => Sys2Proof.Machine.execHaltRecord p s
  | .resumeRecord p => Sys2Proof.Machine.execResumeRecord p s
  | .cancelRecord p => Sys2Proof.Machine.execCancelRecord p s
  | .cqhead p q v => Sys2Proof.Machine.execCqhead p q v s
  | .nodeStart dt stg => Sys2Proof.Machine.execNodeStart dt stg s
  | .urgentStart dt stg => Sys2Proof.Machine.execUrgentStart dt stg s
  | .commit key => Sys2Proof.Machine.execCommit key s
  | .borrow key => Sys2Proof.Machine.execBorrow key s
  | .epochAck dt => Sys2Proof.Machine.execEpochAck dt s
  | .token n => Sys2Proof.Machine.execToken n s
  | .restoreItem n => Sys2Proof.Machine.execRestoreItem n s
  | .beadReturn n => Sys2Proof.Machine.execBeadReturn n s
  | .nodeRetry key => Sys2Proof.Machine.execNodeRetry key s
  | .budgetExpiry key => Sys2Proof.Machine.execBudgetExpiry key s
  | .accessResponse n => Sys2Proof.Machine.execAccessResponse n s
  | .trapMessage n => Sys2Proof.Machine.execTrapMessage n s
  | .remoteRodAdd n => Sys2Proof.Machine.execRemoteRodAdd n s
  | .copyPost c => Sys2Proof.Machine.execCopyPost c s
  | .copySegment c => Sys2Proof.Machine.execCopySegment c s
  | .segmentDelivery c k => Sys2Proof.Machine.execSegmentDelivery c k s
  | .copyQueuePush c => Sys2Proof.Machine.execCopyQueuePush c s
  | .copyEnd c => Sys2Proof.Machine.execCopyEnd c s
  | .beamRaise p g vt => Sys2Proof.Machine.execBeamRaise p g vt s
  | .beamRelease p g vt => Sys2Proof.Machine.execBeamRelease p g vt s
  | .routerDeath p pt => Sys2Proof.Machine.execRouterDeath p pt s
  | .beamRecombine p die => Sys2Proof.Machine.execBeamRecombine p die s
  | .rotcmdGo p die v => Sys2Proof.Machine.execRotcmdGo p die v s
  | .rotcmdEmerg p die v => Sys2Proof.Machine.execRotcmdEmerg p die v s
  | .drainEnd p die => Sys2Proof.Machine.execDrainEnd p die s
  | .drainLimitExpiry p die => Sys2Proof.Machine.execDrainLimitExpiry p die s
  | .remap p die => Sys2Proof.Machine.execRemap p die s
  | .mapGenerationApply p r => Sys2Proof.Machine.execMapGenerationApply p r s
  | .marker p r => Sys2Proof.Machine.execMarker p r s
  | .selfTestDone p pt pass vmin => Sys2Proof.Machine.execSelfTestDone p pt pass vmin s
  | .epochTimer dt => Sys2Proof.Machine.execEpochTimer dt s
  | .epochApply dt => Sys2Proof.Machine.execEpochApply dt s
  | .durableAck n => Sys2Proof.Machine.execDurableAck n s
  | .tileLoss p pt => Sys2Proof.Machine.execTileLoss p pt s
  | .restoreNotice dt lost => Sys2Proof.Machine.execRestoreNotice dt lost s
  | .restoreResend dt => Sys2Proof.Machine.execRestoreResend dt s
  | .screenCompare key => Sys2Proof.Machine.execScreenCompare key s
  | .silenceProbe p pt => Sys2Proof.Machine.execSilenceProbe p pt s
  | .probeAnswer p pt => Sys2Proof.Machine.execProbeAnswer p pt s
  | .probeTimeout p pt => Sys2Proof.Machine.execProbeTimeout p pt s
  | .quantaGrant dt => Sys2Proof.Machine.execQuantaGrant dt s
  | .reserveShare dt => Sys2Proof.Machine.execReserveShare dt s
  | .migrationGo p die v => Sys2Proof.Machine.execMigrationGo p die v s
  | .migrationRoundEnd p die => Sys2Proof.Machine.execMigrationRoundEnd p die s
  | .ptcmdSpareToReplica p die v => Sys2Proof.Machine.execPtcmdSpareToReplica p die v s
  | .ptcmdReplicaToSpare p die v => Sys2Proof.Machine.execPtcmdReplicaToSpare p die v s
  | .ptcmdSpareToSelfTest p die v => Sys2Proof.Machine.execPtcmdSpareToSelfTest p die v s
  | .l2gate p die v => Sys2Proof.Machine.execL2gate p die v s
  | .seedWrite v => Sys2Proof.Machine.execSeedWrite v s
  | .counterEvent dt b => Sys2Proof.Machine.execCounterEvent dt b s
  | .idleWake fw => Sys2Proof.Machine.execIdleWake fw s
  | .debuggerTrigger p g rel => Sys2Proof.Machine.execDebuggerTrigger p g rel s
  | .firmwareCoreReset fw => Sys2Proof.Machine.execFirmwareCoreReset fw s
  | .flit p port seq ack crcOk room lane => Sys2Proof.Machine.execFlit p port seq ack crcOk room lane s
  | .replayRequest p port e => Sys2Proof.Machine.execReplayRequest p port e s
  | .idleFlit p port => Sys2Proof.Machine.execIdleFlit p port s
  | .retrainEnd p port good => Sys2Proof.Machine.execRetrainEnd p port good s
  | .panelShrink p => Sys2Proof.Machine.execPanelShrink p s
  | .boot p rep => Sys2Proof.Machine.execBoot p rep s
  | .capw p v => Sys2Proof.Machine.execCapw p v s
  | .swbrake p on => Sys2Proof.Machine.execSwbrake p on s
  | .brkpin p on => Sys2Proof.Machine.execBrkpin p on s
  | .attestationRequest p nonce => Sys2Proof.Machine.execAttestationRequest p nonce s
  | .hostRequest p req => Sys2Proof.Machine.execHostRequest p req s
  | .mailboxRequest p req => Sys2Proof.Machine.execMailboxRequest p req s
  | .eccError place correctable => Sys2Proof.Machine.execEccError place correctable s
  | .registerWrite p off v => Sys2Proof.Machine.execRegisterWrite p off v s
  | .trayAddBack p => Sys2Proof.Machine.execTrayAddBack p s
  | .powerRemoval p => Sys2Proof.Machine.execPowerRemoval p s

end Sys2Proof.Machine
end

