-- ==== Sys2Proof/Machine/Issue.lean ====
section
/-! DEFINITION. The issue port of a core (R61 to R64): which slot issues, when its next instruction may issue (R131,
R136, R162, R170, R327), what it is charged (R360, R361), its counters (R377), the window of R77, the repetition buffer (R84),
the register cache (R103), and a local cycle of a tile (R360, R362, R67, R109). -/

namespace Sys2Proof.Machine

/-! ### The word at the PC -/

/-- The major opcode of a 32-bit word (R31). -/
def majorOf (w : BitVec 32) : Nat := (w.extractLsb' 24 6).toNat

/-- R29, R30, R33: what the issuing context fetches at its PC: the word (or the halfword, zero-extended), its length and
its instruction, if it is legal. -/
structure Fetched where
  word  : BitVec 32
  len   : Nat
  instr : Option Instr

/-- R29, R30: the instruction at the PC of the issuing context. -/
noncomputable def State.fetch (s : State) : Res Fetched := do
  let pc := s.here.pc
  let h ← fetchHalf s pc pc
  if Decode.isLong h then
    let w ← fetchWord s pc
    return ⟨w, 4, (decodeWord w).toOption⟩
  else return ⟨h.setWidth 32, 2, (decodeHalf h).toOption⟩

/-- R137: the L1 TLB of the issuing core filled for the bytes of a fetch. -/
def State.touchFetch (s : State) (pc : Word) (len : Nat) : State :=
  (s.touchTlb pc.toNat).touchTlb (pc.toNat + len - 2)

/-- The halfwords of what was fetched. -/
def Fetched.halves (f : Fetched) : List (BitVec 16) :=
  if f.len = 2 then [f.word.setWidth 16] else word32 f.word

/-! ### Charges (R361) -/

/-- The charge of a class that the table does not list, at most the largest of those it lists. -/
def unlisted (w : BitVec 32) : Nat := min (Config.unlistedCharge w) 128

/-- R361: the charge of a 32-bit word, with the row pairs of a tsfill. Reductions are charged as such in every
format (log 23). -/
def chargeOf (w : BitVec 32) (pairs : Nat) : Nat :=
  let m := majorOf w
  let op := (w.extractLsb' 0 4).toNat
  if m = 0x08 then (if 0x0D ≤ (w.extractLsb' 0 8).toNat ∧ (w.extractLsb' 0 8).toNat ≤ 0x10 then 16 else 2)
  else if m = 0x14 ∨ m = 0x15 then 3
  else if (0x16 ≤ m ∧ m ≤ 0x19) ∨ (0x1C ≤ m ∧ m ≤ 0x1F) then 8
  else if m = 0x1A then 32
  else if m < 0x14 ∨ (0x20 ≤ m ∧ m ≤ 0x24) ∨ m = 0x3B ∨ m = 0x3F then 2
  else if m = 0x28 ∨ m = 0x29 ∨ m = 0x2C ∨ m = 0x2E ∨ m = 0x2F then 16
  else if m = 0x2A ∨ m = 0x2B then (if op = 8 ∨ op = 9 then 96 else if fieldE w = 3 then 40 else 24)
  else if m = 0x2D then 24
  else if m = 0x30 ∨ m = 0x32 ∨ m = 0x33 then 20
  else if m = 0x31 then 40
  else if m = 0x35 then mmaCharge (w.extractLsb' 5 4)
  else if m = 0x36 then (if w.extractLsb' 0 9 = 2 then 16 * pairs else 16)
  else if m = 0x38 then 8
  else unlisted w

/-- R300, R361: the row pairs that a tsfill fills: none where its rows are out of bounds and it faults. -/
def State.fillPairs (s : State) (w : BitVec 32) : Nat :=
  let e7 := (s.here.ereg 7).toNat
  let n := (s.w (fieldB w)).toNat
  if e7 < 2 ^ 16 ∧ e7 + 2 * n ≤ 65536 then n else 0

/-- R361: the charge of what was fetched: a compact form is charged as its 32-bit equivalent. -/
def State.chargeFor (s : State) (f : BitVec 32) (len : Nat) : Nat :=
  if len = 2 then (if f.extractLsb' 12 4 = 6 ∨ f.extractLsb' 12 4 = 7 then 3 else 2)
  else chargeOf f (s.fillPairs f)

/-- R265, R260: local cycles for which a word occupies the vector unit. -/
def vectorCycles (w : BitVec 32) : Nat :=
  let m := majorOf w
  let op := (w.extractLsb' 0 4).toNat
  if m = 0x28 ∨ m = 0x29 then (if (op = 2 ∨ op = 3) ∧ fieldE w = 3 then 2 else 1)
  else if m = 0x2A ∨ m = 0x2B then (if op = 8 ∨ op = 9 then (if fieldE w = 3 then 28 else 12) else 1)
  else if m = 0x2D then (if 5 ≤ op ∧ op ≤ 7 then 2 else 1)
  else if m = 0x31 then 2
  else if 0x2C ≤ m ∧ m ≤ 0x33 then 1
  else 0

/-! ### Readiness (R62) -/

/-- The model's code of mask i among the registers of an instruction; R118 gives codes below 48 to w and v registers. -/
def maskCode (i : Nat) : Nat := 64 + i % 8
/-- The model's code of extension register i. -/
def extCode (i : Nat) : Nat := 72 + i % 8

/-- The mask and extension registers that a register-only operation reads or writes (R105, R262, R280). -/
def PureOp.sideRegs : PureOp → List Nat
  | .vldl _ _ _ _ m _ => [maskCode m.toNat]
  | .vint _ _ _ _ _ m _ => [maskCode m.toNat]
  | .vfp _ _ _ _ _ m _ => [maskCode m.toNat]
  | .vmov _ _ _ _ m _ => [maskCode m.toNat]
  | .vred _ _ _ m _ => [maskCode m.toNat]
  | .vcmp _ d _ _ m _ => [maskCode d.toNat, maskCode m.toNat]
  | .mask .cnt _ a _ => [maskCode a.toNat]
  | .mask .firstn d _ _ => [maskCode d.toNat]
  | .mask .not d a _ => [maskCode d.toNat, maskCode a.toNat]
  | .mask _ d a b => [maskCode d.toNat, maskCode a.toNat, maskCode b.toNat]
  | .mma _ _ _ _ _ _ _ => [extCode 6, extCode 7]
  | .tsld _ => [extCode 7]
  | .tsst _ => [extCode 7]
  | .tsfill _ _ => [extCode 7]
  | _ => []

/-- Every register that a register-only operation reads or writes. -/
def PureOp.allRegs (op : PureOp) : List Nat := op.reads ++ op.writes ++ op.sideRegs

/-- The registers and vector fields, by code, of an instruction that is not a register-only operation. -/
def instrRegs (i : Instr) : List Nat :=
  match i with
  | .call _ | .ret | .cRet => [31]
  | .beq a b _ | .bne a b _ | .blt a b _ | .bge a b _ | .bltu a b _ | .bgeu a b _ | .bbs a b _ | .bbc a b _
  | .rrmt a b | .rrmtK a b | .raddX a b | .bmjoin a b | .pwrw a b | .tlbinv a b | .halt a b | .bmmask a b =>
    [a.toNat, b.toNat]
  | .jt a _ | .nabort a | .lde _ a _ | .trel a | .prefG a | .radd a _ | .rset a _ | .rarm a _
  | .bmarr a | .bmwait a | .bmleave a | .tok a | .ncan a | .sgadd a | .csrw a _ | .wssw a | .svc a => [a.toNat]
  | .rep c _ _ _ _ => [c.toNat]
  | .mfe d e => [d.toNat, extCode e.toNat]
  | .mte e a => [a.toNat, extCode e.toNat]
  | .mfm d m => [d.toNat, maskCode m.toNat]
  | .mtm m a => [a.toNat, maskCode m.toNat]
  | .addpc d _ | .mfi d _ | .mfqc d _ | .wsa d | .rget d _ | .rtest d _ | .waitm d _ | .sgqry d
  | .csrr d _ | .rcpTagW d _ => [d.toNat]
  | .rcpTagV d _ => [32 + d.toNat]
  | .rcpUntag d b | .rcpDrop d b | .rcpMat d b => [classCode d b]
  | .stL t a _ _ _ | .ldG t a _ _ _ | .stG t a _ _ _ | .ldT t a _ _ _ | .stT t a _ _ _ | .stM t a _ _ _ =>
    [t.toNat, a.toNat]
  | .vldG d a _ _ | .vldT d a _ _ | .vstL d a _ _ | .vstG d a _ _ | .vstT d a _ _ => a.toNat :: vCode d
  | .vldsG d a b _ _ | .vstsL d a b _ _ | .vstsG d a b _ _ => [a.toNat, b.toNat] ++ vCode d
  | .vldxG d a b _ _ | .vstxL d a b _ _ | .vstxG d a b _ _ => a.toNat :: (vCode b ++ vCode d)
  | .tchR d a b | .tchW d a b | .ndef d a b | .evb d a b | .ckdecl d a b | .srcdecl d a b | .tresume d a b
  | .tabort d a b | .tlbfill d a b => [d.toNat, a.toNat, b.toNat]
  | .aaddL d a b _ _ _ | .aandL d a b _ _ _ | .aorL d a b _ _ _ | .axorL d a b _ _ _ | .aminL d a b _ _ _
  | .amaxL d a b _ _ _ | .aminuL d a b _ _ _ | .amaxuL d a b _ _ _ | .aswpL d a b _ _ _ | .acasL d a b _ _ _
  | .afaddL d a b _ _ _ | .aaddT d a b _ _ _ | .aandT d a b _ _ _ | .aorT d a b _ _ _ | .axorT d a b _ _ _
  | .aminT d a b _ _ _ | .amaxT d a b _ _ _ | .aminuT d a b _ _ _ | .amaxuT d a b _ _ _ | .aswpT d a b _ _ _
  | .acasT d a b _ _ _ | .afaddT d a b _ _ _ | .aaddG d a b _ _ _ | .aandG d a b _ _ _ | .aorG d a b _ _ _
  | .axorG d a b _ _ _ | .aminG d a b _ _ _ | .amaxG d a b _ _ _ | .aminuG d a b _ _ _ | .amaxuG d a b _ _ _
  | .aswpG d a b _ _ _ | .acasG d a b _ _ _ | .afaddG d a b _ _ _ => [d.toNat, a.toNat, b.toNat]
  | .aaddKL d a b _ _ | .aaddKT d a b _ _ | .aaddKG d a b _ _ => [d.toNat, a.toNat, b.toNat]
  | .bmq d a | .narm d a | .nqry d a | .evu d a | .agerd d a | .pwrrd d a | .rtqry d a | .csrs d a _ | .csrc d a _ =>
    [d.toNat, a.toNat]
  | .tokv d a b => [d.toNat, a.toNat] ++ vCode b
  | .cMov d a => [d.toNat, a.toNat]
  | .cAddi d _ | .cLi d _ | .cShli d _ => [d.toNat]
  | .cAdd d a b | .cSub d a b => [d.toNat, a.toNat, b.toNat]
  | .cLdw d a _ | .cStw d a _ => [d.toNat, a.toNat]
  | .cBeqz a _ | .cBnez a _ => [a.toNat]
  | _ => []

/-- The registers that a fetched instruction reads or writes, by code. -/
def usedRegs (w : BitVec 32) (len : Nat) (i : Instr) : List Nat :=
  if len = 2 then instrRegs i
  else match decodePure w with
    | some op => op.allRegs
    | none => instrRegs i

/-- R106, R141, R143, R173: the bytes of own LM that a word's instruction accesses at its issue, as offsets and lengths. -/
def State.localSpans (s : State) (w : BitVec 32) : List (Nat × Nat) :=
  let m := majorOf w
  let op := (w.extractLsb' 0 4).toNat
  let a := s.w (fieldA w)
  if m = 0x11 then [((a + (((w.extractLsb' 0 14).setWidth 64) <<< 3)).toNat, 8)]
  else if m = 0x14 ∨ m = 0x15 then
    [((effAddr s (fieldA w) (w.extractLsb' 10 2) (w.extractLsb' 0 10)).toNat, 2 ^ (w.extractLsb' 10 2).toNat)]
  else if m = 0x1C ∧ op ≠ 0xB then [(a.toNat, if w.getLsbD 4 then 8 else 4)]
  else if m = 0x1A ∧ (op = 0 ∨ op = 3 ∨ op = 5 ∨ op = 8 ∨ op = 11 ∨ op = 13) then
    let n := 2 ^ (w.extractLsb' 4 2).toNat
    let form := if op % 8 = 0 then 0 else if op % 8 = 3 then 1 else 2
    let idx : Vec := match queueOf (fieldB w) with
      | some q => ((s.tile s.here.tile).queues[q]).headD 0
      | none => s.here.vfield (fieldB w)
    (elemAddrs n (s.here.mreg (w.extractLsb' 6 3)) (elemAddr form n a (s.w (fieldB w)) idx)).map (fun x => (x.2.toNat, n))
  else []

/-- R131: a register of a list is the destination of an outstanding request of an activation, or, as bytes of its workspace
(R100), lies in some spans of its LM. -/
def State.awaiting (s : State) (k : Nat) (rs : List Nat) (spans : List (Nat × Nat)) : Bool :=
  let wp := (s.act k).wp
  s.reqs.any (fun r => r.owner == k && (match r.op.dest with
    | some d => rs.contains d || spans.any (fun p =>
        decide (p.1 < wp + (regBytes d).1 + (regBytes d).2) && decide (wp + (regBytes d).1 < p.1 + p.2))
    | none => false))

/-- R162: an acquire of an activation is outstanding: no later access of it is performed before that completes. -/
def State.acquiring (s : State) (k : Nat) : Bool := s.reqs.any (fun r => r.owner == k && r.acq)

/-- R131, R188: an earlier access of an activation has not been performed: a request outstanding, or a remote rod add. -/
def State.unperformed (s : State) (k : Nat) : Bool := s.outstanding k || s.rodAddsOpen k (s.senderOf k)

/-- The word's instruction performs an access at its issue: of own LM, the tile store, a rod, the beam or the tile's
tables. -/
def accessesNow (w : BitVec 32) : Bool :=
  let m := majorOf w
  let op := (w.extractLsb' 0 4).toNat
  m = 0x11 || m = 0x14 || m = 0x15 || m = 0x1C || (decide (0x20 ≤ m) && decide (m ≤ 0x24)) ||
    (decide (0x34 ≤ m) && decide (m ≤ 0x36)) || m = 0x38 || m = 0x3B || m = 0x3E ||
    (m = 0x1A && (op = 0 || op = 3 || op = 5 || op = 8 || op = 11 || op = 13))

/-- R161: the word's instruction accesses own LM or the tile store, whose accesses are performed in program order. -/
def localAccess (w : BitVec 32) : Bool :=
  let m := majorOf w
  m = 0x11 || m = 0x14 || m = 0x15 || m = 0x1C || (decide (0x34 ≤ m) && decide (m ≤ 0x36)) || (m = 0x1A && accessesNow w)

/-- R161: an access of own LM of an activation is outstanding, and the word's must follow it: unless it is one that the device
delays too. -/
def State.behindLocal (s : State) (w : BitVec 32) : Bool :=
  localAccess w && s.reqs.any (fun r => r.owner == s.cur && r.space == 0) &&
    !((majorOf w == 0x14 || majorOf w == 0x15) && w.extractLsb' 12 2 == 0 &&
      (s.localSpans w).all (fun p => s.delays [BitVec.ofNat 64 p.1] p.2))

/-- R170, R187, R231, R235, R236, R376, R389: the word's instruction is a release, or a copy's, whose own effect is performed,
or whose operands in memory are read, at its issue; a wssw waits likewise for its context's responses. -/
def releasesNow (w : BitVec 32) : Bool :=
  let m := majorOf w
  let fn := (w.extractLsb' 0 9).toNat
  let op := (w.extractLsb' 11 3).toNat
  (m = 0x15 && w.extractLsb' 12 2 != 0) || (m = 0x1C && w.getLsbD 8 && w.extractLsb' 0 4 != 0xB) ||
    (m = 0x20 && (op = 0 || op = 1 || op = 3 || op = 6)) || (m = 0x21 && fn != 1) || (m = 0x23 && fn = 1) || m = 0x38 ||
    (m = 0x24 && (fn = 3 || fn = 4 || fn = 6)) ||
    (m = 0x3D && !(w.extractLsb' 12 2 == 0) && w.extractLsb' 4 8 == 0x41) || (m = 0x3E && (fn = 3 || fn = 4))

/-- R163, R164, R170: what a release writes that is performed, or leaves, at its issue: where, how many bytes, at what scope, and
whether it acts on a rod of the own tile at once. -/
def State.releaseOf (s : State) (w : BitVec 32) : Option (Home × Nat × BitVec 2 × Bool) :=
  let m := majorOf w
  let fn := (w.extractLsb' 0 9).toNat
  let op := (w.extractLsb' 11 3).toNat
  let tile := s.here.tile
  let a := s.w (fieldA w)
  let rod (k : Nat) : Home := .lm tile (Config.syncBase + 8 * k)
  if m = 0x15 then
    some (.lm tile (effAddr s (fieldA w) (w.extractLsb' 10 2) (w.extractLsb' 0 10)).toNat, 2 ^ (w.extractLsb' 10 2).toNat,
      w.extractLsb' 12 2, false)
  else if m = 0x1C then some (.lm tile a.toNat, if w.getLsbD 4 then 8 else 4, w.extractLsb' 5 2, false)
  else if m = 0x20 then some (rod (w.extractLsb' 0 7).toNat, 8, if op = 6 then 1 else 0, true)
  else if m = 0x21 ∧ fn = 0 then
    some (.lm (a.extractLsb' 22 15).toNat (a.setWidth 22).toNat, 8, s.addScope (a.extractLsb' 22 15).toNat, false)
  else if m = 0x21 ∧ fn = 2 then some (rod (s.w (fieldB w)).toNat, 8, 0, true)
  else none

/-- R164, R170: the word is a release of less than system scope, and its activation lets it be performed before the accesses
outstanding, none of which acquires or shares its location; no wait is pending on its rod, which would acquire from it. -/
def State.hastens (s : State) (w : BitVec 32) : Bool :=
  s.here.hasty && !s.rodAddsOpen s.cur (s.senderOf s.cur) && !s.reqs.any (fun r => r.owner == s.cur && r.acq) &&
  (match s.releaseOf w with
    | some (h, n, scope, atOnce) => scope != 3 &&
        !s.reqs.any (fun r => r.owner == s.cur && r.elems.any (fun e => e.home.overlaps r.op.size h n)) &&
        !(atOnce && s.acts.any (fun e => e.2.tile == s.here.tile && (match e.2.wait with
          | .rod _ => true | .barrier _ _ => true | .multi _ _ => true | _ => false)))
    | none => false)

/-- R162, R164, R170: the word acquires at its issue, from own LM or a rod of the own tile: the scope, and whether it also
releases. A wait acquires at the scope of each release it reads from. -/
def acquiresNow (w : BitVec 32) : Option (BitVec 2 × Bool) :=
  let m := majorOf w
  let op := (w.extractLsb' 11 3).toNat
  if m = 0x14 ∧ w.extractLsb' 12 2 ≠ 0 then some (w.extractLsb' 12 2, false)
  else if m = 0x1C ∧ w.getLsbD 7 ∧ w.extractLsb' 0 4 ≠ 0xB then some (w.extractLsb' 5 2, w.getLsbD 8)
  else if (m = 0x20 ∧ (op = 4 ∨ op = 5 ∨ op = 7)) ∨ m = 0x22 then some (3, false)
  else none

/-- R136, R238, R383: the word is a scalar `.g` or `.t` request. -/
def scalarRequest (w : BitVec 32) : Bool :=
  let m := majorOf w
  let fn := (w.extractLsb' 0 9).toNat
  (decide (0x16 ≤ m) && decide (m ≤ 0x19)) || m = 0x1D || m = 0x1E || m = 0x1F || (m = 0x21 && fn == 0) ||
    (m = 0x24 && decide (3 ≤ fn)) || (m = 0x3E && decide (fn < 3))

/-- R136: the word is a vector memory request. -/
def vectorRequest (w : BitVec 32) : Bool := majorOf w = 0x1A && !accessesNow w

/-- A tile-window access, which follows earlier remote rod adds to the same rod word (R161). -/
def windowAccess (w : BitVec 32) : Bool :=
  let m := majorOf w
  m = 0x18 || m = 0x19 || m = 0x1D || (m = 0x1A && (w.extractLsb' 0 4 == 2 || w.extractLsb' 0 4 == 10))

/-- The outstanding request is of vector memory. -/
def ReqOp.isVector : ReqOp → Bool
  | .vload _ _ => true
  | .vstore _ => true
  | .vloadq _ _ _ => true
  | _ => false

/-- R136: the outstanding request is one of scalar memory. -/
def ReqOp.isScalar : ReqOp → Bool
  | .matrix _ _ _ _ _ _ => false
  | op => !op.isVector

/-- The activation issues from the same core as another. -/
def Act.sameCore (a b : Act) : Bool := a.fw == b.fw && a.tile == b.tile && a.stg == b.stg

/-- R136, R188: the remote rod adds that a core has issued and that are not yet durable, whatever has become of their
activations; those of a commit (R188) do not count. -/
def State.rodAddsHeld (s : State) (a : Act) : Nat :=
  if a.fw then ((s.kept s.cur).filter (fun r => r.core.isSome)).length
  else ((s.kept a.dt).filter (fun r => r.core == some a.stg)).length

/-- R136, R327: the limits of the issuing core leave room for the word; the writes of one `st.m` are one request (R178). -/
def State.withinLimits (s : State) (w : BitVec 32) : Bool :=
  let a := s.here
  let mine (k : Nat) : Bool := if a.fw then k == s.cur else match s.act? k with | some b => a.sameCore b | none => false
  let held (p : ReqOp → Bool) : Nat :=
    ((s.reqs.filter (fun r => mine r.owner && r.space != 0 && p r.op)).map (·.id)).eraseDups.length
  (!scalarRequest w || decide (held ReqOp.isScalar + s.rodAddsHeld a < 32)) &&
  (!vectorRequest w || decide (held ReqOp.isVector < 8)) &&
  (majorOf w != 0x38 || decide ((s.copies.filter (fun c => c.2.dt == a.dt && c.2.stg == a.stg)).length < 8))

/-- R131, R161, R162, R164, R166, R170: the registers are ready, an outstanding acquire or access of own LM allows the word, what
a release orders has been performed, an access of own LM is not one that an acquire-release made early orders after others still
outstanding there, and an acquire meets no release whose earlier accesses it would have to wait for. A register that a replay
would write is not ready while an access is outstanding. -/
def State.ordered (s : State) (w : BitVec 32) (rs : List Nat) : Bool :=
  let k := s.cur
  let a := s.here
  let dropped := s.hereTags.any (·.dropped)
  let own (h : Home) : Bool := match h with | .lm d _ => d == a.tile | .phys _ => false
  !s.awaiting k rs (s.localSpans w) && !(s.acquiring k && (accessesNow w || dropped)) && !s.behindLocal w &&
    !(releasesNow w && s.unperformed k && !s.hastens w) && !(windowAccess w && s.rodAddsOpen k (s.senderOf k)) &&
    !((accessesNow w || dropped) && s.behindEarly k s.nextId (fun h _ => own h)) &&
    (match acquiresNow w with
      | some (scope, both) => !s.mustWait (fun h _ => own h) (a.agent k) scope both
      | none => true) &&
    !(dropped && s.outstanding k)

/-! ### The instruction cache (R63, R153) -/

/-- R30: the physical addresses of n halfwords at a PC, as far as they can be fetched. -/
def State.codeAt (s : State) (pc : Word) (n : Nat) : List Nat :=
  (List.range n).filterMap (fun i => match fetchTarget s (pc + BitVec.ofNat 64 (2 * i)) pc with
    | .ok x => (match x.home with | .phys pa => some pa | .lm _ _ => none)
    | .error _ => none)

/-- R63: the instruction cache of the issuing core holds the halfword of a physical address; a firmware core is not a tile core,
and has none. -/
def State.codeCached (s : State) (pa : Nat) : Bool :=
  !s.here.fw && (tabFind (s.core s.here.tile s.here.stg).icache pa).isSome

/-- R153: a fetch of n halfwords at a PC must wait: a page that it would read is frozen. -/
def State.codeFrozen (s : State) (pc : Word) (n : Nat) : Bool :=
  (s.codeAt pc n).any (fun pa => !s.codeCached pa && s.frozenAt pa)

/-- R63, R153: the next n halfwords of the issuing context are at hand: in the instruction cache of a tile core. -/
def State.codeHeld (s : State) (n : Nat) : Bool :=
  if s.here.fw then !s.codeFrozen s.here.pc n else (s.codeAt s.here.pc n).all s.codeCached

/-- R63, R137: the next instruction of the activation in slot n of a core brought into its instruction cache. -/
noncomputable def State.fetchCode (s : State) (dt : Nat) (stg : Bool) (n : BitVec 2) : State :=
  match (s.core dt stg).slots[n.toNat]'(n.isLt) with
  | none => s
  | some k =>
    let t : State := { s with cur := k }
    match t.fetch with
    | .error _ => s
    | .ok f =>
      if t.codeFrozen t.here.pc (f.len / 2) then s
      else { (t.touchFetch t.here.pc f.len).fillCode t.here.pc f.halves with cur := s.cur }

/-- R73, R81, R121, R153: the words that an instruction fetches beside its own, in a page that is frozen: it waits. -/
def State.wordsFrozen (s : State) (i : Instr) : Bool :=
  let pc := s.here.pc
  match i with
  | .rep _ len _ _ _ => s.codeFrozen (pc + 4) (2 * (len.toNat + 1))
  | .rcpDef _ n => s.codeFrozen (pc + 4) (2 * n.toNat)
  | .jt a imm =>
    let t := pc + (imm.signExtend 64 <<< 1)
    let entry := t + 4 + (s.w a <<< 2)
    s.codeFrozen t 2 || s.codeFrozen entry 2 || (match fetchWord s entry with
      | .ok d => s.codeFrozen (t + d.signExtend 64) 2
      | .error _ => false)
  | _ => false

/-- R62, R74, R76, R84: the fetched instruction of the issuing context may issue. -/
def State.mayIssue (s : State) (w : BitVec 32) (len : Nat) (i : Instr) : Bool :=
  let mem (m : BitVec 8) : BitVec 32 :=
    m ++ (w.extractLsb' 8 4).setWidth 5 ++ (w.extractLsb' 4 4).setWidth 5 ++ 3#4 ++ (w.extractLsb' 0 4).setWidth 10
  let word : BitVec 32 := if len = 4 then w else if w.extractLsb' 12 4 = 6 then mem 0xD4 else
    if w.extractLsb' 12 4 = 7 then mem 0xD5 else 0
  s.ordered word (usedRegs w len i) && s.withinLimits word && !s.wordsFrozen i &&
  (match i with
    | .nend => s.here.fw || !s.pendingWork s.cur
    | .cNend => s.here.fw || !s.pendingWork s.cur
    | .unmaskw => !s.pendingWork s.cur
    | .rep _ _ _ _ _ => !s.bufferBusy
    | _ => true)

/-! ### Running ahead of a repetition block (R84, R85) -/

/-- R84: the instruction is a branch, a scalar integer or a workspace instruction. An `lpad` is counted among the branches, a
`c.nop` in none of the three classes (DESIGN CHOICE, log 48). -/
def aheadForm (w : BitVec 32) (len : Nat) (i : Instr) : Bool :=
  match i with
  | .br _ | .call _ | .beq _ _ _ | .bne _ _ _ | .blt _ _ _ | .bge _ _ _ | .bltu _ _ _ | .bgeu _ _ _ | .bbs _ _ _
  | .bbc _ _ _ | .jt _ _ | .lpad _ | .ret | .cRet | .cBr _ | .cBeqz _ _ | .cBnez _ _ | .addpc _ _ | .mfi _ _ | .wsa _
  | .mfe _ _ | .mte _ _ | .mfm _ _ | .mtm _ _ | .mfqc _ _ | .rcpDef _ _ | .rcpTagW _ _ | .rcpTagV _ _ | .rcpUntag _ _
  | .rcpDrop _ _ | .rcpMat _ _ | .rcpClr _
  | .cMov _ _ | .cAddi _ _ | .cLi _ _ | .cShli _ _ | .cAdd _ _ _ | .cSub _ _ _ => true
  | _ => len == 4 && (match decodePure w with
    | some (.int _ _ _ _ _) => true
    | some (.imm _ _ _ _) => true
    | some (.lih _ _) => true
    | some (.shift _ _ _ _ _) => true
    | _ => false)

/-- The registers that words of a recipe or a block name. -/
def wordRegs (ws : List (BitVec 32)) : List Nat :=
  ws.flatMap (fun w => match decodePure w with | some op => op.allRegs | none => [])

/-- R83, R84: the registers that a block reads or writes in any repetition, by code; 32 repetitions name every register that
its staggers reach. -/
def Block.regs (b : Block) : List Nat :=
  (List.range (min b.count.toNat 32)).flatMap (fun j => wordRegs (b.words.map (fun w => match decodePure w with
    | some op => staggered w op j b.sd b.sa b.sb
    | none => w)))

/-- R116, R118: some registers, those that their recipes read, and those whose recipes read them. -/
def State.withTagged (s : State) (rs : List Nat) : List Nat :=
  rs ++ s.hereTags.flatMap (fun t =>
    let regs := t.reg :: wordRegs (s.tagWords t)
    if regs.any rs.contains then regs else [])

/-- R84, R116, R118: the registers that an instruction may read or write, those of recipes among them: a recipe instruction
acts on the registers tagged with its recipe. -/
def State.touchedRegs (s : State) (rs : List Nat) (i : Instr) : List Nat :=
  let tagged (d : BitVec 5) : List Nat := (s.hereTags.filter (fun t => t.num == d.setWidth 4)).map (·.reg)
  let own := match i with
    | .rcpDef d _ => tagged d
    | .rcpClr d => tagged d
    | _ => []
  s.withTagged (s.withTagged (rs ++ own))

/-- R85: the instruction would park: the fetches of a `jt` and those of a `rcp.def`'s words can, among what runs ahead. -/
def State.wouldPark (s : State) (i : Instr) : Bool :=
  let parked (r : Res State) : Bool := match r with | .error t => parks t.cause.code | .ok _ => false
  match i with
  | .jt a imm => parked (withRegs [a.toNat] [] (jumpTable a imm) s)
  | .rcpDef d n => parked (defineRecipe (d.setWidth 4) n.toNat s)
  | _ => false

/-- R84, R85: the instruction at the PC of the issuing context may run ahead of its block. What cannot be fetched, what shares a
register with the block and what would park waits until the block completes. -/
noncomputable def State.aheadReady (s : State) (b : Block) : Bool :=
  match s.fetch with
  | .error _ => false
  | .ok f => match f.instr with
    | none => false
    | some i =>
      let shared := s.touchedRegs b.regs i
      s.codeHeld (f.len / 2) && aheadForm f.word f.len i && !(s.touchedRegs (usedRegs f.word f.len i) i).any shared.contains &&
        s.mayIssue f.word f.len i && !s.wouldPark i

/-- R62, R63, R84: the next instruction of the issuing context is ready for the issue port: it is in the instruction cache. What
cannot be fetched or is illegal faults at issue. -/
noncomputable def State.ready (s : State) : Bool :=
  let a := s.here
  s.waitOver a &&
  (a.spent || (match a.block with
    | some b => s.aheadReady b
    | none =>
      match s.fetch with
      | .error _ => true
      | .ok f => s.codeHeld (f.len / 2) && (match f.instr with
        | none => true
        | some i => s.mayIssue f.word f.len i)))

/-- The key in a slot of a core, if the slot holds an activation that is eligible (R62): of the class asked for and
ready. -/
noncomputable def State.eligible (s : State) (c : Core) (urgent : Bool) (n : BitVec 2) : Option (BitVec 2 × Nat) :=
  match c.slots[n.toNat]'(n.isLt) with
  | none => none
  | some k =>
    if (s.act? k).isSome && (s.act k).status.urg == urgent && State.ready { s with cur := k } then some (n, k) else none

/-- R62: the slot that issues: an urgent one unless a window is open, the two alternating; else the next normal one. -/
noncomputable def State.chooseSlot (s : State) (dt : Nat) (stg : Bool) : Option (BitVec 2 × Nat) :=
  let c := s.core dt stg
  let from' (n : BitVec 2) : List (BitVec 2) := [n + 1, n + 2, n + 3, n]
  let urgent := if s.windowOpen dt stg then none else (from' c.lastUrgent).findSome? (s.eligible c true)
  match urgent with
  | some x => some x
  | none => (from' c.lastNormal).findSome? (s.eligible c false)

/-! ### One instruction -/

/-- R106, R108, R198: the activation is blocked with its instruction not issued. -/
def State.retries (s : State) (k : Nat) : Bool := (s.act k).wait.retries

/-- R137, R377: a translation missed in both caches is counted. -/
def State.countMiss (s : State) (k : Nat) : State :=
  let a := s.act k
  if !a.fw && a.place == .parked && a.cause.code == cTMISS && (s.lookup a a.value.toNat).isNone
  then s.updCore a.tile a.stg (fun c => (c.count 3 1).count 4 1) else s

/-- R377: an instruction of an activation retired: it took no fault and need not be tried again. -/
def State.retired (s : State) (k : Nat) (pc : Word) : Bool :=
  match s.act? k with
  | none => false
  | some a => !s.retries k && (match a.place with
    | .stopped => false
    | .parked => a.pc != pc
    | _ => true)

/-- R161, R170: a word that neither accesses memory nor orders accesses, so that a load after it may have been read before it: a
branch, a scalar integer instruction or an `rget` (log 102). -/
def ordersNothing (w : BitVec 32) : Bool :=
  let top := (w.extractLsb' 24 8).toNat
  top == 0xC0 || top == 0xC2 || (decide (0xC8 ≤ top) && decide (top ≤ 0xCE)) || (top == 0xE0 && w.extractLsb' 11 3 == 2)

/-- R77, R356, R377: the counts of an instruction that the activation k, which was a before it, has issued, in its window and its
core's counters; the self-test that a mismatch of an mma has made due is seen to. What was read early stands only where the
instruction orders nothing (R170). -/
def State.counted (s : State) (k : Nat) (a : Act) (w : BitVec 32) (reruns : Nat) : State :=
  let s := if a.fw || majorOf w != 0x35 then s else s.settleTest (s.ptKey a.tile)
  let s := if ordersNothing w then s else s.updAct k (fun x => { x with preread := none })
  if !s.retired k a.pc then s.countMiss k
  else
    let s := if a.fw then s else s.updAct k (fun x =>
      if a.status.mw then { x with status := { x.status with mwcnt := x.status.mwcnt + 1 } } else x)
    if a.fw then
      let fw := k - Config.fwKey
      let f := s.fwCore fw
      let perf := f.perf.set 1 (f.perf[1] + 1)
      s.setFw fw { f with perf := perf.set 5 (perf[5] + BitVec.ofNat 64 (vectorCycles w)) }
    else s.updCore a.tile a.stg (fun c =>
      ((c.count 1 1).count 5 (vectorCycles w)).count 6 (if majorOf w = 0x35 then 2 + 8 * reruns else 0))

/-- R292: the reruns that the accumulators of a tile have counted. -/
def Tile.reruns (t : Tile) : Nat := (t.accs.toList.map (fun a => a.rerun.toNat)).sum

/-- R360: the tile of an activation charged. -/
def State.charged (s : State) (a : Act) (n : Nat) : State :=
  if a.fw then s else s.setTile a.tile ((s.tile a.tile).charge n)

/-- R62: the issue noted by the core: its last slot, and the cycles since it issued. -/
def State.noteIssue (s : State) (a : Act) (n : BitVec 2) : State :=
  if a.fw then s else s.updCore a.tile a.stg (fun c =>
    if a.status.urg then { c with sinceIssue := 0, lastUrgent := n } else { c with sinceIssue := 0, lastNormal := n })

/-- R360, R361: an instruction of the issuing context run and charged, unless it has to wait to be tried again, and
counted. -/
def State.runCharged (s : State) (n : BitVec 2) (w : BitVec 32) (cost : Nat)
    (f : State → Out State) : Out State :=
  let a := s.here
  let t0 := (s.noteIssue a n).charged a cost
  match f t0 with
  | .next t =>
    if t.retries s.cur then f s
    else .next (t.counted s.cur a w ((t.tile a.tile).reruns - (s.tile a.tile).reruns))
  | .fault e => .fault e
  | .refused e => .refused e

/-! ### The register cache (R103) -/

/-- R116: some registers with those that a replay of them reads. -/
def State.replayRegs (s : State) (rs : List Nat) : List Nat :=
  rs ++ (s.hereTags.filter (fun t => t.dropped && rs.contains t.reg)).flatMap (fun t => wordRegs (s.tagWords t))

/-- R103: a vector of an activation put into the register cache. With 32 entries in use the last is freed: a tagged vector is
dropped, another written back. -/
def Core.needVector (c : Core) (k r : Nat) : Core :=
  if c.vcache.contains (k, r) then c
  else if c.vcache.length < 32 then { c with vcache := (k, r) :: c.vcache }
  else match c.vcache.getLast? with
    | some (o, x) => { c with
        vcache := (k, r) :: c.vcache.dropLast
        tags := c.tags.map (fun t => if t.owner = o ∧ t.reg = x then { t with dropped := true } else t) }
    | none => c

/-- R103: the vectors that an instruction of the issuing activation needs, present in the register cache; which entries it frees
for them is the device's choice. -/
def State.needVectors (s : State) (rs : List Nat) : State :=
  if s.here.fw then s
  else
    let need := ((s.replayRegs (s.replayRegs rs)).filter (fun r => decide (32 ≤ r) && decide (r < 48))).eraseDups
    s.updHereCore (fun c =>
      let mine (e : Nat × Nat) : Bool := e.1 == s.cur && need.contains e.2
      need.foldl (fun c r => c.needVector s.cur r) { c with
        vcache := c.vcache.filter mine ++ c.vcache.filter (fun e => !mine e) })

/-- R33, R35: the instruction is one that is always illegal: R34 puts its fault before the checks of the window. -/
def alwaysIllegal : Instr → Bool
  | .udf _ => true
  | .ill => true
  | _ => false

/-- R29 to R34, R67, R77: the next instruction of the issuing context issues from slot n. -/
noncomputable def State.issueNext (s : State) (n : BitVec 2) : Out State :=
  let a := s.here
  if a.spent then .next (s.overrun s.cur)
  else match s.fetch with
    | .error t => .next ((s.takeTrap s.cur t).countMiss s.cur)
    | .ok f =>
      let s := (s.touchFetch a.pc f.len).fillCode a.pc f.halves
      match f.instr with
      | none => .next ((s.takeTrap s.cur (trapOf cILLEGAL (f.word.setWidth 64))))
      | some i =>
        match (if alwaysIllegal i then .ok () else checkWindow257 s) with
        | .error t => .next (s.takeTrap s.cur t)
        | .ok _ =>
          (s.needVectors (usedRegs f.word f.len i)).runCharged n f.word (s.chargeFor f.word f.len) (exec i)

/-- R331, R334, R346: a tile runs: a replica's, or that of a served VT that is not lost. -/
def State.tileRuns (s : State) (tile : Nat) : Bool :=
  decide (Config.replicaBase ≤ tile) || ((s.ptOf tile).isSome && !(s.tile tile).lost)

/-- R85, R332: an emergency stops the running activations of a tile, and its repetition buffers, at their next boundary. -/
def State.stopping (s : State) (tile : Nat) : Bool :=
  let d := s.die (s.dieOf tile)
  d.rotVt == tile && d.phase == .draining && d.emerg

/-- R362, R429: local cycles from one issue of a core to its next: one, n + 1 under a throttle of n, 16 under the brake. -/
def State.issueGap (s : State) (tile : Nat) : Nat :=
  max ((s.tile tile).throttle.toNat + 1)
    (if (s.panel ((if tile < Config.replicaBase then tile else tile - Config.replicaBase) / 4096)).brake then 16 else 1)

/-- R331, R332, R360, R396: a core issues and sends: its tile runs and is not stopping, it is not halted and the reserve is
not empty. -/
def State.mayRun (s : State) (dt : Nat) (stg : Bool) : Bool :=
  s.tileRuns dt && !(s.core dt stg).halted && decide (0 < (s.tile dt).reserve) && !s.stopping dt

/-- R84, R362: enough local cycles have passed since the port, `x` cycles ago, issued, or the buffer sent; under a throttle or
the brake the two share the rate. -/
def State.paced (s : State) (dt x y : Nat) : Bool :=
  let gap := s.issueGap dt
  decide (gap ≤ x) && (decide (gap = 1) || decide (gap ≤ y))

/-- R62, R79: a core issues one instruction of the slot it chooses; an urgent node that may start does so first. -/
noncomputable def State.issueCore (s : State) (dt : Nat) (stg : Bool) : Out State :=
  let c := s.core dt stg
  if !s.mayRun dt stg || !s.paced dt c.sinceIssue c.sinceBlock then .next s
  else
    let s := (s.urgentStart dt stg).getD s
    match s.chooseSlot dt stg with
    | none => .next s
    | some (n, k) => State.issueNext { s with cur := k } n

/-! ### The repetition buffer (R84, R85) -/

/-- R62, R78: the repetition buffer may send for an activation: an urgent one while no window is open, a normal one while no
urgent slot may issue. -/
noncomputable def State.bufferTurn (s : State) (dt : Nat) (stg : Bool) (a : Act) : Bool :=
  if s.windowOpen dt stg then !a.status.urg
  else a.status.urg || (([0, 1, 2, 3] : List (BitVec 2)).findSome? (s.eligible (s.core dt stg) true)).isNone

/-- R84, R360, R377: the next block instruction of the issuing activation sent and charged, unless its operands are not ready or
it would wait for a queue. -/
def State.sendBlock (s : State) (b : Block) : State :=
  let a := s.here
  let (w, op) := a.blockWord b
  let rs := match op with | some op => op.allRegs | none => []
  if a.spent || !s.ordered w rs || !s.withinLimits w then s
  else
    let t0 := ((s.updCore a.tile a.stg (fun c => { c with sinceBlock := 0, buffer := some s.cur })).charged a
      (s.chargeFor w 4)).needVectors rs
    match t0.blockStep b with
    | none => s
    | some t => t.counted s.cur a w ((t.tile a.tile).reruns - (s.tile a.tile).reruns)

/-- R84: the repetition buffer of a core sends one instruction of its block. -/
noncomputable def State.bufferStep (s : State) (dt : Nat) (stg : Bool) : State :=
  let c := s.core dt stg
  if !s.mayRun dt stg || !s.paced dt c.sinceBlock c.sinceIssue then s
  else match s.bufferOwner dt stg with
    | none => s
    | some k =>
      match (s.act k).block with
      | none => s
      | some b => if s.bufferTurn dt stg (s.act k) then State.sendBlock { s with cur := k } b else s

/-- R373, R375, R392, R396, R429: a firmware core issues, under the brake one instruction per 16 local cycles; its repetition
buffer completes a block before it goes on (log 79). -/
noncomputable def State.issueFirmware (s : State) (fw : Nat) : Out State :=
  let f := s.fwCore fw
  let s : State := { s with cur := Config.fwKey + fw }
  if f.halted || f.idle || f.stopped || f.excluded || (s.act? s.cur).isNone ||
    ((s.panel (fw / 256)).brake && decide (f.sinceIssue < 16)) then .next s
  else
    let t := s.setFw fw { f with sinceIssue := 0 }
    match s.here.block with
    | none => if s.ready then t.issueNext 0 else .next s
    | some b =>
      match t.blockStep b with
      | none => .next s
      | some u => .next (u.counted s.cur s.here (s.here.blockWord b).1 0)

/-! ### A local cycle (R360, R67, R109) -/

/-- R360, R370: one local cycle of a tile, in the stress bin of its PT (R357). A tile whose reserve is empty pauses its clock;
a halted core's cycles count toward no budget (R396). -/
def State.cycle (s : State) (tile : Nat) : State :=
  let t := s.tile tile
  if !s.tileRuns tile then s
  else if t.reserve ≤ 0 then s.setTile tile { t with power1 := t.power1 + 1 }
  else
    let tick (c : Core) : Core := ({ c with
      sinceIssue := min (c.sinceIssue + 1) 16
      sinceBlock := min (c.sinceBlock + 1) 16 }).count 0 1
    let pt := s.ptKey tile
    let s := s.setPt pt ((s.pt pt).age (Config.stress pt s.tick))
    let s := s.setTile tile { t.charge 1 with
      fresh := Vector.replicate 8 0
      pushed := Vector.replicate 8 0
      engined := Vector.replicate 8 0
      freed := Vector.replicate 8 0
      comp := tick t.comp
      stag := tick t.stag }
    State.wakeMulti { s with acts := s.acts.map (fun e =>
      if e.2.tile = tile && !e.2.fw && e.2.counts && !(t.core e.2.stg).halted then (e.1, { e.2 with used := e.2.used + 1 })
      else e) } tile

/-- R377: one local cycle of a firmware core counted; such a core has no reserve. -/
def State.cycleFirmware (s : State) (fw : Nat) : State :=
  match tabFind s.fws fw with
  | some f => s.setFw fw { f with perf := f.perf.set 0 (f.perf[0] + 1), sinceIssue := min (f.sinceIssue + 1) 16 }
  | none => s

/-! ### Free choices of the device, and the turn when none is scheduled -/

/-- R137: a translation entry given up by a cache. -/
def evictVa (l : List Tlb) (va : Nat) : List Tlb := l.filter (fun e => e.va != va)

/-- R161, R170: an activation reads 8 bytes of own LM before the load of them issues: it issues from a slot, none of its
accesses or waits is open, no recipe stands between, and no byte is one of its workspace (log 102). -/
def State.readEarly (s : State) (key off : Nat) : State :=
  let a := s.act key
  let t : State := { s with cur := key }
  let inSlot : Bool := match a.place with | .slot _ => true | _ => false
  if a.fw || a.replica || a.lazy || !inSlot || a.wait != .none || s.unperformed key || !t.hereTags.isEmpty ||
    (decide (off < a.wp + Config.wsSize) && decide (a.wp < off + 8)) then s
  else match loadLocal t (BitVec.ofNat 64 off) 8 with
    | .ok x => s.updAct key (fun a => { a with preread := some (off, x) })
    | .error _ => s

/-- R63, R103, R133, R137, R139, R164, R167, R170, R292, R424, R428, R430: a free choice of the device: a line or an entry
given up, the vector that the register cache frees next, a flit sent, a store shown, a release seen or a load read early, the
draw measured; or an input: the owners' page tables, a firmware image, fuses, an upset. -/
noncomputable def State.choose (s : State) : Choice → State
  | .evictL1 dt stg line => s.updCore dt stg (fun c => { c with l1 := tabErase c.l1 line })
  | .evictTlb dt stg va => s.updCore dt stg (fun c => { c with tlb := evictVa c.tlb va })
  | .evictDie die va => s.setDie die { s.die die with tlb := evictVa (s.die die).tlb va }
  | .evictDtlb dt va => s.setTile dt { s.tile dt with dtlb := evictVa (s.tile dt).dtlb va }
  | .fetchCode dt stg n => s.fetchCode dt stg n
  | .evictCode dt stg addr => s.updCore dt stg (fun c => { c with icache := tabErase c.icache addr })
  | .nextVector dt stg owner reg => s.updCore dt stg (fun c =>
      if c.vcache.contains (owner, reg) then { c with vcache := c.vcache.erase (owner, reg) ++ [(owner, reg)] } else c)
  | .showStore id k => s.showStore id k
  | .migrate die n => s.copyRound die n
  | .hdmDecoder p n r =>
    let hdm := (s.panel p).hdm.filter (fun d => d.1 != n)
    s.setPanel p { s.panel p with hdm := match r with
      | some (host, hbm, gib) => if 8 ≤ n then hdm else tabSet hdm n (host * 2 ^ 30, hbm * 2 ^ 30 % 2 ^ 45, gib * 2 ^ 30)
      | none => hdm }
  | .hasten key => s.updAct key (fun a => { a with hasty := true })
  | .delay key => s.updAct key (fun a => { a with lazy := true })
  | .readEarly key off => s.readEarly key off
  | .sendFlit p port => s.sendFlit p port
  | .measure p => s.setPanel p ((s.panel p).measured s.tick)
  | .ownerPages l => { s with pages := l }
  | .firmwareImage fw second x =>
    if second then s.setPanel (fw / 256) { s.panel (fw / 256) with second := x } else s.setFw fw { s.fwCore fw with image := x }
  | .fuse p key n => if (s.panel p).state = .off then s.setPanel p { s.panel p with fusedKey := Config.digest key, fused := n } else s
  | .upset n => { s with upset := n }

/-- R424: the arrival, whole, of each flit that one end of a link keeps and the other expects. -/
noncomputable def State.flitsDue (s : State) : List Instr :=
  s.panels.flatMap (fun e => e.2.ports.filterMap (fun x => match s.linked e.1 x.1 with
    | some q =>
      let y := s.port q (peerPort x.1)
      if (y.kept x.2.expect).isSome then some (.flit e.1 x.1 x.2.expect (y.expect - 1) true true 0) else none
    | none => none))

/-- R424: a panel and one of its ports that can send a parcel which waits for it. -/
def State.parcelDue (s : State) : Option (Nat × Nat) :=
  s.panels.findSome? (fun e => ((e.2.outbound.map (s.portFor e.1)).find? (fun n =>
    (s.linked e.1 n).isSome && decide ((s.port e.1 n).buffer.length < 4096))).map (e.1, ·))

/-- The events that may be pending, oldest first of each kind, in the order in which the model tries them when no turn
is scheduled (log 1): flits, responses, messages, commits and epochs, retries, copies, starts. -/
noncomputable def State.candidates (s : State) : List Instr :=
  s.flitsDue ++
  (List.range s.reqs.length).map Instr.accessResponse ++
  ((List.range s.msgs.length).zip s.msgs).map (fun e => match e.2.body with
    | .token _ _ _ _ _ _ => Instr.token e.1
    | .restoreItem _ _ => Instr.restoreItem e.1
    | .rodAdd _ _ => Instr.remoteRodAdd e.1
    | .beadReturn _ _ => Instr.beadReturn e.1
    | .trap _ _ _ _ => Instr.trapMessage e.1
    | .node _ _ => Instr.token e.1) ++
  (s.acts.filter (fun e => !e.2.fw)).map (fun e => match e.2.commit with
    | .borrow => Instr.borrow e.1
    | .release => Instr.commit e.1
    | .sent => Instr.commit e.1
    | _ => Instr.budgetExpiry e.1) ++
  (s.tiles.map (fun e => [Instr.epochApply e.1, Instr.epochAck e.1] ++
    (e.2.nodes.filter (fun x => x.2.state == stFaulted)).map (fun x => Instr.nodeRetry (e.1 * 4096 + x.1)))).flatten ++
  (s.copies.map (fun e => [Instr.copyPost e.1, Instr.copySegment e.1] ++
    (List.range e.2.flight.length).map (Instr.segmentDelivery e.1) ++ [Instr.copyQueuePush e.1, Instr.copyEnd e.1])).flatten ++
  (s.tiles.map (fun e => [Instr.urgentStart e.1 false, Instr.urgentStart e.1 true, Instr.nodeStart e.1 false,
    Instr.nodeStart e.1 true])).flatten

/-- R358: a slot of a tile is eligible, the reserve apart. -/
noncomputable def State.tileEligible (s : State) (dt : Nat) : Bool :=
  [false, true].any (fun stg => [false, true].any (fun urgent =>
    ([0, 1, 2, 3] : List (BitVec 2)).any (fun n => (s.eligible (s.core dt stg) urgent n).isSome)))

/-- R107, R319: the word pushes into a queue. -/
def pushesTo (q : Fin 8) (w : BitVec 32) : Bool :=
  queueOf (fieldD w) == some q && (majorOf w == 0x1A || (match decodePure w with
    | some op => op.fields.1 == .vec
    | none => false)) && !(majorOf w == 0x1A && w.getLsbD 3)

/-- R319: a core may yet push into queue q in the present local cycle, from its port, where an urgent node may start first, or
its repetition buffer. -/
noncomputable def State.corePushes (s : State) (dt : Nat) (stg : Bool) (q : Fin 8) : Bool :=
  let c := s.core dt stg
  let u := (s.urgentStart dt stg).getD s
  s.mayRun dt stg &&
  ((s.paced dt c.sinceIssue c.sinceBlock && (match u.chooseSlot dt stg with
      | some (_, k) => (match State.fetch { u with cur := k } with | .ok f => f.len == 4 && pushesTo q f.word | .error _ => false)
      | none => false)) ||
    (s.paced dt c.sinceBlock c.sinceIssue && (match s.bufferOwner dt stg with
      | some k => (match (s.act k).block with
        | some b => s.bufferTurn dt stg (s.act k) && pushesTo q ((s.act k).blockWord b).1 &&
            (State.sendBlock { s with cur := k } b) != { s with cur := k }
        | none => false)
      | none => false)))

/-- R319, R358: what an event of the device needs of the slots of a tile: a silent cycle an eligible slot, a copy engine's push
a core that does not push in the same local cycle. -/
noncomputable def State.eventOpen (s : State) : Instr → Bool
  | .silenceProbe p pt => (match s.tileOn (p * 4096 + pt) with
    | some tile => s.tileEligible tile
    | none => false)
  | .copyQueuePush key => (match tabFind s.copies key with
    | some c => !s.corePushes c.dt c.stg (Fin.ofNat 8 c.queue)
    | none => false)
  | _ => true

/-- The event is enabled: it may take place and changes the state. -/
noncomputable def State.enabled (s : State) (i : Instr) : Bool :=
  s.eventOpen i && (match exec i s with
  | .next t => t != s
  | _ => true)

/-- The tile and core of the current activation, or of the tile it ran on. -/
def State.currentCore (s : State) : Nat × Bool :=
  match s.act? s.cur with
  | some a => (a.tile, a.stg)
  | none => (s.cur / 4096, false)

/-- R63: the next instruction of each slot of a core brought into its instruction cache. -/
noncomputable def State.fetchSlots (s : State) (dt : Nat) (stg : Bool) : State :=
  ([0, 1, 2, 3] : List (BitVec 2)).foldl (fun s n => s.fetchCode dt stg n) s

/-- The turn of a state that schedules none (log 1): the first enabled event, else a parcel that can leave a port, else a local
cycle, the instruction fetches, and the repetition buffer and the issue port of the current context's core. -/
noncomputable def State.idleTurn (s : State) : Out State :=
  match s.candidates.find? s.enabled, s.parcelDue with
  | some i, _ => exec i s
  | none, some (p, n) => .next (s.sendFlit p n)
  | none, none =>
    if Config.fwKey ≤ s.cur ∧ s.cur < orphan then s.issueFirmware (s.cur - Config.fwKey)
    else
      let (dt, stg) := s.currentCore
      (((s.cycle dt).fetchSlots dt stg).bufferStep dt stg).issueCore dt stg

/-- One turn: an issue, a block instruction sent, a local cycle, an event of the device, or a free choice. An event turn that
names an instruction word does nothing: words issue from slots. -/
noncomputable def State.runTurn (s : State) : Turn → Out State
  | .issue dt stg => s.issueCore dt stg
  | .issueFw fw => s.issueFirmware fw
  | .buffer dt stg => .next (s.bufferStep dt stg)
  | .cycle dt => .next (s.cycle dt)
  | .cycleFw fw => .next (s.cycleFirmware fw)
  | .event i => if (encode i).isEmpty && s.eventOpen i then exec i s else .next s
  | .choice c => .next (s.choose c)

/-- What every step adds: the counter that the free values are taken by. -/
def State.stamp (s : State) : State := { s with tick := s.tick + 1 }

/-! ### Placing an instruction -/

/-- The virtual page of a placed instruction, mapped to the first page of the HBM of die 0 under key id 0. -/
def placedPage : Tlb where
  va := 0x10000
  size := 0
  pa := 0
  key := 0
  asid := 0
  glob := false
  place := 0
  home := 0
  mig := false
  r := true
  w := true
  x := true
  replicas := []

/-- The activation of node 0 of VT 0 of panel 0, in slot 0 of its compute core, at the placed page. -/
def placedAct : Act :=
  { Act.zero with
    place := .slot 0
    wp := 0xA1000
    area := Config.areaSize
    pc := 0x10000
    leasePtr := 0xA2200
    nref := 0x80000000000
    gid := 1
    budget := 2 ^ 24 }

/-- A running node 0 for the placed activation. -/
def placedNode : Node := { Node.empty with state := stRunning, gid := 1, entry := 0x10000, budget := 14 }

/-- A compute core that holds the placed activation and its page's translation. -/
def placedCore : Core :=
  { Core.empty with slots := #v[some 0, none, none, none], tlb := [placedPage] }

/-- The bytes of a placed instruction: those of the table's bits, each halfword little-endian (R29). -/
def placedBytes (nbits w : Nat) : List Byte := bytesOfHalves (tableHalves nbits w)

/-- VT 0 of panel 0 in service on PT 0, its compute core holding only the placed activation, which has nothing
outstanding. -/
def State.placeActivation (s : State) : State :=
  let t := s.tile 0
  { s with
    cur := 0
    acts := tabSet (s.acts.filter (fun e => e.1 != 0 && !(e.2.tile == 0 && !e.2.stg && !e.2.fw))) 0 placedAct
    reqs := s.reqs.filter (fun r => r.owner != 0)
    copies := s.copies.filter (fun c => c.2.dt != 0)
    panels := tabSet s.panels 0 { s.panel 0 with state := .ready, inDomain := true, vts := max (s.panel 0).vts 1 }
    pts := tabSet s.pts 0 { s.pt 0 with role := .inService 0 }
    dies := tabSet s.dies 0 { s.die 0 with excluded := false, phase := .idle }
    tiles := tabSet s.tiles 0 { t with
      nodes := tabSet t.nodes 0 placedNode
      comp := placedCore
      reserve := Tile.empty.reserve
      retained := t.retained.filter (fun r => r.issuer != some 0 && r.core != some false)
      draining := false
      lost := false } }

end Sys2Proof.Machine
end

