-- ==== Sys2Proof/Machine/Step.lean ====
section
/-! DEFINITION. One step of the machine: the next turn of `sched`, or of the state itself when none is scheduled; and the
placing of an instruction where the next step fetches it. -/

namespace Sys2Proof.Machine

/-- One step: the turn at the head of the schedule is taken, or the state's own turn when there is none. -/
noncomputable def step (s : State) : Host.Outcome State Fault Refusal :=
  match (match s.sched with
    | [] => s.idleTurn
    | t :: rest => State.runTurn { s with sched := rest } t) with
  | .next t => .next t.stamp
  | .fault e => .fault e
  | .refused e => .refused e

/-- The state with an instruction placed where the next step fetches it: an activation of VT 0 is put in slot 0 of its
compute core (as a launch and a start would, log 24), the instruction's bytes lie at its PC's page and in the core's instruction
cache (R62), and the issue port of that core has the next turn. -/
def State.withFetchWord (s : State) (nbits w : Nat) : State :=
  let s := s.placeActivation.updCore 0 false (fun c => { c with
    icache := (List.range 8).map (fun i => (2 * i, (tableHalves nbits w).getD i 0)) })
  { s with
    phys := memWriteBytes s.phys 0 (placedBytes nbits w)
    keys := tabSet s.keys 0 0
    poison := s.poison.filter (fun l => l != 0)
    moved := s.moved.filter (fun m => m.old != 0)
    sched := .issue 0 false :: s.sched }

end Sys2Proof.Machine
end

