-- ==== Sys2Proof/Safety.lean ====
section
/-! DEFINITION. What a safe run is, and the conditions under which the statements about an instruction hold: that a
context issues, that every slot names a live activation, that the vector operands of an instruction are at hand. -/

namespace Sys2Proof.Machine

/-- Every byte memory of the machine has the canonical form: device-physical memory and the LM of every tile. -/
def State.memoryWf (s : State) : Bool :=
  Memory.wf s.phys && s.tiles.all (fun e => Memory.wf e.2.lm)

/-- k steps from s all answer a next state, and the memories of each are canonical. -/
def SafeFor : Nat → State → Prop
  | 0, s => s.memoryWf = true
  | k + 1, s => s.memoryWf = true ∧ ∃ t, step s = .next t ∧ SafeFor k t

/-- R62: `a` is the context that `cur` names, an activation of a tile or a firmware core's; it neither waits nor has
stopped, and it has no tagged register (R111). -/
structure Issuing (s : State) (a : Act) : Prop where
  here     : s.act? s.cur = some a
  runs     : a.halting = false
  untagged : s.hereTags = []

/-- The state in which the issuing context became `a` and its PC moved past an instruction of n bytes. -/
def State.after (s : State) (a : Act) (n : Word) : State := s.setAct s.cur { a with pc := a.pc + n }

/-- R107, R108: the vector operands of an instruction are at hand: each queue named is used in its core's direction, by
no replica (R353), and holds an entry for each source and room for each result. -/
structure VectorReady (s : State) (a : Act) (srcs dsts : List (BitVec 5)) : Prop where
  allowed  : checkQueues a srcs dsts = .ok ()
  original : (a.replica && (srcs ++ dsts).any (fun x => (queueOf x).isSome)) = false
  ready    : queueWait (s.tile a.tile) srcs dsts = none

end Sys2Proof.Machine
end

