-- ==== Sys2Proof/Certificates/Slice0/Obligations.lean ====
section
/-! DEFINITION. The statements for the provers. Each says in its docstring which rules of spec/ it formalises. `Issuing s a`
says that `a` is the context that issues in `s` (Safety.lean); `s.after b n` is `s` in which that context became `b` and
its PC moved past n bytes, so an equation `exec i s = .next (s.after b n)` also says that nothing else changed. -/

namespace Sys2Proof.Stated

/-! ### Scalar integer instructions -/

/-- R89: a value at width 64 or, in a W form, at width 32 with its sign extended. -/
def atWidth (f : (n : Nat) → BitVec n → BitVec n → BitVec n) (w : Bool) (x y : Word) : Word :=
  if w then (f 32 (x.setWidth 32) (y.setWidth 32)).signExtend 64 else f 64 x y

/-- R90: 1 or 0. -/
def flagOf (n : Nat) (b : Bool) : BitVec n := if b then 1 else 0

/-- R90: the two-operand operations of major 0x08 as operations on N-bit values. -/
def binaryOps : List ((BitVec 5 → BitVec 5 → BitVec 5 → Bool → Instr) × ((n : Nat) → BitVec n → BitVec n → BitVec n)) :=
  [ (.add, fun _ x y => x + y),
    (.sub, fun _ x y => x - y),
    (.and, fun _ x y => x &&& y),
    (.or, fun _ x y => x ||| y),
    (.xor, fun _ x y => x ^^^ y),
    (.andn, fun _ x y => x &&& ~~~y),
    (.shl, fun n x y => x <<< (y.toNat % n)),
    (.shr, fun n x y => x >>> (y.toNat % n)),
    (.sha, fun n x y => x.sshiftRight (y.toNat % n)),
    (.ror, fun n x y => x.rotateRight (y.toNat % n)),
    (.mul, fun _ x y => x * y),
    (.min, fun _ x y => if x.sle y then x else y),
    (.max, fun _ x y => if y.sle x then x else y),
    (.minu, fun _ x y => if x ≤ y then x else y),
    (.maxu, fun _ x y => if y ≤ x then x else y),
    (.slt, fun n x y => flagOf n (x.slt y)),
    (.sltu, fun n x y => flagOf n (x.ult y)),
    (.seq, fun n x y => flagOf n (x == y)),
    (.adds1, fun _ x y => x + y * 2),
    (.adds2, fun _ x y => x + y * 4),
    (.adds3, fun _ x y => x + y * 8) ]

/-- R90: the high halves of the products. -/
def highOps : List ((BitVec 5 → BitVec 5 → BitVec 5 → Bool → Instr) × ((n : Nat) → BitVec n → BitVec n → BitVec n)) :=
  [ (.mulh, fun n x y => (x.signExtend (n + n) * y.signExtend (n + n)).extractLsb' n n),
    (.mulhu, fun n x y => (x.setWidth (n + n) * y.setWidth (n + n)).extractLsb' n n) ]

/-- R91: division and remainder, with the two cases that R91 fixes. -/
def divisionOps : List ((BitVec 5 → BitVec 5 → BitVec 5 → Bool → Instr) × ((n : Nat) → BitVec n → BitVec n → BitVec n)) :=
  [ (.div, fun n x y => if y = 0 then BitVec.allOnes n else
      if x = BitVec.intMin n ∧ y = BitVec.allOnes n then x else x.sdiv y),
    (.divu, fun n x y => if y = 0 then BitVec.allOnes n else x / y),
    (.rem, fun n x y => if y = 0 then x else if x = BitVec.intMin n ∧ y = BitVec.allOnes n then 0 else x.srem y),
    (.remu, fun _ x y => if y = 0 then x else x % y) ]

end Sys2Proof.Stated

section
open Sys2Proof Sys2Proof.Machine Sys2Proof.Stated

/-- R89, R90: each two-operand operation of major 0x08, in both widths, completes: wd gets its value of the old wa and wb,
the PC moves on by 4, and nothing else changes.

R89, R90: mulh and mulhu complete with the high half of the signed or unsigned product. -/
def Obligations.ScalarBinaryResults : Prop :=
  (∀ p ∈ binaryOps, ∀ s x, Issuing s x → ∀ (d a b : BitVec 5) (w : Bool),
     exec (p.1 d a b w) s = .next (s.after (x.setW d (atWidth p.2 w (x.wreg a) (x.wreg b))) 4)) ∧
  (∀ p ∈ highOps, ∀ s x, Issuing s x → ∀ (d a b : BitVec 5) (w : Bool),
     exec (p.1 d a b w) s = .next (s.after (x.setW d (atWidth p.2 w (x.wreg a) (x.wreg b))) 4))

/-- R91: div, divu, rem and remu complete for every pair of operands and take no trap: quotients rounded toward zero,
remainders with the sign of the dividend, a zero divisor and the signed overflow with the values that R91 fixes. -/
def Obligations.DivisionResults : Prop :=
  ∀ p ∈ divisionOps, ∀ s x, Issuing s x → ∀ (d a b : BitVec 5) (w : Bool),
    exec (p.1 d a b w) s = .next (s.after (x.setW d (atWidth p.2 w (x.wreg a) (x.wreg b))) 4)

/-- R90, R92: the operations of one operand, of a width code, vta and sel complete. The counts of clz, ctz and popc are
said of the N-bit operand: the bits above the count of clz are zero and the next is set, and so on; brev and bswap by each
bit of the result; vta and sel by the value of R92 and R90.

R93 to R96: addi, andi, ori, xori, lih, the immediate shifts and addpc complete.

R43, R97: the compact integer forms have the effect of their 32-bit equivalents on w0 to w15, and the PC moves on
by 2. -/
def Obligations.UnaryAndImmediateResults : Prop :=
  (∀ s x, Issuing s x → ∀ (d a b : BitVec 5) (w : Bool),
     let n : Nat := if w then 32 else 64
     let bit (k : Nat) : Bool := (x.wreg a).getLsbD k
     let ext (y : Word) : Word := if w then (y.setWidth 32).signExtend 64 else y
     (∃ c : Nat, c ≤ n ∧ exec (.clz d a w) s = .next (s.after (x.setW d (BitVec.ofNat 64 c)) 4) ∧
       (∀ k, n - c ≤ k → k < n → bit k = false) ∧ (c < n → bit (n - 1 - c) = true)) ∧
     (∃ c : Nat, c ≤ n ∧ exec (.ctz d a w) s = .next (s.after (x.setW d (BitVec.ofNat 64 c)) 4) ∧
       (∀ k, k < c → bit k = false) ∧ (c < n → bit c = true)) ∧
     exec (.popc d a w) s =
       .next (s.after (x.setW d (BitVec.ofNat 64 ((List.range n).countP bit))) 4) ∧
     (∃ y : Word, exec (.brev d a w) s = .next (s.after (x.setW d (ext y)) 4) ∧
       ∀ k, k < n → y.getLsbD k = bit (n - 1 - k)) ∧
     (∃ y : Word, exec (.bswap d a w) s = .next (s.after (x.setW d (ext y)) 4) ∧
       ∀ k, k < n → y.getLsbD k = bit (8 * (n / 8 - 1 - k / 8) + k % 8)) ∧
     (b.toNat ≤ 2 → exec (.sext d a b) s =
       .next (s.after (x.setW d (((x.wreg a).setWidth (8 * 2 ^ b.toNat)).signExtend 64)) 4)) ∧
     (b.toNat ≤ 2 → exec (.zext d a b) s =
       .next (s.after (x.setW d (((x.wreg a).setWidth (8 * 2 ^ b.toNat)).setWidth 64)) 4)) ∧
     exec (.vta d a b) s = .next (s.after (x.setW d
       ((((x.wreg a).setWidth 15).setWidth 64 <<< 22) ||| ((x.wreg b).setWidth 22).setWidth 64)) 4) ∧
     exec (.sel d a b) s = .next (s.after (x.setW d (if x.wreg d ≠ 0 then x.wreg a else x.wreg b)) 4)) ∧
  (∀ s x, Issuing s x → ∀ (d a : BitVec 5) (imm : BitVec 14) (big : BitVec 19) (w : Bool) (amt : BitVec 6),
     exec (.addi d a imm) s = .next (s.after (x.setW d (x.wreg a + imm.signExtend 64)) 4) ∧
     exec (.andi d a imm) s = .next (s.after (x.setW d (x.wreg a &&& imm.setWidth 64)) 4) ∧
     exec (.ori d a imm) s = .next (s.after (x.setW d (x.wreg a ||| imm.setWidth 64)) 4) ∧
     exec (.xori d a imm) s = .next (s.after (x.setW d (x.wreg a ^^^ imm.setWidth 64)) 4) ∧
     exec (.lih d big) s = .next (s.after (x.setW d (big.signExtend 64 <<< 14)) 4) ∧
     exec (.addpc d big) s = .next (s.after (x.setW d (x.pc + big.signExtend 64 * 2)) 4) ∧
     (w = false ∨ amt.toNat < 32 →
       exec (.shli d a w amt) s =
         .next (s.after (x.setW d (atWidth (fun _ y _ => y <<< amt.toNat) w (x.wreg a) 0)) 4) ∧
       exec (.shri d a w amt) s =
         .next (s.after (x.setW d (atWidth (fun _ y _ => y >>> amt.toNat) w (x.wreg a) 0)) 4) ∧
       exec (.shai d a w amt) s =
         .next (s.after (x.setW d (atWidth (fun _ y _ => y.sshiftRight amt.toNat) w (x.wreg a) 0)) 4) ∧
       exec (.rori d a w amt) s =
         .next (s.after (x.setW d (atWidth (fun _ y _ => y.rotateRight amt.toNat) w (x.wreg a) 0)) 4))) ∧
  (∀ s x, Issuing s x → ∀ (d a b : BitVec 4) (imm : BitVec 8) (amt : BitVec 6),
     let r (i : BitVec 4) : BitVec 5 := i.setWidth 5
     exec .cNop s = .next (s.after x 2) ∧
     exec (.cMov d a) s = .next (s.after (x.setW (r d) (x.wreg (r a))) 2) ∧
     exec (.cAddi d imm) s = .next (s.after (x.setW (r d) (x.wreg (r d) + imm.signExtend 64)) 2) ∧
     exec (.cLi d imm) s = .next (s.after (x.setW (r d) (imm.signExtend 64)) 2) ∧
     exec (.cAdd d a b) s = .next (s.after (x.setW (r d) (x.wreg (r a) + x.wreg (r b))) 2) ∧
     exec (.cSub d a b) s = .next (s.after (x.setW (r d) (x.wreg (r a) - x.wreg (r b))) 2) ∧
     exec (.cShli d amt) s = .next (s.after (x.setW (r d) (x.wreg (r d) <<< amt.toNat)) 2))

end

namespace Sys2Proof.Stated

open Sys2Proof.Machine

/-! ### Control flow -/

/-- R70: the conditional branches and their conditions. -/
def branchOps : List ((BitVec 5 → BitVec 5 → BitVec 10 → Instr) × (Word → Word → Bool)) :=
  [ (.beq, fun x y => x == y),
    (.bne, fun x y => !(x == y)),
    (.blt, fun x y => x.slt y),
    (.bge, fun x y => y.sle x),
    (.bltu, fun x y => x.ult y),
    (.bgeu, fun x y => y.ule x),
    (.bbs, fun x y => x.getLsbD (y.toNat % 64)),
    (.bbc, fun x y => !x.getLsbD (y.toNat % 64)) ]

/-- R68: a transfer of control to a target: the PC is the target, or NONCANON is taken with no other effect. -/
def goesTo (r : Out State) (s : State) (x : Act) (target : Word) : Prop :=
  (target.toNat < 2 ^ 56 → r = .next (s.setAct s.cur { x with pc := target })) ∧
  (2 ^ 56 ≤ target.toNat → r = .next (s.takeTrap s.cur (trapOf cNONCANON target)))

/-- R84: the issuing context, which was x, became a, whose block the repetition buffer of a node's core holds. -/
def inBuffer (s : State) (x a : Act) : State :=
  if x.fw then s.setAct s.cur a
  else (s.setAct s.cur a).updCore x.tile x.stg (fun c => { c with buffer := some s.cur })

end Sys2Proof.Stated

section
open Sys2Proof Sys2Proof.Machine Sys2Proof.Stated

/-- R68, R70: the words of cond 0 to 7 are the eight conditional branches in the order of R70's table, those of 8 to 15 are
illegal; a branch whose condition fails goes on at PC + 4 and never takes NONCANON; one whose condition holds goes to PC + 2 ×
sext(off10).

R43, R68, R69: br and the compact branches.

R73: jt reads the header and the entry of its table and the word at the target through the fetch path, and goes to the
target where that word is an lpad of the table's label; an index past the count takes BOUNDS, an odd target or another
word LANDING.

R69, R71: call pushes the return address and writes it to w31; ret and c.ret pop it when it equals w31, and the PC is it.
The checks and their order: NONCANON, then CALLDEPTH; an empty shadow stack or a top other than w31 takes RETMISMATCH. Every
entry that a call pushes is even; of an odd one, which no call makes, the PC takes no bit 0 (the model's choice, log 65). -/
def Obligations.ControlTransfers : Prop :=
  (∀ (a b : BitVec 5) (off : BitVec 10),
     (∀ c : BitVec 4,
       let w : BitVec 32 := 0xC2#8 ++ c ++ a ++ b ++ off
       (∀ p, branchOps[c.toNat]? = some p → decodeWord w = .ok (p.1 a b off)) ∧
       (8 ≤ c.toNat → ∃ e, decodeWord w = .error e)) ∧
     (∀ p ∈ branchOps, ∀ s x, Issuing s x →
       (p.2 (x.wreg a) (x.wreg b) = false → exec (p.1 a b off) s = .next (s.after x 4)) ∧
       (p.2 (x.wreg a) (x.wreg b) = true → goesTo (exec (p.1 a b off) s) s x (x.pc + off.signExtend 64 * 2)))) ∧
  (∀ s x, Issuing s x → ∀ (imm : BitVec 24) (a : BitVec 4) (off8 : BitVec 8) (off12 : BitVec 12),
     goesTo (exec (.br imm) s) s x (x.pc + imm.signExtend 64 * 2) ∧
     goesTo (exec (.cBr off12) s) s x (x.pc + off12.signExtend 64 * 2) ∧
     (x.wreg (a.setWidth 5) = 0 →
       goesTo (exec (.cBeqz a off8) s) s x (x.pc + off8.signExtend 64 * 2) ∧
       exec (.cBnez a off8) s = .next (s.after x 2)) ∧
     (x.wreg (a.setWidth 5) ≠ 0 →
       goesTo (exec (.cBnez a off8) s) s x (x.pc + off8.signExtend 64 * 2) ∧
       exec (.cBeqz a off8) s = .next (s.after x 2))) ∧
  (∀ s x, Issuing s x → ∀ (a : BitVec 5) (imm : BitVec 14) (hdr disp w : BitVec 32),
     let tab := x.pc + imm.signExtend 64 * 2
     let entry := tab + 4 + x.wreg a * 4
     let target := tab + disp.signExtend 64
     let r1 := s.tookWord tab hdr
     let r2 := r1.tookWord entry disp
     tab.toNat < 2 ^ 56 → fetchWord s tab = .ok hdr →
     ((hdr.extractLsb' 16 16).toNat ≤ (x.wreg a).toNat →
       exec (.jt a imm) s = .next (s.takeTrap s.cur (trapOf cBOUNDS (x.wreg a)))) ∧
     ((x.wreg a).toNat < (hdr.extractLsb' 16 16).toNat → entry.toNat < 2 ^ 56 → fetchWord r1 entry = .ok disp →
       target.toNat < 2 ^ 56 →
       (target.getLsbD 0 = true → exec (.jt a imm) s = .next (s.takeTrap s.cur (trapOf cLANDING target))) ∧
       (target.getLsbD 0 = false → fetchWord r2 target = .ok w →
         (w ≠ 0xC400#16 ++ hdr.extractLsb' 0 16 →
           exec (.jt a imm) s = .next (s.takeTrap s.cur (trapOf cLANDING target))) ∧
         (w = 0xC400#16 ++ hdr.extractLsb' 0 16 →
           exec (.jt a imm) s = .next ((r2.tookWord target w).setAct s.cur { x with pc := target }))))) ∧
  (∀ s x, Issuing s x → ∀ (imm : BitVec 24),
     let target := x.pc + imm.signExtend 64 * 2
     let deep := x.status.cdepth.toNat
     (2 ^ 56 ≤ target.toNat → exec (.call imm) s = .next (s.takeTrap s.cur (trapOf cNONCANON target))) ∧
     (target.toNat < 2 ^ 56 → 8 ≤ deep → exec (.call imm) s = .next (s.takeTrap s.cur (trapOf cCALLDEPTH target))) ∧
     (target.toNat < 2 ^ 56 → ∀ h : deep < 8, exec (.call imm) s = .next (s.setAct s.cur
       { (x.setW 31 (x.pc + 4)) with
         shadow := x.shadow.set deep (x.pc + 4) h
         status := { x.status with cdepth := x.status.cdepth + 1 }
         pc := target })) ∧
     (∀ i ∈ [Instr.ret, Instr.cRet],
       (deep = 0 → exec i s = .next (s.takeTrap s.cur (trapOf cRETMISMATCH (x.wreg 31)))) ∧
       (∀ h : 0 < deep ∧ deep ≤ 8,
         (x.shadow[deep - 1]'(by omega) ≠ x.wreg 31 →
           exec i s = .next (s.takeTrap s.cur (trapOf cRETMISMATCH (x.wreg 31)))) ∧
         (x.shadow[deep - 1]'(by omega) = x.wreg 31 →
           let popped (pc : Word) := s.setAct s.cur { x with status := { x.status with cdepth := x.status.cdepth - 1 }, pc := pc }
           ((x.wreg 31).getLsbD 0 = false → exec i s = .next (popped (x.wreg 31))) ∧
           ((x.wreg 31).getLsbD 0 = true → exec i s = .next (popped (x.wreg 31 - 1)))))))

/-- R72: lpad, whatever its label and however it is reached, does nothing but let the PC move on; a word of its major with
any of bits 23..16 set is illegal. -/
def Obligations.LandingPad : Prop :=
  ∀ (lab : BitVec 16) (mid : BitVec 8),
    (decodeWord (0xC4#8 ++ 0#8 ++ lab) = .ok (.lpad lab)) ∧
    (mid ≠ 0 → ∃ e, decodeWord (0xC4#8 ++ mid ++ lab) = .error e) ∧
    (∀ s x, s.act? s.cur = some x → x.halting = false → exec (.lpad lab) s = .next (s.after x 4))

/-- R76, R373: maskw opens a window in a normal activation and starts its count; in an open window, in an urgent activation
and on a firmware core it has no effect. unmaskw, with no earlier work pending, closes the window; in an urgent activation
and on a firmware core it has no effect.

R81, R82: rep checks its block in the order of R82 and takes ILLEGAL with its own word, ROLE or BOUNDS; a block that
passes is kept with the activation and given to the buffer of a node's core, N latched, and the PC is that of the word after
it; a block of no repetitions is skipped. Its words were taken through the fetch path (R63), which leaves the state r.

R74, R111: nend of an activation with no earlier work pending: its window and shadow stack are closed, its node is
COMMITTING and its commit begins with the release, its slot is free, and its core keeps no recipe and no tag of it. The
compact form does the same.

R74, R352, R373: on a firmware core nend takes ROLE. Of a replica, with no earlier work pending, it has no commit effects:
the replica has ended, its slot is free, and its core keeps no recipe and no tag of it, while no node, message, graph or panel
and none of the memories changes. The compact form does the same.

R75, R373: nabort takes the aborting fault ABORT with the whole of wa as its fault value; on a firmware core ROLE. -/
def Obligations.ActivationInstructions : Prop :=
  (∀ s x, Issuing s x →
     (x.fw = false → x.status.urg = false → x.status.mw = false →
       exec .maskw s = .next (s.after { x with status := { x.status with mw := true, mwcnt := 0 } } 4)) ∧
     (x.fw = true ∨ x.status.urg = true ∨ x.status.mw = true → exec .maskw s = .next (s.after x 4)) ∧
     (s.pendingWork s.cur = false → x.fw = false → x.status.urg = false →
       exec .unmaskw s = .next (s.after { x with status := { x.status with mw := false } } 4)) ∧
     (s.pendingWork s.cur = false → x.fw = true ∨ x.status.urg = true → exec .unmaskw s = .next (s.after x 4))) ∧
  (∀ s x, Issuing s x → ∀ (cnt : BitVec 5) (len : BitVec 3) (d a b : BitVec 4) (words : List (BitVec 32)) (r : State),
     s.bufferBusy = false →
     fetchWords (len.toNat + 1) (x.pc + 4) s = .ok (words, r) →
     let n := x.wreg cnt
     let next := x.pc + 4 + BitVec.ofNat 64 (4 * (len.toNat + 1))
     let self : BitVec 32 := 0xC6#8 ++ cnt ++ len ++ d ++ a ++ b ++ 0#4
     let legal (w : BitVec 32) : Prop := w.extractLsb' 30 2 = 3 ∧ ∃ op, decodePure w = some op ∧ op.repeatable = true
     let matrix (w : BitVec 32) : Prop := ∃ op, decodePure w = some op ∧ op.isMatrix = true
     let other : Prop := x.stg = true ∨ x.fw = true
     ((∃ w ∈ words, ¬ legal w) →
       exec (.rep cnt len d a b) s = .next (s.takeTrap s.cur (trapOf cILLEGAL (self.setWidth 64)))) ∧
     ((∀ w ∈ words, legal w) →
       (other → (∃ w ∈ words, matrix w) →
         exec (.rep cnt len d a b) s = .next (s.takeTrap s.cur (trapOf cROLE 0))) ∧
       ((other → ∀ w ∈ words, ¬ matrix w) →
         (2 ^ 16 ≤ n.toNat → exec (.rep cnt len d a b) s = .next (s.takeTrap s.cur (trapOf cBOUNDS n))) ∧
         (n = 0 → exec (.rep cnt len d a b) s = .next (r.setAct s.cur { x with pc := next })) ∧
         (n ≠ 0 → n.toNat < 2 ^ 16 → exec (.rep cnt len d a b) s = .next (inBuffer r x { x with
           pc := next
           block := some ⟨x.pc, words, n.setWidth 16, d, a, b⟩
           status := { x.status with rep := true, reppos := 0, repdone := 0 } }))))) ∧
  (∀ s x, s.act? s.cur = some x → x.halting = false → x.fw = false → x.replica = false →
     s.pendingWork s.cur = false →
     ∀ i ∈ [Instr.nend, Instr.cNend], ∃ t, exec i s = .next t ∧
       (∃ y, t.act? s.cur = some y ∧ y.place = .committing ∧ y.commit = .release ∧ y.status.mw = false ∧
         y.status.cdepth = 0) ∧
       (t.node x.dt x.index).state = stCommitting ∧
       (∀ n : Fin 4, (t.core x.tile x.stg).slots[n] ≠ some s.cur) ∧
       (t.core x.tile x.stg).recipes.all (fun r => r.owner != s.cur) = true ∧
       (t.core x.tile x.stg).tags.all (fun r => r.owner != s.cur) = true) ∧
  (∀ s x, s.act? s.cur = some x → x.halting = false → ∀ i ∈ [Instr.nend, Instr.cNend],
     (x.fw = true → exec i s = .next (s.takeTrap s.cur (trapOf cROLE 0))) ∧
     (x.fw = false → x.replica = true → s.pendingWork s.cur = false → ∃ t, exec i s = .next t ∧
       (∃ y, t.act? s.cur = some y ∧ y.place = .committing ∧ y.atEnd = true ∧ y.status.mw = false ∧ y.status.cdepth = 0 ∧
         y.items = x.items ∧ y.adds = x.adds ∧ y.sig = x.sig) ∧
       (∀ n : Fin 4, (t.core x.tile x.stg).slots[n] ≠ some s.cur) ∧
       (t.core x.tile x.stg).recipes.all (fun r => r.owner != s.cur) = true ∧
       (t.core x.tile x.stg).tags.all (fun r => r.owner != s.cur) = true ∧
       (∀ dt, (t.tile dt).nodes = (s.tile dt).nodes ∧ (t.tile dt).lm = (s.tile dt).lm ∧ (t.tile dt).store = (s.tile dt).store) ∧
       t.msgs = s.msgs ∧ t.graphs = s.graphs ∧ t.panels = s.panels ∧ t.phys = s.phys)) ∧
  (∀ s x, Issuing s x → ∀ a : BitVec 5,
     (x.fw = false → exec (.nabort a) s = .next (s.takeTrap s.cur (trapOf cABORT (x.wreg a)))) ∧
     (x.fw = true → exec (.nabort a) s = .next (s.takeTrap s.cur (trapOf cROLE 0))))

/-- R35: every word of major 0x3F and the halfword 0x0000 decode to instructions that take ILLEGAL, with the word or the
halfword as fault value. -/
def Obligations.UndefinedWordsTrap : Prop :=
  ∀ (y : BitVec 24),
    decodeWord (0xFF#8 ++ y) = .ok (.udf y) ∧ decodeHalf 0 = .ok .ill ∧
    (∀ s x, s.act? s.cur = some x → x.halting = false →
      exec (.udf y) s = .next (s.takeTrap s.cur (trapOf cILLEGAL ((0xFF#8 ++ y : BitVec 32).setWidth 64))) ∧
      exec .ill s = .next (s.takeTrap s.cur (trapOf cILLEGAL 0)))

end

namespace Sys2Proof.Stated

open Sys2Proof.Machine

/-- R112: the code of the register that an instruction names by a class (0 w, 1 v) and a field. -/
def codeOf (cls field : BitVec 5) : Nat := if cls = 0 then field.toNat else 32 + field.toNat

/-- The recipe of number n of the issuing activation replaced by the words. -/
def withRecipe (s : State) (x : Act) (n : BitVec 4) (words : List (BitVec 32)) : State :=
  s.updCore x.tile x.stg (fun c => { c with
    recipes := c.recipes.filter (fun r => !(r.owner == s.cur && r.num == n)) ++ [⟨s.cur, n, words⟩] })

end Sys2Proof.Stated

section
open Sys2Proof Sys2Proof.Machine Sys2Proof.Stated

/-- R104, R105, R352: mfi, mfe, mte, mfm, mtm and wsa complete; m0 reads all ones; id.mapgen reads the current generation of
the map of the activation's VT, which for a replica is its original's, and a firmware core's identity registers read 0.

R105, R109: mfqc gives the entries of a queue that the issuing core reads and sees, or, for a queue that it writes,
those pushed in an earlier cycle less the pops it sees; on a firmware core it takes QUEUE (R373). -/
def Obligations.WorkspaceMoves : Prop :=
  (∀ s x, Issuing s x → ∀ (d b a : BitVec 5),
     let n : BitVec 3 := b.setWidth 3
     exec (.mfi d b) s = .next (s.after (x.setW d (
       if x.fw then 0 else if b = 19 then (s.mapGenOf x.dt).setWidth 64 else x.ident[b.toNat])) 4) ∧
     exec (.wsa d) s = .next (s.after (x.setW d (BitVec.ofNat 64 x.wp)) 4) ∧
     (b.toNat < 8 → exec (.mfe d b) s = .next (s.after (x.setW d x.e[n.toNat]) 4) ∧
       exec (.mte b a) s = .next (s.after { x with e := x.e.set n.toNat (x.wreg a) } 4) ∧
       exec (.mfm d b) s = .next (s.after (x.setW d (if b = 0 then 0xFFFFFFFFFFFFFFFF else x.m[n.toNat])) 4) ∧
       (b ≠ 0 → exec (.mtm b a) s = .next (s.after { x with m := x.m.set n.toNat (x.wreg a) } 4)))) ∧
  (∀ s x, Issuing s x → x.replica = false → ∀ (d : BitVec 5) (q : Fin 8),
     let t := s.tile x.tile
     let reads : Bool := decide (q.val < 4) == !x.stg
     (x.fw = false → reads = true → exec (.mfqc d (BitVec.ofNat 5 q.val)) s =
       .next (s.after (x.setW d (BitVec.ofNat 64 (t.queues[q].length - t.fresh[q]))) 4)) ∧
     (x.fw = false → reads = false → exec (.mfqc d (BitVec.ofNat 5 q.val)) s =
       .next (s.after (x.setW d (BitVec.ofNat 64 (t.queues[q].length + t.tails[q].length + t.freed[q] - t.pushed[q]))) 4)) ∧
     (x.fw = true → exec (.mfqc d (BitVec.ofNat 5 q.val)) s = .next (s.takeTrap s.cur (trapOf cQUEUE (BitVec.ofNat 64 q.val)))))

/-- R113, R121, R125: rcp.def of words that may all stand in a recipe keeps them as recipe n (no register is tagged with
n) and moves the PC past them; a refused word takes RECIPE with the index of the first and its reason; a full table takes
RECIPE with reason 4.

R373: on a firmware core every recipe instruction takes ROLE.

R114, R119, R122: rcp.tag of a register X that is no source of a tagged register: with a recipe that exists, whose words
all write X and whose first does not read X, under R119 and with room in the table, X holds a dropped tag of recipe n; a
recipe that is not defined takes RECIPE with reason 5, one that is not for X with reason 6.

R123, R124: the tag operations. On a register with no tag they have no effect; rcp.drop drops a tagged register;
rcp.mat replays a dropped one, which stays tagged; rcp.untag pins what depends on the register, replays it and removes its
tag; rcp.clr does so for every register of a recipe and frees the recipe. -/
def Obligations.RecipeInstructions : Prop :=
  (∀ s x, s.act? s.cur = some x → x.halting = false → x.fw = false → ∀ (n len : BitVec 5) (words : List (BitVec 32)) (r : State),
     n.toNat < 16 → 1 ≤ len.toNat → len.toNat ≤ 4 → fetchWords len.toNat (x.pc + 4) s = .ok (words, r) →
     let k : BitVec 4 := n.setWidth 4
     let table := (s.core x.tile x.stg).recipes
     let known := table.any (fun r => r.owner == s.cur && r.num == k)
     ((∀ w ∈ words, recipeReason w = none) → known = true ∨ table.length < 16 →
       (∀ t ∈ s.hereTags, t.num ≠ k) →
       exec (.rcpDef n len) s = .next ((withRecipe r x k words).after x (4 + 4 * len.setWidth 64))) ∧
     (∀ (ok : List (BitVec 32)) (w : BitVec 32) (rest : List (BitVec 32)) (r : Word), words = ok ++ w :: rest →
       (∀ v ∈ ok, recipeReason v = none) → recipeReason w = some r →
       exec (.rcpDef n len) s =
         .next (s.takeTrap s.cur (trapOf cRECIPE (r + BitVec.ofNat 64 (16 * ok.length))))) ∧
     ((∀ w ∈ words, recipeReason w = none) → known = false → 16 ≤ table.length →
       exec (.rcpDef n len) s = .next (s.takeTrap s.cur (trapOf cRECIPE 4)))) ∧
  (∀ s x, s.act? s.cur = some x → x.halting = false → x.fw = true → ∀ d n cls : BitVec 5,
     ∀ i ∈ [Instr.rcpDef d n, .rcpTagW d n, .rcpTagV d n, .rcpUntag d cls, .rcpDrop d cls, .rcpMat d cls, .rcpClr d],
       exec i s = .next (s.takeTrap s.cur (trapOf cROLE 0))) ∧
  (∀ s x, s.act? s.cur = some x → x.halting = false → x.fw = false → ∀ (d n : BitVec 5),
     n.toNat < 16 →
     ∀ p ∈ [(Instr.rcpTagW d n, d.toNat, decide (16 ≤ d.toNat)), (Instr.rcpTagV d n, 32 + d.toNat, decide (d.toNat < 16))],
     p.2.2 = true →
     let k : BitVec 4 := n.setWidth 4
     let c := s.core x.tile x.stg
     (c.recipes.find? (fun r => r.owner == s.cur && r.num == k) = none →
       exec p.1 s = .next (s.takeTrap s.cur (trapOf cRECIPE 5))) ∧
     (∀ r, c.recipes.find? (fun r => r.owner == s.cur && r.num == k) = some r →
       let ops := r.words.filterMap decodePure
       let fits := (∀ op ∈ ops, op.writes = [p.2.1]) ∧ (∀ op, ops.head? = some op → p.2.1 ∉ op.reads)
       (¬ fits → exec p.1 s = .next (s.takeTrap s.cur (trapOf cRECIPE 6))) ∧
       (fits → s.pinned p.2.1 = [] →
         chainOk (c.recipe s.cur) ((p.2.1, k) :: (s.hereTags.filter (fun t => t.reg != p.2.1)).map (fun t => (t.reg, t.num))) = true →
         (s.tagOf p.2.1).isSome = true ∨ c.tags.length < 32 →
         exec p.1 s = .next (((s.untag p.2.1).updCore x.tile x.stg (fun c => { c with
           tags := c.tags ++ [⟨s.cur, p.2.1, k, true⟩] })).after x 4)))) ∧
  (∀ s x, s.act? s.cur = some x → x.halting = false → x.fw = false → ∀ (cls d n : BitVec 5),
     let r := codeOf cls d
     let k : BitVec 4 := n.setWidth 4
     (s.tagOf r = none → ∀ i ∈ [Instr.rcpDrop d cls, .rcpMat d cls], exec i s = .next (s.after x 4)) ∧
     (s.tagOf r = none → s.pinned r = [] → ∃ t, exec (.rcpUntag d cls) s = .next t ∧
       t.act? t.cur = some { x with pc := x.pc + 4 } ∧ (t.core x.tile x.stg).tags = (s.core x.tile x.stg).tags) ∧
     ((s.tagOf r).isSome = true → exec (.rcpDrop d cls) s = .next ((s.setDropped r true).after x 4)) ∧
     (∀ t, readReg 2 r s = .ok t → exec (.rcpMat d cls) s = .next (t.done 4)) ∧
     (∀ t u, pin r s = .ok t → readReg 2 r t = .ok u →
       exec (.rcpUntag d cls) s = .next ((u.untag r).done 4)) ∧
     (∀ t, clearRecipe k s = .ok t → exec (.rcpClr n) s =
       .next ((t.updHereCore (fun c => { c with recipes := c.recipes.filter (fun r => !(r.owner == t.cur && r.num == k)) })).done 4)) ∧
     (s.hereTags = [] → (s.core x.tile x.stg).recipes.all (fun r => !(r.owner == s.cur && r.num == k)) = true →
       ∃ t, exec (.rcpClr n) s = .next t ∧ t.act? t.cur = some { x with pc := x.pc + 4 } ∧
         (t.core x.tile x.stg).recipes = (s.core x.tile x.stg).recipes ∧ (t.core x.tile x.stg).tags = (s.core x.tile x.stg).tags))

/-- R115, R116: an instruction that reads a dropped register first replays its recipe: with w register r tagged and dropped,
its recipe the one word `addi r, a, imm`, reading r gives a + imm, as if the recipe had stood before the instruction; r keeps
its tag and is present, unless the instruction writes r or a.

R117, R118: a fault of a replay, and of the pinning of what depends on a written register, is the fault REPLAY. -/
def Obligations.RecipeReplay : Prop :=
  (∀ s x, s.act? s.cur = some x → x.halting = false → x.fw = false → x.replica = false →
     ∀ (r a b d : BitVec 5) (imm : BitVec 14) (n : BitVec 4) (w : BitVec 32),
     16 ≤ r.toNat → a ≠ r → s.hereTags = [⟨s.cur, r.toNat, n, true⟩] →
     decodePure w = some (.imm .addi r a imm) →
     (s.core x.tile x.stg).recipe s.cur n = [w] →
     let v := x.wreg a + imm.signExtend 64
     ∃ t y, exec (.add d r b false) s = .next t ∧ t.act? t.cur = some y ∧ y.pc = x.pc + 4 ∧
       y.wreg d = v + (if b = r then v else x.wreg b) ∧
       (∀ k : BitVec 5, k ≠ d → k ≠ r → y.wreg k = x.wreg k) ∧
       (d ≠ r → y.wreg r = v) ∧
       t.hereTags = (if d = r ∨ d = a then [] else [⟨s.cur, r.toNat, n, false⟩])) ∧
  (∀ (s : State) (r : Nat) (reads : List Nat) (e : Trap),
     (readReg 2 r s = .error e ∨ beforeWrite reads r s = .error e) → e.cause.code = cREPLAY)

end

namespace Sys2Proof.Stated

open Sys2Proof.Machine

/-! ### Memory access -/

/-- R141: the effective address of a scalar access: wa + sext(off10) × size. -/
def effective (x : Act) (a : BitVec 5) (sz : BitVec 2) (off : BitVec 10) : Word :=
  x.wreg a + off.signExtend 64 * BitVec.ofNat 64 (2 ^ sz.toNat)

/-- R126, R127, R130, R158, R352, R373: a load of n bytes of the issuing context's own local memory passes every check. -/
def readable (s : State) (x : Act) (ea : Word) (n : Nat) : Prop :=
  let off := ea.toNat
  let own := x.wp ≤ off ∧ off < x.wp + 0x1200
  off % n = 0 ∧
  (if x.fw then off + n ≤ 0x100000
   else off + n ≤ 0x200000 ∧ (off + n ≤ 0x40000 ∨ 0xA0000 ≤ off)) ∧
  ∀ i < n, s.poisoned (if x.fw then .phys (fwBase (s.cur - Config.fwKey) + off)
    else .lm (if x.replica = true ∧ ¬ own then x.dt else x.tile) off) i = false

/-- R66, R100, R126, R127, R130, R150: a store of n bytes of own LM passes every check and meets no workspace. -/
def storable (s : State) (x : Act) (ea : Word) (n : Nat) : Prop :=
  ea.toNat % n = 0 ∧ 0xA1000 ≤ ea.toNat ∧ ea.toNat + n ≤ 0x200000 ∧ s.leaseTableAt x.tile ea.toNat = false ∧
  ∀ i < n, s.wsAt x.tile (ea.toNat + i) = none

/-- What a store of the n low bytes of v at an address of own LM leaves in local memories: those bytes, and every other byte
outside a live workspace as before. -/
def storedAt (s t : State) (tile : Nat) (ea : Word) (n : Nat) (v : Nat) : Prop :=
  (∀ off, s.wsAt tile off = none → t.lmByte tile off =
    if ea.toNat ≤ off ∧ off < ea.toNat + n then BitVec.ofNat 8 (v / 256 ^ (off - ea.toNat)) else s.lmByte tile off) ∧
  (∀ dt off, dt ≠ tile → s.wsAt dt off = none → t.lmByte dt off = s.lmByte dt off) ∧
  t.phys = s.phys

/-- What an instruction of own LM leaves of the issuing context beside the registers it names: its other registers, flags and
control registers, and the PC past it. -/
def restKept (x y : Act) : Prop :=
  y.v = x.v ∧ y.m = x.m ∧ y.e = x.e ∧ y.pc = x.pc + 4 ∧ y.fpflags = x.fpflags ∧ y.seed = x.seed ∧ y.trapnv = x.trapnv ∧
  y.mxinj = x.mxinj ∧ y.cause = x.cause ∧ y.value = x.value ∧ y.shadow = x.shadow ∧ y.wait = x.wait ∧ y.place = x.place

/-- R161, log 90: the device has a plain access of n bytes at some addresses of own LM stay outstanding: none of its bytes is
one of the activation's workspace. -/
def delayedAt (x : Act) (addrs : List Word) (n : Nat) : Prop :=
  x.lazy = true ∧ x.fw = false ∧ ∀ ea ∈ addrs, ea.toNat + n ≤ x.wp ∨ x.wp + 0x1200 ≤ ea.toNat

/-- R128, R130, R390: a tile-window access of n bytes passes every check made at issue. -/
def windowOk (s : State) (x : Act) (ea : Word) (n : Nat) (write : Bool) : Prop :=
  let off := ea.toNat % 2 ^ 22
  ea.toNat < 2 ^ 37 ∧ s.names s.panelHere (ea.toNat / 2 ^ 22) = true ∧ ea.toNat % n = 0 ∧
  (if x.fw then off + n ≤ 0x200300 ∨ (0x201000 ≤ off ∧ off + n ≤ 0x201800 ∧ n = 8)
   else (off + n ≤ 0x40000 ∧ write = false) ∨ (0xA0000 ≤ off ∧ off + n ≤ 0xA1000 ∧ write = false) ∨
    (0xA1000 ≤ off ∧ off + n ≤ 0x200000) ∨ (0x200000 ≤ off ∧ off + n ≤ 0x200300 ∧ write = false))

/-- R129, R130, R137, R138, R373: a global access of n bytes passes every check made at issue, and goes to a physical address
under a key id. -/
def globalOk (s : State) (x : Act) (ea : Word) (n : Nat) (read write : Bool) (pa : Nat) (key : BitVec 8) : Prop :=
  ea.toNat % n = 0 ∧ s.reaches pa = true ∧
  (if x.fw then ea.toNat + n ≤ 2 ^ 52 ∧ pa = ea.toNat ∧ key = (s.fwCore s.fwHere).key
   else ea.toNat + n ≤ 2 ^ 56 ∧ ∃ e, s.lookup x ea.toNat = some e ∧ (read = true → e.r = true) ∧ (write = true → e.w = true) ∧
    pa = s.homeOf e (s.dieOf x.tile) ea.toNat ∧ key = e.key)

/-- R354: the context after the record of a store is folded into the signature of a screenable node's activation. -/
def screened (x : Act) (tag : Byte) (ea : Word) (n : Nat) (v : Word) : Act :=
  if x.screen then { x with sig := (storeRecord tag ea n v).foldl foldByte x.sig } else x

/-- One record stands under the issuing context's key. -/
def sole (s : State) (x : Act) : Prop := ∀ e ∈ s.acts, e.1 = s.cur → e.2 = x

/-- R173: the immediate atomics, each with its forms in the three spaces, its code and the value it writes from the old
value, B and E. -/
def atomicOps : List ((BitVec 5 → BitVec 5 → BitVec 5 → BitVec 2 → BitVec 2 → Bool → Instr) ×
    (BitVec 5 → BitVec 5 → BitVec 5 → BitVec 2 → BitVec 2 → Bool → Instr) ×
    (BitVec 5 → BitVec 5 → BitVec 5 → BitVec 2 → BitVec 2 → Bool → Instr) × BitVec 4 ×
    ((n : Nat) → BitVec n → BitVec n → BitVec n → Option (BitVec n))) :=
  [ (.aaddL, .aaddT, .aaddG, 0, fun _ x b _ => some (x + b)),
    (.aandL, .aandT, .aandG, 1, fun _ x b _ => some (x &&& b)),
    (.aorL, .aorT, .aorG, 2, fun _ x b _ => some (x ||| b)),
    (.axorL, .axorT, .axorG, 3, fun _ x b _ => some (x ^^^ b)),
    (.aminL, .aminT, .aminG, 4, fun _ x b _ => some (if x.sle b then x else b)),
    (.amaxL, .amaxT, .amaxG, 5, fun _ x b _ => some (if b.sle x then x else b)),
    (.aminuL, .aminuT, .aminuG, 6, fun _ x b _ => some (if x ≤ b then x else b)),
    (.amaxuL, .amaxuT, .amaxuG, 7, fun _ x b _ => some (if b ≤ x then x else b)),
    (.aswpL, .aswpT, .aswpG, 8, fun _ _ b _ => some b),
    (.acasL, .acasT, .acasG, 9, fun _ x b e => if x = e then some b else none),
    (.afaddL, .afaddT, .afaddG, 10,
      fun n x b _ => some (BitVec.ofNat n ((if n = 32 then fp32 else fp64).add x.toNat b.toNat).1)) ]

/-- R170, log 102: the value of a plain load of n bytes of own LM, given that of its bytes now: one that the device has read
early, with 8 bytes that hold these, gives what they were then. -/
def plainRead (x : Act) (ea : Word) (n : Nat) (now : Word) : Word :=
  match x.preread with
  | some (o, v) => if o ≤ ea.toNat ∧ ea.toNat + n ≤ o + 8 then BitVec.ofNat 64 (v / 2 ^ (8 * (ea.toNat - o)) % 2 ^ (8 * n)) else now
  | none => now

end Sys2Proof.Stated

section
open Sys2Proof Sys2Proof.Machine Sys2Proof.Stated

/-- R126, R127, R132, R141: a scalar load of own local memory that passes its checks completes: wt gets the bytes at its
address, lowest first, zero-extended; an ordered one also empties the core's L1 (R133). A plain one that the device delays
(R161, the model's choice of form, log 90) leaves the core as an outstanding request. One that the device has read early
(R170, log 102) gives what its bytes were then. lde loads an extension register (R106).

R100, R126, R141: a scalar store to own LM outside every workspace completes: the bytes at its address are those of wt,
every other byte of local memories outside workspaces and all of physical memory are as before, every register of the
activation is as before. c.stw does the same with a PC of two bytes less. A plain one that the device delays (R161, log 90) leaves
the core as an outstanding request.

R100: a 64-bit store into the activation's own workspace is a write of the register that holds the bytes. -/
def Obligations.LocalAccesses : Prop :=
  (∀ s x, Issuing s x →
     ∀ (t a : BitVec 5) (ord sz : BitVec 2) (off : BitVec 10) (d4 a4 o4 : BitVec 4) (e : BitVec 5) (imm : BitVec 14),
     let at' (ea : Word) (n : Nat) : Word :=
       BitVec.ofNat 64 (leNat ((List.range n).map (fun i => s.localByte s.cur x (ea.toNat + i))))
     (∀ p ∈ [(Instr.ldL t a 0 sz off, t, effective x a sz off, 2 ^ sz.toNat, (4 : Word)),
         (.cLdw d4 a4 o4, d4.setWidth 5, x.wreg (a4.setWidth 5) + o4.setWidth 64 * 8, 8, 2)], readable s x p.2.2.1 p.2.2.2.1 →
       (¬ delayedAt x [p.2.2.1] p.2.2.2.1 →
         exec p.1 s = .next (s.after (x.setW p.2.1 (plainRead x p.2.2.1 p.2.2.2.1 (at' p.2.2.1 p.2.2.2.1))) p.2.2.2.2)) ∧
       (delayedAt x [p.2.2.1] p.2.2.2.1 → exec p.1 s = .next ((s.request (.load p.2.1 p.2.2.2.1) 0
         [⟨0, .lm (if x.replica then x.dt else x.tile) p.2.2.1.toNat, p.2.2.1, 0, 0⟩] .none).after { x with lazy := false }
         p.2.2.2.2))) ∧
     (readable s x (effective x a sz off) (2 ^ sz.toNat) → ord ≠ 0 → exec (.ldL t a ord sz off) s =
       .next ((s.after (x.setW t (at' (effective x a sz off) (2 ^ sz.toNat))) 4).acquire s.cur)) ∧
     (e.toNat < 8 → readable s x (x.wreg a + imm.setWidth 64 * 8) 8 → exec (.lde e a imm) s =
       .next (s.after (x.setE (e.setWidth 3) (at' (x.wreg a + imm.setWidth 64 * 8) 8)) 4))) ∧
  (∀ s x, Issuing s x → x.fw = false → x.replica = false → s.memoryWf = true → sole s x →
     ∀ (t a : BitVec 5) (ord sz : BitVec 2) (off : BitVec 10) (t4 a4 o4 : BitVec 4),
     (let ea := effective x a sz off
      let n := 2 ^ sz.toNat
      storable s x ea n →
        (ord ≠ 0 ∨ ¬ delayedAt x [ea] n → ∃ u y, exec (.stL t a ord sz off) s = .next u ∧ u.act? u.cur = some y ∧ y.w = x.w ∧
          restKept x y ∧ storedAt s u x.tile ea n (x.wreg t).toNat) ∧
        (ord = 0 → delayedAt x [ea] n → exec (.stL t a ord sz off) s = .next ((s.request (.store n (x.wreg t)) 0
          [⟨0, .lm x.tile ea.toNat, ea, x.wreg t, 0⟩] .none).after { screened x 0x01 ea n (x.wreg t) with lazy := false } 4))) ∧
     (let ea := x.wreg (a4.setWidth 5) + o4.setWidth 64 * 8
      let v := x.wreg (t4.setWidth 5)
      storable s x ea 8 →
        (¬ delayedAt x [ea] 8 → ∃ u y, exec (.cStw t4 a4 o4) s = .next u ∧ u.act? u.cur = some y ∧ y.w = x.w ∧
          restKept x { y with pc := y.pc + 2 } ∧ storedAt s u x.tile ea 8 v.toNat) ∧
        (delayedAt x [ea] 8 → exec (.cStw t4 a4 o4) s = .next ((s.request (.store 8 v) 0 [⟨0, .lm x.tile ea.toNat, ea, v, 0⟩]
          .none).after { screened x 0x01 ea 8 v with lazy := false } 2)))) ∧
  (∀ s x, Issuing s x → x.fw = false → x.replica = false → sole s x →
     ∀ (t a : BitVec 5) (ord : BitVec 2) (off : BitVec 10) (r : BitVec 5),
     let ea := effective x a 3 off
     ea.toNat = x.wp + 8 * r.toNat → ea.toNat % 8 = 0 → 0xA1000 ≤ x.wp → x.wp + 0x1200 ≤ 0x200000 → x.area ≠ 0 →
     s.leaseTableAt x.tile ea.toNat = false →
     (∀ i < 8, s.wsAt x.tile (ea.toNat + i) = some (s.cur, x)) →
     ∃ u y, exec (.stL t a ord 3 off) s = .next u ∧ u.act? u.cur = some y ∧ y.w = (x.setW r (x.wreg t)).w ∧ restKept x y)

/-- R131, R136, R141: a load or a store through the tile window or of global memory that passes the checks made at issue
leaves the core as an outstanding request, acquiring or releasing with its scope where it is ordered; the PC moves on. A
replica's store is folded into its signature and discarded (R352).

R178: st.m that passes its checks makes the node effected and leaves the core as one write for each home of its page,
each performed on its own, all one outstanding request. -/
def Obligations.RemoteRequests : Prop :=
  (∀ s x, Issuing s x → ∀ (t a : BitVec 5) (ord sz : BitVec 2) (off : BitVec 10),
     let ea := effective x a sz off
     let n := 2 ^ sz.toNat
     let dt := ea.toNat / 2 ^ 22
     let lm := Home.lm dt (ea.toNat % 2 ^ 22)
     let v := x.wreg t
     (windowOk s x ea n false → exec (.ldT t a ord sz off) s =
       .next ((s.request (.load t n) 1 [⟨0, lm, ea, 0, 0⟩] (ordAnnot true ord)).after x 4)) ∧
     (windowOk s x ea n true → exec (.stT t a ord sz off) s =
       .next ((if x.replica then s else s.request (.store n v) 1 [⟨0, lm, ea, v, 0⟩] (ordAnnot false ord)).after
         (screened x 0x02 ea n v) 4)) ∧
     (∀ pa key, globalOk s x ea n true false pa key → exec (.ldG t a ord sz off) s =
       .next (((s.touchTlb ea.toNat).request (.load t n) 2 [⟨0, .phys pa, ea, 0, key⟩] (ordAnnot true ord)).after x 4)) ∧
     (∀ pa key, globalOk s x ea n false true pa key → exec (.stG t a ord sz off) s =
       .next ((if x.replica then s.touchTlb ea.toNat else
         (s.touchTlb ea.toNat).request (.store n v) 2 [⟨0, .phys pa, ea, v, key⟩] (ordAnnot false ord)).after
         (screened x 0x03 ea n v) 4))) ∧
  (∀ s x, Issuing s x → x.fw = false → x.replica = false → ∀ (t a : BitVec 5) (ord sz : BitVec 2) (off : BitVec 10) (e : Tlb),
     let ea := effective x a sz off
     let n := 2 ^ sz.toNat
     let v := x.wreg t
     let pa := s.homeOf e (s.dieOf x.tile) ea.toNat
     let homes := if e.home = 2 ∧ e.replicas ≠ [] then e.replicas.map (atDie (e.phys ea.toNat)) else [pa]
     ea.toNat % n = 0 → ea.toNat + n ≤ 2 ^ 56 → s.lookup x ea.toNat = some e → e.r = true → e.w = true → s.reaches pa = true →
     let y := screened x 0x04 ea n v
     exec (.stM t a ord sz off) s =
       .next (((s.touchTlb ea.toNat).requests 2 (homes.map (fun h => (.multi n v, [⟨0, .phys h, ea, v, e.key⟩])))
         (ordAnnot false ord)).after { y with status := { y.status with eff := true } } 4))

/-- R126, R127, R130, R132, R174: the checks of a scalar access of own LM, in their order: a misaligned one takes ALIGN; one
past the end of LM BOUNDS; one in the mirror area, and a write to the node table or the graph engine's state, PERM; each with
EA as its fault value.

R66, R100, R150: a store, or an atomic, of own LM that meets a live workspace: of another activation WSREMOTE, but its
header PERM; of the activation itself, PERM on the header and on m0; on a lease table PERM.

R128, R129, R137, R138: the checks of a tile-window and of a global access that node code makes, in their order, with
their faults. -/
def Obligations.AccessFaults : Prop :=
  (∀ s x, Issuing s x → x.fw = false → x.replica = false →
     ∀ (t a b : BitVec 5) (ord sz scope : BitVec 2) (off : BitVec 10) (w : Bool),
     ∀ p ∈ [(Instr.ldL t a ord sz off, effective x a sz off, 2 ^ sz.toNat, false),
            (Instr.stL t a ord sz off, effective x a sz off, 2 ^ sz.toNat, true)] ++
           (atomicOps.map (fun o => (o.1 t a b ord scope w, x.wreg a, if w then 8 else 4, true))),
     let i := p.1
     let ea := p.2.1
     let n := p.2.2.1
     let store := p.2.2.2
     (ea.toNat % n ≠ 0 → exec i s = .next (s.takeTrap s.cur (trapOf cALIGN ea))) ∧
     (ea.toNat % n = 0 → 0x200000 < ea.toNat + n → exec i s = .next (s.takeTrap s.cur (trapOf cBOUNDS ea))) ∧
     (ea.toNat % n = 0 → ea.toNat + n ≤ 0x200000 →
       ((0x40000 ≤ ea.toNat ∧ ea.toNat < 0xA0000) ∨ (store = true ∧ ea.toNat < 0xA1000)) →
       exec i s = .next (s.takeTrap s.cur (trapOf cPERM ea)))) ∧
  (∀ s x, Issuing s x → x.fw = false → x.replica = false →
     ∀ (t a b : BitVec 5) (ord sz scope : BitVec 2) (off : BitVec 10) (w : Bool),
     ∀ p ∈ [(Instr.stL t a ord sz off, effective x a sz off, 2 ^ sz.toNat)] ++
           (atomicOps.map (fun o => (o.1 t a b ord scope w, x.wreg a, if w then 8 else 4))),
     let i := p.1
     let ea := p.2.1
     let n := p.2.2
     ea.toNat % n = 0 → 0xA1000 ≤ ea.toNat → ea.toNat + n ≤ 0x200000 →
     (s.leaseTableAt x.tile ea.toNat = true → exec i s = .next (s.takeTrap s.cur (trapOf cPERM ea))) ∧
     (s.leaseTableAt x.tile ea.toNat = false → ∀ k b, s.wsAt x.tile ea.toNat = some (k, b) →
       let o := ea.toNat - b.wp
       (0x1180 ≤ o → o < 0x11F8 → exec i s = .next (s.takeTrap s.cur (trapOf cPERM ea))) ∧
       (o < 0x1180 ∨ 0x11F8 ≤ o → k ≠ s.cur → exec i s = .next (s.takeTrap s.cur (trapOf cWSREMOTE ea))) ∧
       (k = s.cur → 0x1100 ≤ o → o < 0x1108 → exec i s = .next (s.takeTrap s.cur (trapOf cPERM ea))))) ∧
  (∀ s x, Issuing s x → x.fw = false → ∀ (t a : BitVec 5) (ord sz : BitVec 2) (off : BitVec 10),
     let ea := effective x a sz off
     let n := 2 ^ sz.toNat
     let at' := ea.toNat % 2 ^ 22
     (∀ p ∈ [(Instr.ldT t a ord sz off, false), (Instr.stT t a ord sz off, true)],
       (ea.toNat % n ≠ 0 → exec p.1 s = .next (s.takeTrap s.cur (trapOf cALIGN ea))) ∧
       (ea.toNat % n = 0 →
         (2 ^ 37 ≤ ea.toNat ∨ s.names s.panelHere (ea.toNat / 2 ^ 22) = false ∨ 0x200300 < at' + n →
           exec p.1 s = .next (s.takeTrap s.cur (trapOf cWINDOW ea))) ∧
         (ea.toNat < 2 ^ 37 → s.names s.panelHere (ea.toNat / 2 ^ 22) = true → at' + n ≤ 0x200300 →
           (p.2 = true → 0x200000 ≤ at' → exec p.1 s = .next (s.takeTrap s.cur (trapOf cSYNCSTORE ea))) ∧
           ((0x40000 ≤ at' ∧ at' < 0xA0000) ∨ (p.2 = true ∧ at' < 0xA1000) →
             exec p.1 s = .next (s.takeTrap s.cur (trapOf cPERM ea)))))) ∧
     (∀ p ∈ [(Instr.ldG t a ord sz off, false), (Instr.stG t a ord sz off, true)],
       (2 ^ 56 ≤ ea.toNat → exec p.1 s = .next (s.takeTrap s.cur (trapOf cNONCANON ea))) ∧
       (ea.toNat + n ≤ 2 ^ 56 →
         (ea.toNat % n ≠ 0 → exec p.1 s = .next (s.takeTrap s.cur (trapOf cALIGN ea))) ∧
         (ea.toNat % n = 0 →
           (s.lookup x ea.toNat = none → exec p.1 s = .next (s.takeTrap s.cur (trapOf cTMISS ea))) ∧
           (∀ e, s.lookup x ea.toNat = some e →
             ((if p.2 then e.w else e.r) = false → exec p.1 s = .next (s.takeTrap s.cur (trapOf cPERM ea))) ∧
             ((if p.2 then e.w else e.r) = true → s.reaches (s.homeOf e (s.dieOf x.tile) ea.toNat) = false →
               exec p.1 s = .next (s.takeTrap s.cur (trapOf cUNBACKED ea))))))))

/-- R173, R176: the immediate atomics of own LM outside every workspace complete: wd gets the old value zero-extended, the
location the new one (acas writes only where the old value is E), the node is effected, and nothing else of the activation
or of memory outside workspaces changes. -/
def Obligations.LocalAtomics : Prop :=
  ∀ p ∈ atomicOps, ∀ s x, Issuing s x → x.fw = false → x.replica = false → s.memoryWf = true → sole s x →
    ∀ (d a b : BitVec 5) (ord scope : BitVec 2) (w : Bool),
    let n := if w then 8 else 4
    let ea := x.wreg a
    let old := s.lmRead x.tile ea.toNat n
    let new := (p.2.2.2.2 (8 * n) (BitVec.ofNat _ old) ((x.wreg b).setWidth _) ((x.wreg d).setWidth _)).map BitVec.toNat
    storable s x ea n → x.dt = x.tile → (∀ i < n, s.poisoned (.lm x.tile ea.toNat) i = false) →
    ¬ (x.wp ≤ ea.toNat ∧ ea.toNat < x.wp + 0x1200) →
    ∃ t y, exec (p.1 d a b ord scope w) s = .next t ∧ t.act? t.cur = some y ∧
      y.w = (x.setW d (BitVec.ofNat 64 old)).w ∧ restKept x y ∧ y.status.eff = true ∧
      storedAt s t x.tile ea n (new.getD old)

/-- R173, R174, R175, R176: an immediate atomic through the tile window or of global memory that passes the checks made at
issue leaves the core as an outstanding request with B, E, its order and its scope, and makes the node effected unless it
names the activation's own workspace; the bridge holds the host line of one under placement 0.

R169, R175, R177: a commit-deferred add that passes its checks writes wd := 0 and keeps for the commit the home, B, the larger
of domain and its stated scope, and whether its line is a host's that the bridge is to hold. -/
def Obligations.RemoteAtomics : Prop :=
  (∀ p ∈ atomicOps, ∀ s x, Issuing s x → x.fw = false → x.replica = false →
     ∀ (d a b : BitVec 5) (ord scope : BitVec 2) (w : Bool),
     let n := if w then 8 else 4
     let ea := x.wreg a
     let low (v : Word) : Word := if w then v else (v.setWidth 32).setWidth 64
     let op := ReqOp.atomic p.2.2.2.1 d n (low (x.wreg b)) (low (x.wreg d))
     let own := ea.toNat / 2 ^ 22 = x.dt ∧ x.wp ≤ ea.toNat % 2 ^ 22 ∧ ea.toNat % 2 ^ 22 < x.wp + 0x1200
     let eff : Act := { x with status := { x.status with eff := true } }
     (windowOk s x ea n true → exec (p.2.1 d a b ord scope w) s =
       .next ((s.request op 1 [⟨0, .lm (ea.toNat / 2 ^ 22) (ea.toNat % 2 ^ 22), ea, 0, 0⟩] (atomicAnnot ord scope)).after
         (if own then x else eff) 4)) ∧
     (∀ e, ea.toNat % n = 0 → ea.toNat + n ≤ 2 ^ 56 → s.lookup x ea.toNat = some e → e.r = true → e.w = true →
       (e.home ≠ 1 ∨ e.place ≠ 2 ∨ p.2.2.2.1 ∈ [(0 : BitVec 4), 8, 9]) →
       s.reaches (s.homeOf e (s.dieOf x.tile) ea.toNat) = true →
       let pa := s.homeOf e (s.dieOf x.tile) ea.toNat
       let t := s.touchTlb ea.toNat
       let r := if e.home = 1 ∧ e.place ≠ 2 then t.holdHostLine (x.dt / 4096) pa else t
       exec (p.2.2.1 d a b ord scope w) s =
         .next ((r.request op 2 [⟨0, .phys pa, ea, 0, e.key⟩] (atomicAnnot ord scope)).after eff 4))) ∧
  (∀ s x, Issuing s x → x.fw = false → x.replica = false → ∀ (d a b : BitVec 5) (scope : BitVec 2) (w : Bool),
     let n := if w then 8 else 4
     let ea := x.wreg a
     let kept (h : Home) (key : Nat) (at' : Word) (bridge : Bool) : Act :=
       { x with adds := x.adds ++ [⟨h, if scope = 3 then 3 else 2, key, at', w, x.wreg b, bridge⟩] }
     (storable s x ea n → exec (.aaddKL d a b scope w) s =
       .next (s.after ((kept (.lm x.tile ea.toNat) 0 ea false).setW d 0) 4)) ∧
     (windowOk s x ea n true → exec (.aaddKT d a b scope w) s =
       .next (s.after ((kept (.lm (ea.toNat / 2 ^ 22) (ea.toNat % 2 ^ 22)) 0 ea false).setW d 0) 4)) ∧
     (∀ pa key e, globalOk s x ea n true true pa key → s.lookup x ea.toNat = some e → exec (.aaddKG d a b scope w) s =
       .next ((s.touchTlb ea.toNat).after
         ((kept (.phys pa) key.toNat (BitVec.ofNat 64 pa) (decide (e.home = 1 ∧ e.place ≠ 2))).setW d 0) 4)))

/-- R142 to R145: the vector loads: contiguous, strided and indexed. One of own LM completes with its value; another, and one
that the device delays and that names no queue (R161, log 90), leaves the core as an outstanding request, which for a queue
holds the place of its entry (R108).

R142 to R146: a vector store that passes its checks writes the active elements of vd at their addresses, in increasing
order, or leaves the core as an outstanding request, as one of own LM does that the device delays (R161, log 90). -/
def Obligations.VectorMemory : Prop :=
  (∀ s x, Issuing s x → ∀ (d a b : BitVec 5) (m : BitVec 3) (esz : BitVec 2) (xs : List Vec) (s1 : State),
     let n := 2 ^ esz.toNat
     let W := 8 * n
     let act (k : Nat) : Bool := isActive W (x.mreg m) k
     (∀ p ∈ [(Instr.vldL d a m esz, 0), (.vldsL d a b m esz, 1), (.vldxL d a b m esz, 2)],
       let ix := if p.2 = 2 then [b] else []
       let addr := elemAddr p.2 n (x.wreg a) (x.wreg b) (xs.headD 0)
       VectorReady s x ix [d] → s.readFields ix = (xs, s1) →
       (∀ k < 256 / n, act k = true → readable s1 x (addr k) n) →
       let late := delayedAt x ((elemAddrs n (x.mreg m) addr).map (·.2)) n ∧ ∀ f ∈ ix ++ [d], queueOf f = none
       (late → exec p.1 s = .next ((s.request (.vload d esz) 0 ((elemAddrs n (x.mreg m) addr).map (fun e =>
         ⟨e.1, .lm (if x.replica then x.dt else x.tile) e.2.toNat, e.2, 0, 0⟩)) .none).after { x with lazy := false } 4)) ∧
       (¬ late → ∃ v : Vec, exec p.1 s = .next ((s1.writeField d v).advance 4) ∧
         ∀ k < 256 / n, elemOf W v k = if act k then
           leNat ((List.range n).map (fun i => s1.localByte s1.cur x ((addr k).toNat + i)))
           else elemOf W (x.vreg (d.setWidth 4)) k)) ∧
     (∀ p ∈ [(Instr.vldT d a m esz, 0, Space.t), (.vldG d a m esz, 0, .g), (.vldsG d a b m esz, 1, .g),
             (.vldxG d a b m esz, 2, .g)], ∀ ts,
       let ix := if p.2.1 = 2 then [b] else []
       let addrs := elemAddrs n (x.mreg m) (elemAddr p.2.1 n (x.wreg a) (x.wreg b) (xs.headD 0))
       VectorReady s x ix [d] → s.readFields ix = (xs, s1) → checkElems s1 p.2.2 .load addrs n = .ok ts →
       let u := s1.touchTlbs p.2.2 (addrs.map (·.2))
       (d.toNat < 16 → exec p.1 s = .next ((u.request (.vload d esz) p.2.2.code
         (ts.map (fun t => ⟨t.1, t.2.2.home, t.2.1, 0, t.2.2.key⟩)) .none).after x 4)) ∧
       (∀ q, queueOf d = some q → exec p.1 s = .next (((u.pushPending x.tile q u.nextId).request
         (.vloadq x.tile (BitVec.ofNat 3 q.val) esz) p.2.2.code
         (ts.map (fun t => ⟨t.1, t.2.2.home, t.2.1, 0, t.2.2.key⟩)) .none).after x 4)))) ∧
  (∀ s x, Issuing s x → x.replica = false →
     ∀ (d a b : BitVec 5) (m : BitVec 3) (esz : BitVec 2) (xs : List Vec) (s1 : State),
     let n := 2 ^ esz.toNat
     let W := 8 * n
     let val (k : Nat) : Nat := elemOf W (x.vreg (d.setWidth 4)) k
     ∀ p ∈ [(Instr.vstL d a m esz, 0, Space.l), (.vstsL d a b m esz, 1, .l), (.vstxL d a b m esz, 2, .l),
            (.vstT d a m esz, 0, .t), (.vstG d a m esz, 0, .g), (.vstsG d a b m esz, 1, .g), (.vstxG d a b m esz, 2, .g)],
     ∀ ts,
       let ix := if p.2.1 = 2 then [b] else []
       let addrs := elemAddrs n (x.mreg m) (elemAddr p.2.1 n (x.wreg a) (x.wreg b) (xs.headD 0))
       VectorReady s x ix [] → s.readFields ix = (xs, s1) → checkElems s1 p.2.2 .store addrs n = .ok ts →
       let u := addrs.foldl (fun u e => u.fold (storeRecord (storeTag p.2.2) e.2 n (BitVec.ofNat 64 (val e.1))))
         (s1.touchTlbs p.2.2 (addrs.map (·.2)))
       let late := delayedAt x (addrs.map (·.2)) n
       (p.2.2 = .l → ¬ late → exec p.1 s = .next ((u.putLocals (addrs.map (fun e => (e.2.toNat, leBytes n (val e.1))))).done 4)) ∧
       (p.2.2 ≠ .l ∨ late → exec p.1 s = .next (((if p.2.2 = .l then u.delayed else u).request (.vstore esz) p.2.2.code
         (ts.map (fun t => ⟨t.1, t.2.2.home, t.2.1, BitVec.ofNat 64 (val t.1), t.2.2.key⟩)) .none).advance 4)))

/-- R147 to R150, R152: tch.r and tch.w check their range in the order of R148, its pages in increasing address (an
untranslated or frozen one parks), park with TMISS and the base until the range is recorded, and then write the lowest free
lease entry and wd; trel ends a live lease and else has no effect; pref.g never faults: with no translation of its address it
has no effect, else both halves of its 128-byte line come into the core's L1. -/
def Obligations.LeasesAndPrefetch : Prop :=
  ∀ s x, Issuing s x → x.fw = false → ∀ (d a b : BitVec 5),
    let base := x.wreg a
    let len := x.wreg b
    (∀ p ∈ [(Instr.tchR d a b, false), (Instr.tchW d a b, true)],
      (2 ^ 56 ≤ base.toNat → exec p.1 s = .next (s.takeTrap s.cur (trapOf cNONCANON base))) ∧
      (base.toNat < 2 ^ 56 →
        (len = 0 ∨ 0x40000000 < len.toNat → exec p.1 s = .next (s.takeTrap s.cur (trapOf cLEASE 2))) ∧
        (len ≠ 0 → len.toNat ≤ 0x40000000 → base.toNat + len.toNat ≤ 2 ^ 56 →
          ((∀ n < 8, s.leaseLive x n = true) → exec p.1 s = .next (s.takeTrap s.cur (trapOf cLEASE 1))) ∧
          ((∃ n < 8, s.leaseLive x n = false) → x.replica = false →
            ∀ e, leasePages p.2 16385 base.toNat (base.toNat + len.toNat) s = .error e →
            (parks e.cause.code = false → exec p.1 s = .next (s.takeTrap s.cur e)) ∧
            (parks e.cause.code = true → ∃ t, exec p.1 s = .next t ∧
              ∃ y, t.act? s.cur = some y ∧ y.place = .parked ∧ y.cause.code = e.cause.code ∧ y.value = e.value ∧
                y.pc = x.pc ∧ y.parkTch = some ⟨base.toNat, len.toNat, p.2⟩)) ∧
          (∀ n < 8, (∀ j < n, s.leaseLive x j = true) → s.leaseLive x n = false →
            ∀ r, leasePages p.2 16385 base.toNat (base.toNat + len.toNat) s = .ok r →
            (⟨base.toNat, len.toNat, p.2⟩ ∈ x.leases → exec p.1 s =
              .next ((r.setLease x n base.toNat (len.toNat + (if p.2 then 2 ^ 62 else 0) + 2 ^ 63)).after
                (x.setW d (BitVec.ofNat 64 n)) 4)) ∧
            (⟨base.toNat, len.toNat, p.2⟩ ∉ x.leases → x.replica = false → ∃ t, exec p.1 s = .next t ∧
              ∃ y, t.act? s.cur = some y ∧ y.place = .parked ∧ y.cause.code = cTMISS ∧ y.value = base ∧ y.pc = x.pc ∧
                y.parkTch = some ⟨base.toNat, len.toNat, p.2⟩))))) ∧
    (∀ n < 8, base.toNat = n → s.leaseLive x n = true → exec (.trel a) s = .next ((s.endLease n).advance 4)) ∧
    (8 ≤ base.toNat ∨ s.leaseLive x base.toNat = false → exec (.trel a) s = .next (s.after x 4)) ∧
    (∀ e, checkAccess s .g .load base 1 noExtra = .error e → exec (.prefG a) s = .next (s.after x 4)) ∧
    (∀ pa key, globalOk s x base 1 true false pa key → (∀ e, s.lookup x base.toNat = some e → e.home ≠ 1) →
      s.poisoned (.phys pa) 0 = false →
      let line := pa / 128 * 128
      exec (.prefG a) s = .next ((((s.touchTlb base.toNat).fillL1 x.tile x.stg key line).fillL1 x.tile x.stg key (line + 64)).after x 4))

end

namespace Sys2Proof.Stated

open Sys2Proof.Machine

/-! ### Rods, the beam and node instructions -/

/-- R170, log 52: the issuing context after a release performed at its issue: the choice that let it come early is used up where
something was outstanding. -/
def released (s : State) (x : Act) : Act := { x with hasty := x.hasty && !s.outstanding s.cur }

/-- R182: what a change of rod k of a tile to r leaves of the machine's memories and of the issuing context, which becomes
y with the PC past the instruction: no byte of any memory, no other rod, no node record and no queue changes. -/
def rodBecomes (s t : State) (tile k : Nat) (r : Rod) (y : Act) : Prop :=
  (t.tile tile).rod k = r ∧ (∀ j, j ≠ k → (t.tile tile).rod j = (s.tile tile).rod j) ∧
  (∀ dt, dt ≠ tile → (t.tile dt).rods = (s.tile dt).rods) ∧
  (∀ dt, (t.tile dt).lm = (s.tile dt).lm ∧ (t.tile dt).nodes = (s.tile dt).nodes ∧ (t.tile dt).queues = (s.tile dt).queues) ∧
  t.phys = s.phys ∧ t.act? t.cur = some { released s y with pc := y.pc + 4 }

/-- R185: COUNT raised by the low word of a value, OVF set on signed overflow. -/
def raised (r : Rod) (v : Word) : Rod :=
  let x : BitVec 32 := v.setWidth 32
  { r with count := r.count + x, ovf := r.ovf || (r.count.toInt + x.toInt != (r.count + x).toInt) }

/-- The issuing context blocks: its PC stays, its status shows the reason, and nothing else of it but its place changes. -/
def blocks (r : Out State) (s : State) (x : Act) (w : Waiting) (code : BitVec 3) : Prop :=
  ∃ t y, r = .next t ∧ t.act? s.cur = some y ∧ y.wait = w ∧ y.status.wait = code ∧ y.pc = x.pc ∧ y.w = x.w ∧ y.v = x.v ∧
    y.m = x.m ∧ y.e = x.e ∧ t.phys = s.phys

/-- R192: the activation may use group g of its panel. -/
def groupOk (s : State) (x : Act) (g : Word) : Prop :=
  g.toNat < 16 ∧ (s.group (x.dt / 4096) g.toNat).asid = some x.asid

/-- R229: a node reference that names a configured VT, in the issuing graph where that is asked. -/
def refOk (s : State) (x : Act) (ref : Word) (own : Bool) : Prop :=
  ref.toNat < 2 ^ 59 ∧ s.names s.panelHere (ref.toNat / 2 ^ 12 % 2 ^ 15) = true ∧ (own = true → ref.toNat / 2 ^ 43 = x.gid)

end Sys2Proof.Stated

section
open Sys2Proof Sys2Proof.Machine Sys2Proof.Stated

/-- R180, R182, R185, R186, R188: radd, rset, rarm, barr and radd.x complete with their change of one rod of the tile; the
memories, the other rods and the activation's registers are as before (`released`: but for the model's own mark of a release that
may come early, log 52). An index of 96 or more in radd.x takes BOUNDS.

R183, R185, R186: rget, rtest, rwait and bwait: what they read and when they wait.

R189, R190: waitm with a legal source list completes with the code of the first source that holds, in the order of the
codes (rod slots 0 to 3, the inbox 4, queue n 8 + n); a queue acquires nothing. With none it waits. A list with a reserved
bit set or no source takes BOUNDS with the list.

R182, R183: an add that makes a rod satisfied ends every wait pending on it: the waiting activation no longer blocks and its
PC is past its rwait, or, for a waitm that watches the rod in its first source, its result is 0. -/
def Obligations.RodInstructions : Prop :=
  (∀ s x, Issuing s x → x.fw = false → x.replica = false → sole s x → ∀ (a b : BitVec 5) (rod : BitVec 7),
     let r := (s.tile x.tile).rod rod.toNat
     let c := raised r 1
     (∃ t, exec (.radd a rod) s = .next t ∧ rodBecomes s t x.tile rod.toNat (raised r (x.wreg a)) x) ∧
     (∃ t, exec (.rset a rod) s = .next t ∧
       rodBecomes s t x.tile rod.toNat { r with count := (x.wreg a).setWidth 32, ovf := false } x) ∧
     (∃ t, exec (.rarm a rod) s = .next t ∧ rodBecomes s t x.tile rod.toNat { r with thr := (x.wreg a).setWidth 16 } x) ∧
     (∃ t, exec (.barr rod) s = .next t ∧ rodBecomes s t x.tile rod.toNat
       (if r.thr.toInt ≤ c.count.toInt then { c with count := 0, bgen := r.bgen + 1 } else c)
       { x with rodRec := some (rod.toNat, r.bgen) }) ∧
     ((x.wreg b).toNat < 96 → ∃ t, exec (.raddX a b) s = .next t ∧
       rodBecomes s t x.tile (x.wreg b).toNat (raised ((s.tile x.tile).rod (x.wreg b).toNat) (x.wreg a)) x) ∧
     (96 ≤ (x.wreg b).toNat → exec (.raddX a b) s = .next (s.takeTrap s.cur (trapOf cBOUNDS (x.wreg b))))) ∧
  (∀ s x, Issuing s x → x.fw = false → x.replica = false → ∀ (d : BitVec 5) (rod : BitVec 7),
     let r := (s.tile x.tile).rod rod.toNat
     let sat : Prop := r.thr.toInt ≤ r.count.toInt
     exec (.rget d rod) s = .next (s.after (x.setW d (r.count.signExtend 64)) 4) ∧
     (sat → exec (.rtest d rod) s = .next ((s.after (x.setW d 1) 4).acquire s.cur) ∧
       exec (.rwait rod) s = .next ((s.after x 4).acquire s.cur)) ∧
     (¬ sat → exec (.rtest d rod) s = .next (s.after (x.setW d 0) 4) ∧ blocks (exec (.rwait rod) s) s x (.rod rod.toNat) 1) ∧
     (∀ gen, x.rodRec = some (rod.toNat, gen) →
       (r.bgen ≠ gen → exec (.bwait rod) s = .next ((s.after x 4).acquire s.cur)) ∧
       (r.bgen = gen → blocks (exec (.bwait rod) s) s x (.barrier rod.toNat gen) 1)) ∧
     ((∀ gen, x.rodRec ≠ some (rod.toNat, gen)) → exec (.bwait rod) s = .next (s.after x 4))) ∧
  (∀ s x, Issuing s x → x.fw = false → x.replica = false → ∀ (d b : BitVec 5),
     let src := x.ereg (b.setWidth 3)
     let slot (i : Nat) : Prop := src.getLsbD (8 * i + 7) = true ∧
       ((s.tile x.tile).rod (src.extractLsb' (8 * i) 7).toNat).thr.toInt ≤
         ((s.tile x.tile).rod (src.extractLsb' (8 * i) 7).toNat).count.toInt
     let inbox : Prop := src.getLsbD 40 = true ∧ s.lmRead x.dt x.ident[12].toNat 8 ≠ 0
     let queue (q : Fin 8) : Prop := src.getLsbD (32 + q.val) = true ∧
       0 < (s.tile x.tile).queues[q].length - (s.tile x.tile).fresh[q]
     let gives (c : Nat) : Prop := exec (.waitm d b) s = .next ((s.after (x.setW d (BitVec.ofNat 64 c)) 4).acquire s.cur)
     (2 ^ 41 ≤ src.toNat ∨ src = 0 → exec (.waitm d b) s = .next (s.takeTrap s.cur (trapOf cBOUNDS src))) ∧
     (checkSources x src = .ok () →
       (∀ i < 4, slot i → (∀ j < i, ¬ slot j) → gives i) ∧
       ((∀ i < 4, ¬ slot i) → inbox → gives 4) ∧
       ((∀ i < 4, ¬ slot i) → ¬ inbox → ∀ q : Fin 8, queue q → (∀ p : Fin 8, p < q → ¬ queue p) →
         exec (.waitm d b) s = .next (s.after (x.setW d (BitVec.ofNat 64 (8 + q.val))) 4)) ∧
       ((∀ i < 4, ¬ slot i) → ¬ inbox → (∀ q, ¬ queue q) → blocks (exec (.waitm d b) s) s x (.multi d src) 1))) ∧
  (∀ s x, Issuing s x → x.fw = false → x.replica = false → (s.acts.map (·.1)).Pairwise (· < ·) →
     ∀ (a : BitVec 5) (rod : BitVec 7) (k : Nat) (b : Act), s.act? k = some b → k ≠ s.cur → b.tile = x.tile →
     let r := raised ((s.tile x.tile).rod rod.toNat) (x.wreg a)
     r.thr.toInt ≤ r.count.toInt →
     let free (b : Act) : Act := { b with wait := .none, status := { b.status with wait := 0, wq := 0 }, pc := b.pc + 4 }
     ∃ t, exec (.radd a rod) s = .next t ∧
       (b.wait = .rod rod.toNat → t.act? k = some (free b)) ∧
       (∀ d src, b.wait = .multi d src → src.getLsbD 7 = true → (src.extractLsb' 0 7).toNat = rod.toNat →
         t.act? k = some (free (b.setW d 0))))

/-- R192: a beam instruction that names a group of 16 or more takes BOUNDS with the group register's value; one that names a
group assigned to none, or to another address-space id, takes PERM with the group number.

R193, R198: the beam instructions on the leaf of the activation's VT; a join also ends the waits for a generation that its
leaf no longer has. -/
def Obligations.BeamInstructions : Prop :=
  (∀ s x, Issuing s x → x.fw = false → x.replica = false → ∀ (d a b : BitVec 5),
     ∀ i ∈ [Instr.bmjoin a b, .bmarr a, .bmwait a, .bmq d a, .bmleave a],
     let g := x.wreg a
     (16 ≤ g.toNat → exec i s = .next (s.takeTrap s.cur (trapOf cBOUNDS g))) ∧
     (g.toNat < 16 → (s.group (x.dt / 4096) g.toNat).asid ≠ some x.asid →
       exec i s = .next (s.takeTrap s.cur (trapOf cPERM g)))) ∧
  (∀ s x, Issuing s x → x.fw = false → x.replica = false → ∀ (d a b : BitVec 5), groupOk s x (x.wreg a) →
     let g := (x.wreg a).toNat
     let n := x.wreg b
     let l := (s.tile x.dt).leaf g
     let grp := s.group (x.dt / 4096) g
     (n = 0 ∨ 255 < n.toNat → exec (.bmjoin a b) s = .next (s.takeTrap s.cur (trapOf cBOUNDS n))) ∧
     (n ≠ 0 → n.toNat ≤ 255 →
       (l.member = true → exec (.bmjoin a b) s =
         .next ((s.setLeaf x.dt g { l with n := n.toNat, up := l.up || decide (n.toNat ≤ l.arr) }).after x 4)) ∧
       (l.member = false → exec (.bmjoin a b) s =
         .next ((((s.setGroup (x.dt / 4096) g { grp with
           pending := grp.pending.filter (· != x.dt)
           raised := grp.raised.filter (· != x.dt) }).setLeaf x.dt g
           { l with member := true, n := n.toNat, arr := 0, up := false, gen := grp.gen }).wakeBeam x.dt g).done 4))) ∧
     (l.member = false → exec (.bmarr a) s = .next (s.takeTrap s.cur (trapOf cBOUNDS (x.wreg a)))) ∧
     (l.member = true →
       (l.up = true → blocks (exec (.bmarr a) s) s x (.beamArrive g) 5) ∧
       (l.up = false → exec (.bmarr a) s = .next ((s.setLeaf x.dt g
         { l with arr := l.arr + 1, up := decide (l.arr + 1 = l.n) }).after { x with beamRec := some (g, l.gen) } 4))) ∧
     (∀ gen, x.beamRec = some (g, gen) →
       (l.gen ≠ gen → exec (.bmwait a) s = .next ((s.after x 4).acquire s.cur)) ∧
       (l.gen = gen → blocks (exec (.bmwait a) s) s x (.beamGen g gen) 5)) ∧
     ((∀ gen, x.beamRec ≠ some (g, gen)) → exec (.bmwait a) s = .next (s.after x 4)) ∧
     exec (.bmq d a) s = .next (s.after (x.setW d (0#37 ++ BitVec.ofBool l.exc ++ BitVec.ofBool l.up ++ BitVec.ofBool l.member ++
       BitVec.ofNat 8 l.arr ++ BitVec.ofNat 8 l.n ++ l.gen)) 4) ∧
     (l.member = false → exec (.bmleave a) s = .next (s.after x 4)) ∧
     (l.member = true → 0 < l.arr → blocks (exec (.bmleave a) s) s x (.beamLeave g) 5) ∧
     (l.member = true → l.arr = 0 → exec (.bmleave a) s =
       .next (((s.setLeaf x.dt g { l with member := false, arr := 0, up := false }).checkPhase (x.dt / 4096) g).done 4)))

/-- R229, R230: tok, ncan and tokv record their item for an edge of the activation's own node, in place of an earlier one, and
change nothing else; an edge that the node does not have takes BOUNDS, and so does a payload for an edge of no payload or at
an offset that R230 refuses.

R229, R231, R234 to R237: narm, ndef, nqry, evb and evu that pass their checks leave the core as outstanding requests; narm,
ndef and a binding evb pay one bead; a bad reference takes NODEREF.

R170, R188, R342: rrmt and rrmt.k check the tile-window address of a rod in order; rrmt, a release, makes the node
effected and sends the add as a durable request that its core counts as outstanding, on a firmware core too, which has no
node; rrmt.k keeps it for the commit. -/
def Obligations.NodeInstructions : Prop :=
  (∀ s x, Issuing s x → x.fw = false → ∀ (d a b : BitVec 5),
     let put (e : Word) (i : Item) (s1 : State) : Out State := .next (s1.after { x with items := tabSet x.items e.toNat i } 4)
     (∀ p ∈ [(Instr.tok a, Item.plain), (.ncan a, .cancel)],
       ((x.wreg a).toNat < x.nsucc → exec p.1 s = put (x.wreg a) p.2 s) ∧
       (x.nsucc ≤ (x.wreg a).toNat → exec p.1 s = .next (s.takeTrap s.cur (trapOf cBOUNDS (x.wreg a))))) ∧
     (let e := x.wreg d
      let at' := x.wreg a
      let payload := (s.succEntry x.dt (s.node x.dt x.index) e.toNat).getLsbD 61
      (checkQueues x [b] [] = .ok () → (x.replica && (queueOf b).isSome) = false →
        (x.nsucc ≤ e.toNat → exec (.tokv d a b) s = .next (s.takeTrap s.cur (trapOf cBOUNDS e))) ∧
        (e.toNat < x.nsucc → payload = false → exec (.tokv d a b) s = .next (s.takeTrap s.cur (trapOf cBOUNDS e))) ∧
        (e.toNat < x.nsucc → payload = true → at'.toNat % 256 ≠ 0 ∨ 2 ^ 22 ≤ at'.toNat →
          exec (.tokv d a b) s = .next (s.takeTrap s.cur (trapOf cBOUNDS at')))) ∧
      (∀ v s1, VectorReady s x [b] [] → s.readFields [b] = ([v], s1) → e.toNat < x.nsucc → payload = true →
        at'.toNat % 256 = 0 → at'.toNat < 2 ^ 22 → exec (.tokv d a b) s = put e (.payload at'.toNat v) s1))) ∧
  (∀ s x, Issuing s x → x.fw = false → x.replica = false → ∀ (d a b : BitVec 5),
     let words (ea : Word) (n : Nat) : List Word := (List.range n).map (fun i =>
       BitVec.ofNat 64 (leNat ((List.range (8 * n)).map (fun j => s.localByte s.cur x (ea.toNat + j))) / 2 ^ (64 * i)))
     (∀ p ∈ [(Instr.narm d a, x.wreg a, true), (.ndef d a b, x.wreg b, true), (.nqry d a, x.wreg a, false),
             (.evb d a b, x.wreg a, true)],
       ¬ refOk s x p.2.1 p.2.2 → exec p.1 s = .next (s.takeTrap s.cur (trapOf cNODEREF p.2.1))) ∧
     (refOk s x (x.wreg a) true → exec (.narm d a) s =
       .next ((s.payBead.request (.narm d (x.wreg a)) 1 [] ⟨false, true, 3⟩).done 4)) ∧
     (refOk s x (x.wreg b) true → readable s x (x.wreg a) 64 → exec (.ndef d a b) s =
       .next ((s.payBead.request (.ndef d (x.wreg b) (words (x.wreg a) 8)) 1 [] ⟨false, true, 3⟩).done 4)) ∧
     (refOk s x (x.wreg a) false → exec (.nqry d a) s =
       .next ((s.request (.nqry d (x.wreg a)) 1 [] .none).after x 4)) ∧
     (refOk s x (x.wreg a) true → readable s x (x.wreg b) 32 →
       (∀ code, eventSource s (words (x.wreg b) 4) = .ok (.inl code) → exec (.evb d a b) s =
         .next ((s.request (.evb d (x.wreg a) none code) 1 [] ⟨false, true, 3⟩).after x 4)) ∧
       (∀ src, eventSource s (words (x.wreg b) 4) = .ok (.inr src) → exec (.evb d a b) s =
         .next (((s.touchSource src ((words (x.wreg b) 4).getD 1 0)).payBead.request (.evb d (x.wreg a) (some src) 0) 1 []
           ⟨false, true, 3⟩).done 4))) ∧
     exec (.evu d a) s = .next ((s.request (.evu d (x.wreg a)) 1 [] .none).after x 4)) ∧
  (∀ s x, Issuing s x → x.replica = false → ∀ (a b : BitVec 5),
     let X := x.wreg a
     let dt := X.toNat / 2 ^ 22
     let off := X.toNat % 2 ^ 22
     let v : BitVec 32 := (x.wreg b).setWidth 32
     let named : Prop := X.toNat < 2 ^ 37 ∧ s.names s.panelHere dt = true ∧ 0x200000 ≤ off ∧ off ≤ 0x2002FF
     (∀ i ∈ [Instr.rrmt a b, .rrmtK a b],
       (¬ named → exec i s = .next (s.takeTrap s.cur (trapOf cWINDOW X))) ∧
       (named → off % 8 ≠ 0 → exec i s = .next (s.takeTrap s.cur (trapOf cALIGN X)))) ∧
     (named → off % 8 = 0 →
       let k := (off - 0x200000) / 8
       let r := s.releaseEarly (.lm dt (0x200000 + 8 * k)) 8 (s.addScope dt) false
       (x.fw = false → exec (.rrmt a b) s = .next (((r.send x.dt dt (.rodAdd k v) true (some s.cur)).countAdd x.dt x.stg).after
         { released s x with status := { x.status with eff := true } } 4)) ∧
       (x.fw = true → exec (.rrmt a b) s = .next (((r.send s.cur dt (.rodAdd k v) true (some s.cur)).countAdd s.cur false).after
         (released s x) 4)) ∧
       exec (.rrmtK a b) s = .next (s.after { x with rods := x.rods ++ [⟨dt, k, v⟩] } 4)))

end

namespace Sys2Proof.Stated

open Sys2Proof.Machine

/-! ### Vector instructions -/

/-- The forms of a vector operation: vector with vector, and vector with scalar. -/
abbrev VForm := BitVec 5 → BitVec 5 → BitVec 5 → BitVec 3 → BitVec 2 → Instr

/-- R261: bits W(k + 1) − 1..Wk of a vector. -/
def element (W : Nat) (v : Vec) (k : Nat) : BitVec W := v.extractLsb' (W * k) W

/-- R263: the vector sources a and b of an operation, or a alone where b is a w register. -/
def sources (scalar : Bool) (a b : BitVec 5) : List (BitVec 5) := if scalar then [a] else [a, b]

/-- The operand B of element k: of the second vector read, or of a w register. -/
def operandB (scalar : Bool) (W : Nat) (x : Act) (b : BitVec 5) (xs : List Vec) (k : Nat) : BitVec W :=
  if scalar then (x.wreg b).setWidth W else element W (xs.getD 1 0) k

/-- R262: what an instruction over elements leaves in its destination: f k in each active element, the old elsewhere. -/
def elements (W : Nat) (x : Act) (m : BitVec 3) (d : BitVec 5) (v : Vec) (f : Nat → BitVec W) : Prop :=
  ∀ k < 2048 / W, element W v k = if isActive W (x.mreg m) k then f k else element W (x.vreg (d.setWidth 4)) k

/-- R267: x clamped to the signed range of n bits. -/
def clamped (n : Nat) (x : Int) : BitVec n :=
  if x < -(2 ^ (n - 1) : Nat) then BitVec.intMin n else if ((2 ^ (n - 1) : Nat) : Int) ≤ x then BitVec.intMax n
  else BitVec.ofInt n x

/-- R267: the integer vector operations, in both forms, as operations on n-bit elements. -/
def vectorOps : List (VForm × VForm × ((n : Nat) → BitVec n → BitVec n → BitVec n)) :=
  [ (.vaddVv, .vaddVs, fun _ x y => x + y),
    (.vsubVv, .vsubVs, fun _ x y => x - y),
    (.vmulVv, .vmulVs, fun _ x y => x * y),
    (.vmulhVv, .vmulhVs, fun n x y => (x.signExtend (n + n) * y.signExtend (n + n)).extractLsb' n n),
    (.vminVv, .vminVs, fun _ x y => if x.sle y then x else y),
    (.vmaxVv, .vmaxVs, fun _ x y => if y.sle x then x else y),
    (.vminuVv, .vminuVs, fun _ x y => if x ≤ y then x else y),
    (.vmaxuVv, .vmaxuVs, fun _ x y => if y ≤ x then x else y),
    (.vandVv, .vandVs, fun _ x y => x &&& y),
    (.vorVv, .vorVs, fun _ x y => x ||| y),
    (.vxorVv, .vxorVs, fun _ x y => x ^^^ y),
    (.vshlVv, .vshlVs, fun n x y => x <<< (y.toNat % n)),
    (.vshrVv, .vshrVs, fun n x y => x >>> (y.toNat % n)),
    (.vshaVv, .vshaVs, fun n x y => x.sshiftRight (y.toNat % n)),
    (.vaddsatVv, .vaddsatVs, fun n x y => clamped n (x.toInt + y.toInt)),
    (.vsubsatVv, .vsubsatVs, fun n x y => clamped n (x.toInt - y.toInt)) ]

/-- R270, R271: the floating-point operations of two or three operands, with the value of old d, a and b and its flags. -/
def floatOps : List (VForm × VForm × (Fmt → Nat → Nat → Nat → Nat × Flags)) :=
  [ (.vfaddVv, .vfaddVs, fun f _ a b => f.add a b),
    (.vfsubVv, .vfsubVs, fun f _ a b => f.sub a b),
    (.vfmulVv, .vfmulVs, fun f _ a b => f.mul a b),
    (.vfmaVv, .vfmaVs, fun f d a b => f.fma d a b false false),
    (.vfmsVv, .vfmsVs, fun f d a b => f.fma d a b true false),
    (.vfnmaVv, .vfnmaVs, fun f d a b => f.fma d a b false true),
    (.vfminVv, .vfminVs, fun f _ a b => f.minMax false a b),
    (.vfmaxVv, .vfmaxVs, fun f _ a b => f.minMax true a b),
    (.vfdivVv, .vfdivVs, fun f _ a b => f.div a b),
    (.vfcpysVv, .vfcpysVs, fun f _ a b => (a % 2 ^ (f.bits - 1) + b / 2 ^ (f.bits - 1) % 2 * 2 ^ (f.bits - 1), 0)) ]

/-- R270, R272 to R274: the floating-point operations of one operand. -/
def floatUnary : List ((BitVec 5 → BitVec 5 → BitVec 3 → BitVec 2 → Instr) × (Fmt → Nat → Nat × Flags)) :=
  [ (.vfsqrt, fun f a => f.sqrt a),
    (.vfrsqe, fun f a => f.rsqe a),
    (.vfrcpe, fun f a => f.rcpe a),
    (.vfabs, fun f a => (a % 2 ^ (f.bits - 1), 0)),
    (.vfneg, fun f a => (if a < 2 ^ (f.bits - 1) then a + 2 ^ (f.bits - 1) else a - 2 ^ (f.bits - 1), 0)),
    (.vfclass, fun f a => (f.classify a, 0)) ]

/-- The significand of a finite value with its sign. -/
def signedSig (neg : Bool) (m : Nat) : Int := if neg then -(m : Int) else m

/-- R269: r is the sum of two finite values (−1)^n × m × 2^e: the exact sum, in units of the smaller power, rounded once by
RNE; an exact zero is +0 unless both are −0. -/
def roundedSum (f : Fmt) (r : Nat × Flags) (a b : Bool × Nat × Int) : Prop :=
  let low := min a.2.2 b.2.2
  let sum : Int := signedSig a.1 (a.2.1 * 2 ^ (a.2.2 - low).toNat) + signedSig b.1 (b.2.1 * 2 ^ (b.2.2 - low).toNat)
  (sum ≠ 0 → r = f.round .rne false (decide (sum < 0)) sum.natAbs 1 low) ∧
  (sum = 0 → r = (f.sign (a.1 && b.1 && a.2.1 == 0 && b.2.1 == 0), 0))

/-- R279: one value is less than another as numbers, a NaN never. -/
def numLt : Val → Val → Prop
  | .inf n, .inf k => n = true ∧ k = false
  | .inf n, .fin _ _ _ => n = true
  | .fin _ _ _, .inf k => k = false
  | .fin n m e, .fin k l g =>
    signedSig n (m * 2 ^ (e - min e g).toNat) < signedSig k (l * 2 ^ (g - min e g).toNat)
  | _, _ => False

/-- R271: one value orders below another, −0 below +0. -/
def ordersBelow (A B : Val) : Prop := numLt A B ∨ (A.isZero = true ∧ B.isZero = true ∧ A.neg = true ∧ B.neg = false)

/-- R245: of the two neighbours of a magnitude lo + r ÷ d the upper is taken. -/
def takesUpper (rm : Rounding) (neg : Bool) (lo r d : Nat) : Prop :=
  0 < r ∧ (match rm with
    | .rne => d < 2 * r ∨ (2 * r = d ∧ lo % 2 = 1)
    | .rtz => False
    | .rup => neg = false
    | .rdn => neg = true
    | .rsr rnd => 2 ^ 16 ≤ r * 2 ^ 16 / d + rnd)

/-- R268: the element format that esz names. -/
def formatOf (esz : BitVec 2) : Fmt := match esz with | 0 => bf16 | 1 => fp16 | 2 => fp32 | _ => fp64

/-- R249, R252, R264: the outcome of a floating-point instruction whose element k gives `res k`: with TRAPNV an active element
that raises NV faults FPINVALID with the lowest such index; else d gets the results and FPFLAGS the flags of the active
elements. -/
def floatResult (r : Out State) (s1 : State) (x : Act) (m : BitVec 3) (d : BitVec 5) (f : Fmt) (fault : Trap → Out State)
    (res : Nat → Nat × Flags) : Prop :=
  let act (k : Nat) : Prop := k < 2048 / f.bits ∧ isActive f.bits (x.mreg m) k = true
  (∀ k, act k → (res k).2.getLsbD 0 = true → (∀ j < k, act j → (res j).2.getLsbD 0 = false) → x.trapnv = true →
    r = fault (trapOf cFPINVALID (BitVec.ofNat 64 k))) ∧
  ((x.trapnv = false ∨ ∀ k, act k → (res k).2.getLsbD 0 = false) → ∃ (v : Vec) (fl : Flags),
    r = .next (((s1.writeField d v).raiseFlags fl).advance 4) ∧
    (∀ i < 5, fl.getLsbD i = true ↔ ∃ k, act k ∧ (res k).2.getLsbD i = true) ∧
    elements f.bits x m d v (fun k => BitVec.ofNat f.bits (res k).1))

end Sys2Proof.Stated

section
open Sys2Proof Sys2Proof.Machine Sys2Proof.Stated

/-- R261 to R263, R266, R267: each integer vector operation, in both forms and every element width, completes: the active
elements of vd get its value, the others stay; queue sources pop and a queue destination is pushed; nothing else changes. -/
def Obligations.VectorIntegerResults : Prop :=
  ∀ p ∈ vectorOps, ∀ s x, Issuing s x → ∀ (d a b : BitVec 5) (m : BitVec 3) (esz : BitVec 2) (scalar : Bool) (xs : List Vec)
    (s1 : State),
    let W := 8 * 2 ^ esz.toNat
    VectorReady s x (sources scalar a b) [d] → s.readFields (sources scalar a b) = (xs, s1) →
    ∃ v : Vec, exec ((if scalar then p.2.1 else p.1) d a b m esz) s = .next ((s1.writeField d v).advance 4) ∧
      elements W x m d v (fun k => p.2.2 W (element W (xs.headD 0) k) (operandB scalar W x b xs k))

/-- R245, R250: rounding to any of the floating-point formats, when no overflow is reported, gives the code of a value m × 2^g
less than one unit 2^g away from the exact x = num ÷ den × 2^e (both scaled here to whole numbers); under RNE it is no more
than half a unit away, under RTZ not above; NX says that it is not x itself. -/
def Obligations.RoundingIsFaithful : Prop :=
  ∀ f ∈ [fp64, fp32, fp16, bf16, e4m3, e5m2, e2m1], ∀ (rm : Rounding) (sat neg : Bool) (num den : Nat) (e : Int),
    0 < num → 0 < den →
    let r := f.round rm sat neg num den e
    r.2.getLsbD 2 = false →
    ∃ (m : Nat) (g : Int), f.decode r.1 = .fin neg m g ∧
      let low := min e g
      let X := num * 2 ^ (e - low).toNat
      let Q := den * 2 ^ (g - low).toNat
      let Y := m * Q
      X < Y + Q ∧ Y < X + Q ∧ (r.2.getLsbD 4 = true ↔ X ≠ Y) ∧
      (rm = .rne → 2 * X ≤ 2 * Y + Q ∧ 2 * Y ≤ 2 * X + Q) ∧ (rm = .rtz → Y ≤ X)

/-- R249, R252, R262, R264, R268, R270: each floating-point vector operation, in every form and format: its results and flags
over the active elements, or FPINVALID under TRAPNV with the lowest element that raised NV.

R269 to R272: the special values in the four vector formats: a NaN operand gives the default NaN, a signalling one NV; ∞ −
∞, 0 × ∞, 0 ÷ 0, ∞ ÷ ∞ and the root of a value below −0 give the default NaN with NV; a finite non-zero dividend over ±0 gives
an infinity with DZ; infinities and zeros else follow their signs; a minimum or maximum with one NaN is the other operand, and
else the operand that orders so, −0 below +0; the class of a value.

R269, R270, R273, R274: the finite results: the exact argument that each operation gives to the one rounding by RNE, of
the sum, the difference, the product, the quotient, the fused sum of a product, the square root and the two estimates, whose
12-bit value T is n × 2^−12; and the fused operations on NaNs and infinities, with NV for 0 × ∞ even when the addend is a
quiet NaN. -/
def Obligations.VectorFloatResults : Prop :=
  (∀ s x, Issuing s x → ∀ (d a b : BitVec 5) (m : BitVec 3) (esz : BitVec 2) (scalar : Bool) (xs : List Vec) (s1 : State),
     let f := formatOf esz
     let W := f.bits
     let old (k : Nat) : Nat := (element W (x.vreg (d.setWidth 4)) k).toNat
     let A (k : Nat) : Nat := (element W (xs.headD 0) k).toNat
     (∀ p ∈ floatOps, VectorReady s x (sources scalar a b) [d] → s.readFields (sources scalar a b) = (xs, s1) →
       let popped := (sources scalar a b).any (fun q => (queueOf q).isSome)
       floatResult (exec ((if scalar then p.2.1 else p.1) d a b m esz) s) s1 x m d f
         (fun t => .next ((if popped then s1 else s).takeTrap s.cur t))
         (fun k => p.2.2 f (old k) (A k) (operandB scalar W x b xs k).toNat)) ∧
     (∀ p ∈ floatUnary, VectorReady s x [a] [d] → s.readFields [a] = (xs, s1) →
       floatResult (exec (p.1 d a m esz) s) s1 x m d f
         (fun t => .next ((if (queueOf a).isSome then s1 else s).takeTrap s.cur t)) (fun k => p.2 f (A k)))) ∧
  (∀ f ∈ [bf16, fp16, fp32, fp64], ∀ a b : Nat, a < 2 ^ f.bits → b < 2 ^ f.bits →
     let A := f.decode a
     let B := f.decode b
     let nv (x : Bool) : Flags := if x then 1 else 0
     let sig : Flags := nv (A.isSig || B.isSig)
     ((A.isNan || B.isNan) = true → f.add a b = (f.nan, sig) ∧ f.sub a b = (f.nan, sig) ∧ f.mul a b = (f.nan, sig) ∧
       f.div a b = (f.nan, sig)) ∧
     (∀ n k, A = .inf n → B = .inf k →
       f.add a b = (if n = k then (f.inf n, 0) else (f.nan, 1)) ∧ f.sub a b = (if n = k then (f.nan, 1) else (f.inf n, 0)) ∧
       f.mul a b = (f.inf (n != k), 0) ∧ f.div a b = (f.nan, 1)) ∧
     (∀ n k m g, A = .inf n → B = .fin k m g →
       f.add a b = (f.inf n, 0) ∧ f.add b a = (f.inf n, 0) ∧ f.sub a b = (f.inf n, 0) ∧ f.sub b a = (f.inf (!n), 0) ∧
       (let r : Nat × Flags := if m = 0 then (f.nan, 1) else (f.inf (n != k), 0)
        f.mul a b = r ∧ f.mul b a = r) ∧
       f.div a b = (f.inf (n != k), 0) ∧ f.div b a = (f.sign (k != n), 0)) ∧
     (∀ n k m g h, A = .fin n m g → B = .fin k 0 h → f.div a b = if m = 0 then (f.nan, 1) else (f.inf (n != k), 2)) ∧
     (∀ isMax, A.isNan = false → B.isNan = true → f.minMax isMax a b = (a, sig) ∧ f.minMax isMax b a = (a, sig)) ∧
     (∀ isMax, A.isNan = true → B.isNan = true → f.minMax isMax a b = (f.nan, sig)) ∧
     (A.isNan = false → B.isNan = false →
       (ordersBelow A B → f.minMax false a b = (a, 0) ∧ f.minMax true a b = (b, 0)) ∧
       (ordersBelow B A → f.minMax false a b = (b, 0) ∧ f.minMax true a b = (a, 0)) ∧
       (¬ ordersBelow A B → ¬ ordersBelow B A → a = b ∧ ∀ isMax, f.minMax isMax a b = (a, 0))) ∧
     (match A with
       | .nan s => f.sqrt a = (f.nan, nv s) ∧ f.rsqe a = (f.nan, nv s) ∧ f.rcpe a = (f.nan, nv s) ∧
           f.classify a = (if s then 2 ^ 8 else 2 ^ 9)
       | .inf n => f.sqrt a = (if n then (f.nan, 1) else (f.inf false, 0)) ∧ f.rsqe a = (if n then (f.nan, 1) else (0, 0)) ∧
           f.rcpe a = (f.sign n, 0) ∧ f.classify a = (if n then 1 else 2 ^ 7)
       | .fin n m _ =>
           (m = 0 → f.sqrt a = (f.sign n, 0) ∧ f.rsqe a = (f.inf n, 2) ∧ f.rcpe a = (f.inf n, 2) ∧
             f.classify a = (if n then 2 ^ 3 else 2 ^ 4)) ∧
           (m ≠ 0 → n = true → f.sqrt a = (f.nan, 1) ∧ f.rsqe a = (f.nan, 1)) ∧
           (m ≠ 0 → f.classify a = if m < 2 ^ (f.p - 1) then (if n then 2 ^ 2 else 2 ^ 5) else (if n then 2 else 2 ^ 6)))) ∧
  (∀ f ∈ [bf16, fp16, fp32, fp64], ∀ a b d : Nat, a < 2 ^ f.bits → b < 2 ^ f.bits → d < 2 ^ f.bits →
     let A := f.decode a
     let B := f.decode b
     let D := f.decode d
     (∀ n m g k l h, A = .fin n m g → B = .fin k l h →
       roundedSum f (f.add a b) (n, m, g) (k, l, h) ∧ roundedSum f (f.sub a b) (n, m, g) (!k, l, h) ∧
       (m * l ≠ 0 → f.mul a b = f.round .rne false (n != k) (m * l) 1 (g + h) ∧
         f.div a b = f.round .rne false (n != k) m l (g - h)) ∧
       (m * l = 0 → f.mul a b = (f.sign (n != k), 0)) ∧
       (m = 0 → l ≠ 0 → f.div a b = (f.sign (n != k), 0)) ∧
       (∀ negP negD o i j, D = .fin o i j →
         roundedSum f (f.fma d a b negP negD) (o != negD, i, j) ((n != k) != negP, m * l, g + h))) ∧
     (∀ negP negD,
       let lost : Prop := (∃ n, A = .inf n ∧ B.isZero = true) ∨ ∃ n, B = .inf n ∧ A.isZero = true
       let infinite : Prop := (∃ n, A = .inf n) ∨ ∃ n, B = .inf n
       let s : Bool := (A.neg != B.neg) != negP
       (A.isSig = true ∨ B.isSig = true ∨ D.isSig = true ∨ lost → f.fma d a b negP negD = (f.nan, 1)) ∧
       (¬ (A.isSig = true ∨ B.isSig = true ∨ D.isSig = true ∨ lost) →
         (A.isNan = true ∨ B.isNan = true ∨ D.isNan = true → f.fma d a b negP negD = (f.nan, 0)) ∧
         (A.isNan = false → B.isNan = false → D.isNan = false →
           (infinite → (∀ n, D = .inf n → f.fma d a b negP negD = if (n != negD) = s then (f.inf s, 0) else (f.nan, 1)) ∧
             ((∃ n m g, D = .fin n m g) → f.fma d a b negP negD = (f.inf s, 0))) ∧
           (¬ infinite → ∀ n, D = .inf n → f.fma d a b negP negD = (f.inf (n != negD), 0))))) ∧
     (∀ m g, A = .fin false m g → m ≠ 0 → ∃ (r k : Nat) (h : Int), g - k = 2 * h ∧ 2 ^ (f.p + 2) ≤ r ∧
       r * r ≤ m * 2 ^ k ∧ m * 2 ^ k < (r + 1) * (r + 1) ∧
       f.sqrt a = f.round .rne false false (2 * r + if r * r = m * 2 ^ k then 0 else 1) 1 (h - 1)) ∧
     (∀ (n : Bool) (m : Nat) (g : Int) (k : Nat), A = .fin n m g → 2 ^ k ≤ m → m < 2 ^ (k + 1) →
       let t := m * 256 / 2 ^ k - 256
       (∃ T, (2 * T - 1) * (2 * t + 513) ≤ 2 ^ 22 ∧ 2 ^ 22 < (2 * T + 1) * (2 * t + 513) ∧
         f.rcpe a = f.round .rne false n T 1 (-12 - (k + g))) ∧
       (∀ (p : Nat) (q : Int), n = false → p < 2 → k + g = 2 * q + p →
         ∃ T, (2 * T - 1) ^ 2 * (2 ^ p * (2 * t + 513)) ≤ 2 ^ 35 ∧ 2 ^ 35 < (2 * T + 1) ^ 2 * (2 ^ p * (2 * t + 513)) ∧
           f.rsqe a = f.round .rne false false T 1 (-12 - q))))

/-- R262, R275: the moves and permutes of major 0x2C complete.

R275, R276: vext and vins with an index below E complete; with any other they take BOUNDS with wb as it stands, before any
pop; vrot and vperm complete whatever their indices; the encoding of R276's example decodes to it. -/
def Obligations.MoveAndPermuteResults : Prop :=
  (∀ s x, Issuing s x → ∀ (d a b : BitVec 5) (m : BitVec 3) (esz : BitVec 2) (xs : List Vec) (s1 : State),
     let W := 8 * 2 ^ esz.toNat
     let E := 2048 / W
     let A := element W (xs.headD 0)
     let B := element W (xs.getD 1 0)
     (∀ p ∈ ([(Instr.vmov d a m esz, [a], A),
              (.vbcst d b m esz, [], fun _ => (x.wreg b).setWidth W),
              (.vperm d a b m esz, [a, b], fun k => A ((B k).toNat % E)),
              (.vrot d a b m esz, [a], fun k => A ((k + (x.wreg b).toNat) % E)),
              (.vzip d a b m esz, [a, b], fun k => if k % 2 = 0 then A (k / 2) else B ((k - 1) / 2)),
              (.vunzip d a b m esz, [a, b], fun k => if k < E / 2 then A (2 * k) else B (2 * k - E)),
              (.viota d m esz, [], fun k => BitVec.ofNat W k)] :
             List (Instr × List (BitVec 5) × (Nat → BitVec W))),
       VectorReady s x p.2.1 [d] → s.readFields p.2.1 = (xs, s1) →
       ∃ v : Vec, exec p.1 s = .next ((s1.writeField d v).advance 4) ∧ elements W x m d v p.2.2) ∧
     (VectorReady s x [a, b] [d] → s.readFields [a, b] = (xs, s1) →
       ∃ v : Vec, exec (.vsel d a b m esz) s = .next ((s1.writeField d v).advance 4) ∧
         ∀ k < E, element W v k = if isActive W (x.mreg m) k then A k else B k)) ∧
  (decodeWord 0xEC194822 = .ok (.vext 3 5 4 2) ∧
   ∀ s x, Issuing s x → ∀ (d a b : BitVec 5) (m : BitVec 3) (esz : BitVec 2),
     let W := 8 * 2 ^ esz.toNat
     let E := 2048 / W
     let j := x.wreg b
     (checkQueues x [a] [] = .ok () → (x.replica && (queueOf a).isSome) = false →
       E ≤ j.toNat → exec (.vext d a b esz) s = .next (s.takeTrap s.cur (trapOf cBOUNDS j))) ∧
     (d.toNat < 16 → E ≤ j.toNat → exec (.vins d a b esz) s = .next (s.takeTrap s.cur (trapOf cBOUNDS j))) ∧
     (∀ v s1, VectorReady s x [a] [] → s.readFields [a] = ([v], s1) → j.toNat < E →
       exec (.vext d a b esz) s = .next (s1.after (x.setW d ((element W v j.toNat).setWidth 64)) 4)) ∧
     (d.toNat < 16 → j.toNat < E → ∃ v : Vec,
       exec (.vins d a b esz) s = .next (s.after (x.setV (d.setWidth 4) v) 4) ∧
       ∀ k < E, element W v k = if k = j.toNat then (x.wreg a).setWidth W else element W (x.vreg (d.setWidth 4)) k) ∧
     (∀ xs s1, VectorReady s x [a] [d] → s.readFields [a] = (xs, s1) →
       ∃ v, exec (.vrot d a b m esz) s = .next ((s1.writeField d v).advance 4)) ∧
     (∀ xs s1, VectorReady s x [a, b] [d] → s.readFields [a, b] = (xs, s1) →
       ∃ v, exec (.vperm d a b m esz) s = .next ((s1.writeField d v).advance 4)))

/-- R277: the integer reductions over the active elements, with their empty values.

R278, R252: the floating-point reductions run the fixed tree: wd gets its result zero-extended and FPFLAGS the flags of
every step; under TRAPNV the first step that raises NV faults FPINVALID with the lowest index of the active elements that
feed it (log 25: the index is the model's reading where an inactive element feeds the step). With no active element the
result is the empty value. -/
def Obligations.Reductions : Prop :=
  (∀ s x, Issuing s x → ∀ (d a : BitVec 5) (m : BitVec 3) (esz : BitVec 2) (v : Vec) (s1 : State),
     let W := 8 * 2 ^ esz.toNat
     let act := (List.range (2048 / W)).filter (isActive W (x.mreg m))
     let A := element W v
     let gives (i : Instr) (r : Word) : Prop := exec i s = .next (s1.after (x.setW d r) 4)
     VectorReady s x [a] [] → s.readFields [a] = ([v], s1) →
     gives (.vradd d a m esz) ((act.map (fun k => (A k).signExtend 64)).sum) ∧
     gives (.vpopc d a m esz)
       (BitVec.ofNat 64 ((act.map (fun k => (List.range W).countP (fun i => (A k).getLsbD i))).sum)) ∧
     (∃ r : BitVec W, gives (.vrmax d a m esz) (r.signExtend 64) ∧ (∀ k ∈ act, (A k).sle r = true) ∧
       (r = BitVec.intMin W ∨ ∃ k ∈ act, A k = r)) ∧
     (∃ r : BitVec W, gives (.vrmin d a m esz) (r.signExtend 64) ∧ (∀ k ∈ act, r.sle (A k) = true) ∧
       (r = BitVec.intMax W ∨ ∃ k ∈ act, A k = r)) ∧
     (∃ r : BitVec W, gives (.vrmaxu d a m esz) (r.setWidth 64) ∧ (∀ k ∈ act, A k ≤ r) ∧ (r = 0 ∨ ∃ k ∈ act, A k = r)) ∧
     (∃ r : BitVec W, gives (.vrminu d a m esz) (r.setWidth 64) ∧ (∀ k ∈ act, r ≤ A k) ∧
       (r = BitVec.allOnes W ∨ ∃ k ∈ act, A k = r)) ∧
     ((∀ k ∈ act, A k = 0) → gives (.vfirst d a m esz) (BitVec.allOnes 64)) ∧
     (∀ k ∈ act, A k ≠ 0 → (∀ j ∈ act, j < k → A j = 0) → gives (.vfirst d a m esz) (BitVec.ofNat 64 k))) ∧
  (∀ s x, Issuing s x → ∀ (d a : BitVec 5) (m : BitVec 3) (esz : BitVec 2) (v : Vec) (s1 : State),
     VectorReady s x [a] [] → s.readFields [a] = ([v], s1) →
     ∀ p ∈ [(Instr.vrfadd d a m esz, VRedOp.fadd), (.vrfmax d a m esz, .fmax), (.vrfmin d a m esz, .fmin)],
     let r := fpReduce p.2 esz v (x.mreg m)
     let f : Fmt := if esz.toNat ≤ 1 then fp32 else formatOf esz
     (x.trapnv = false ∨ (∀ e ∈ r.2, e.2.getLsbD 0 = false) →
       exec p.1 s = .next (s1.after { x.setW d (BitVec.ofNat 64 r.1) with
         fpflags := r.2.foldl (fun g e => g ||| e.2) x.fpflags } 4)) ∧
     (∀ ok e rest, x.trapnv = true → r.2 = ok ++ e :: rest → (∀ y ∈ ok, y.2.getLsbD 0 = false) → e.2.getLsbD 0 = true →
       exec p.1 s = .next ((if (queueOf a).isSome then s1 else s).takeTrap s.cur (trapOf cFPINVALID (BitVec.ofNat 64 e.1)))) ∧
     ((∀ k, isActive (formatOf esz).bits (x.mreg m) k = false) →
       r.1 = if p.2 = .fadd then 0 else f.inf (p.2 == .fmax)))

/-- R262, R279: the compares write all 64 bits of md: bit i for lane i, set where the lane is active and every element of it
compares true; both bits of a 64-bit element. The floating-point ones raise their flags, or FPINVALID under TRAPNV.

R279: the four floating-point compares as numbers, +0 equal to −0: less and less-or-equal raise NV for any NaN, equal and
unordered for a signalling one only.

R280: the mask operations complete; m0 reads all ones. -/
def Obligations.ComparesAndMasks : Prop :=
  (∀ s x, Issuing s x → ∀ (d a b : BitVec 5) (m : BitVec 3) (esz : BitVec 2) (xs : List Vec) (s1 : State),
     VectorReady s x [a, b] [] → s.readFields [a, b] = (xs, s1) →
     let lanes (W : Nat) (t : Nat → Prop) (r : Word) : Prop := ∀ i < 64, r.getLsbD i = true ↔
       (if W = 64 then (x.mreg m).getLsbD (2 * (i / 2)) = true ∧ t (i / 2)
        else (x.mreg m).getLsbD i = true ∧ ∀ j < 32 / W, t (32 / W * i + j))
     (let W := 8 * 2 ^ esz.toNat
      let A := element W (xs.headD 0)
      let B := element W (xs.getD 1 0)
      ∀ p ∈ ([(Instr.vcmpEq d a b m esz, fun k => A k = B k), (.vcmpNe d a b m esz, fun k => A k ≠ B k),
              (.vcmpLt d a b m esz, fun k => (A k).slt (B k) = true), (.vcmpLe d a b m esz, fun k => (A k).sle (B k) = true),
              (.vcmpLtu d a b m esz, fun k => A k < B k), (.vcmpLeu d a b m esz, fun k => A k ≤ B k)] :
             List (Instr × (Nat → Prop))),
        ∃ r : Word, exec p.1 s = .next (s1.after (x.setM (d.setWidth 3) r) 4) ∧ lanes W p.2 r) ∧
     (let f := formatOf esz
      let W := f.bits
      ∀ p ∈ [(Instr.vcmpFeq d a b m esz, 8), (.vcmpFlt d a b m esz, 9), (.vcmpFle d a b m esz, 10), (.vcmpFun d a b m esz, 11)],
        let res (k : Nat) : Bool × Flags := f.compare p.2 (element W (xs.headD 0) k).toNat (element W (xs.getD 1 0) k).toNat
        let act (k : Nat) : Prop := k < 2048 / W ∧ isActive W (x.mreg m) k = true
        (x.trapnv = false ∨ (∀ k, act k → (res k).2.getLsbD 0 = false) → ∃ (r : Word) (fl : Flags),
          exec p.1 s = .next (s1.after { x.setM (d.setWidth 3) r with fpflags := x.fpflags ||| fl } 4) ∧
          lanes W (fun k => (res k).1 = true) r ∧
          ∀ i < 5, fl.getLsbD i = true ↔ ∃ k, act k ∧ (res k).2.getLsbD i = true) ∧
        (∀ k, x.trapnv = true → act k → (res k).2.getLsbD 0 = true → (∀ j < k, act j → (res j).2.getLsbD 0 = false) →
          exec p.1 s = .next ((if (queueOf a).isSome || (queueOf b).isSome then s1 else s).takeTrap s.cur
            (trapOf cFPINVALID (BitVec.ofNat 64 k)))))) ∧
  (∀ f ∈ [bf16, fp16, fp32, fp64], ∀ a b : Nat, a < 2 ^ f.bits → b < 2 ^ f.bits →
     let A := f.decode a
     let B := f.decode b
     let nan : Bool := A.isNan || B.isNan
     let equal : Prop := nan = false ∧ ¬ numLt A B ∧ ¬ numLt B A
     ((f.compare 8 a b).1 = true ↔ equal) ∧ ((f.compare 9 a b).1 = true ↔ numLt A B) ∧
     ((f.compare 10 a b).1 = true ↔ numLt A B ∨ equal) ∧ (f.compare 11 a b).1 = nan ∧
     (∀ op ∈ [8, 11], (f.compare op a b).2 = if A.isSig || B.isSig then 1 else 0) ∧
     (∀ op ∈ [9, 10], (f.compare op a b).2 = if nan then 1 else 0)) ∧
  (∀ s x, Issuing s x → ∀ (d a b : BitVec 5) (r : BitVec 5),
     let A := x.mreg (a.setWidth 3)
     let B := x.mreg (b.setWidth 3)
     let gives (i : Instr) (v : Word) : Prop := exec i s = .next (s.after (x.setM (d.setWidth 3) v) 4)
     x.mreg 0 = 0xFFFFFFFFFFFFFFFF ∧
     gives (.mand d a b) (A &&& B) ∧ gives (.mor d a b) (A ||| B) ∧ gives (.mxor d a b) (A ^^^ B) ∧
     gives (.mandn d a b) (A &&& ~~~B) ∧ gives (.mnot d a) (~~~A) ∧
     (∃ v : Word, gives (.mfirstn d a) v ∧ ∀ i < 64, v.getLsbD i = decide (i < (x.wreg a).toNat)) ∧
     exec (.mcnt r a) s = .next (s.after (x.setW r (BitVec.ofNat 64 ((List.range 64).countP (fun i => A.getLsbD i)))) 4))

/-- R247, R254, R255: vcvt converts N elements, each by R253, with its own draw under RSR; equal and wider results replace vd,
narrower ones are shifted in from the top; SEED and FPFLAGS follow.

R6, R246, R253: Convert, row by row: what a NaN, an infinity, a zero, a finite value and an integer give in each
destination, with the flags; the exact argument that a finite value gives to the rounding; a finite value in an integer
rounded by R245. Of an infinity between equal formats with saturate 1 the row of infinities is taken (the model's reading, log
99).

R254, R257 to R259: bamax, scld, dqt and qnt complete: the block maxima, the scale codes, the dequantised lanes and the
quantised blocks.

R243, R244, R256: the derived scale is the smallest finite code whose value times Emax reaches the magnitude m × 2^e, or
the largest finite code where none does. -/
def Obligations.Conversions : Prop :=
  (∀ s x, Issuing s x → ∀ (d a : BitVec 5) (rm : BitVec 3) (dst src : BitVec 4) (sat : Bool) (u : Vec) (s1 : State),
     VectorReady s x [a] [d] → s.readFields [a] = ([u], s1) → dst.toNat ≤ 10 → src.toNat ≤ 10 →
     let S := (cvtFmt src).bits
     let T := (cvtFmt dst).bits
     let N := 2048 / max S T
     let draws := roundings rm N x.seed
     let res (k : Nat) : Nat × Flags :=
       convert (element S u k).toNat (cvtFmt src) (cvtFmt dst) (draws.1.getD k .rne) sat
     ((x.trapnv = false ∨ ∀ k < N, (res k).2.getLsbD 0 = false) → ∃ (v : Vec) (fl : Flags),
       exec (.vcvt d a rm dst src sat) s =
         .next ((((s1.writeField d v).updHere (fun y => { y with seed := draws.2 })).raiseFlags fl).advance 4) ∧
       (∀ i < 5, fl.getLsbD i = true ↔ ∃ k < N, (res k).2.getLsbD i = true) ∧
       (S ≤ T → ∀ k < N, (element T v k).toNat = (res k).1 % 2 ^ T) ∧
       (T < S → (∀ k < N, (element T v (2048 / T - N + k)).toNat = (res k).1 % 2 ^ T) ∧
         ∀ k < 2048 / T - N, element T v k = element T (x.vreg (d.setWidth 4)) (k + N))) ∧
     (∀ k < N, x.trapnv = true → (res k).2.getLsbD 0 = true → (∀ j < k, (res j).2.getLsbD 0 = false) →
       exec (.vcvt d a rm dst src sat) s =
         .next ((if (queueOf a).isSome then s1 else s).takeTrap s.cur (trapOf cFPINVALID (BitVec.ofNat 64 k))))) ∧
  (∀ (rm : Rounding) (sat : Bool) (x : Nat),
     (∀ f ∈ [fp64, fp32, fp16, bf16, e4m3, e5m2, e2m1],
       (∀ g ∈ [fp64, fp32, fp16, bf16, e4m3, e5m2, e2m1],
         let r := convert x (.fp f) (.fp g) rm sat
         (∀ s, f.decode x = .nan s → r = if g = e2m1 then (0, 1) else (g.nan, if s then 1 else 0)) ∧
         (∀ n, f.decode x = .inf n → r =
           (if g = e2m1 then (g.sign n + g.maxCode, if sat then 0 else 1)
            else if sat then (g.sign n + g.maxCode, 0)
            else if g = e4m3 then (g.nan, 1) else (g.inf n, 0))) ∧
         (∀ n e, f.decode x = .fin n 0 e → r = (g.sign n, 0)) ∧
         (∀ n m e, f.decode x = .fin n m e → m ≠ 0 → r = g.round rm sat n m 1 e)) ∧
       (∀ p ∈ [(32, true), (16, true), (8, true), (8, false)],
         let r := convert x (.fp f) (.int p.1 p.2) rm sat
         let lo : Int := if p.2 then -2 ^ (p.1 - 1) else 0
         let hi : Int := if p.2 then 2 ^ (p.1 - 1) - 1 else 2 ^ p.1 - 1
         let code (y : Int) : Nat := (BitVec.ofInt p.1 y).toNat
         (∀ s, f.decode x = .nan s → r = (0, 1)) ∧
         (∀ n, f.decode x = .inf n → r = (code (if n then lo else hi), if sat then 0 else 1)) ∧
         (∀ n m e, f.decode x = .fin n m e →
           let num := m * 2 ^ e.toNat
           let den := 2 ^ (-e).toNat
           ∃ y : Nat, (takesUpper rm n (num / den) (num % den) den → y = num / den + 1) ∧
             (¬ takesUpper rm n (num / den) (num % den) den → y = num / den) ∧
             (lo ≤ signedSig n y → signedSig n y ≤ hi → r = (code (signedSig n y), if num % den = 0 then 0 else 16)) ∧
             (signedSig n y < lo → r = (code lo, if sat then 16 else 1)) ∧
             (hi < signedSig n y → r = (code hi, if sat then 16 else 1))))) ∧
     (∀ p ∈ [(32, true), (16, true), (8, true), (8, false)], x < 2 ^ p.1 →
       let v : Int := if p.2 then (BitVec.ofNat p.1 x).toInt else x
       (∀ g ∈ [fp64, fp32, fp16, bf16, e4m3, e5m2, e2m1],
         convert x (.int p.1 p.2) (.fp g) rm sat = if v = 0 then (0, 0) else g.round rm sat (decide (v < 0)) v.natAbs 1 0) ∧
       (∀ q ∈ [(32, true), (16, true), (8, true), (8, false)],
         let lo : Int := if q.2 then -2 ^ (q.1 - 1) else 0
         let hi : Int := if q.2 then 2 ^ (q.1 - 1) - 1 else 2 ^ q.1 - 1
         convert x (.int p.1 p.2) (.int q.1 q.2) rm sat =
           ((BitVec.ofInt q.1 (if sat then (if v < lo then lo else if hi < v then hi else v) else v)).toNat, 0)))) ∧
  (∀ s x, Issuing s x → ∀ (d a b : BitVec 5) (t rm : BitVec 3) (sat : Bool) (u : Vec) (s1 : State), t.toNat < 6 →
     exec (.scld d a t) s = .next (s.after (x.setW d (BitVec.ofNat 64
       (scaleCode t ((x.wreg a).toNat / 2 ^ 32) * 2 ^ 16 + scaleCode t ((x.wreg a).toNat % 2 ^ 32)))) 4) ∧
     (VectorReady s x [a] [] → s.readFields [a] = ([u], s1) →
       (∃ A : Nat → BitVec 32, exec (.bamax d a) s = .next (s1.after (x.setW d (A 1 ++ A 0)) 4) ∧
         ∀ h < 2, let lane (i : Nat) : BitVec 32 := element 32 u (32 * h + i)
           ((∃ i < 32, (fp32.decode (lane i).toNat).isNan = true) → A h = 0x7FC00000) ∧
           ((∀ i < 32, (fp32.decode (lane i).toNat).isNan = false) →
             (∀ i < 32, (lane i).toNat % 2 ^ 31 ≤ (A h).toNat) ∧ ∃ i < 32, (lane i).toNat % 2 ^ 31 = (A h).toNat)) ∧
       (let draws := roundings rm 64 x.seed
        let lanes (h : Nat) : List Nat := (List.range 32).map (fun i => (element 32 u (32 * h + i)).toNat)
        let q (h : Nat) := quantBlock t sat (lanes h) (if h = 0 then draws.1.take 32 else draws.1.drop 32)
        let P := 64 * targetBits t
        (x.trapnv = false ∨ ((q 0).2.2.2 = false ∧ (q 1).2.2.2 = false) →
          exec (.qnt d a b t rm sat) s = .next (s1.after { ((x.setV (d.setWidth 4) (placeResults (x.vreg (d.setWidth 4)) P
            (packElems (targetBits t) ((q 0).2.1 ++ (q 1).2.1)))).setW b (BitVec.ofNat 64 ((q 1).1 * 2 ^ 16 + (q 0).1))) with
            seed := draws.2, fpflags := x.fpflags ||| ((q 0).2.2.1 ||| (q 1).2.2.1) } 4)) ∧
        (x.trapnv = true → (q 0).2.2.2 = true ∨ (q 1).2.2.2 = true →
          exec (.qnt d a b t rm sat) s = .next ((if (queueOf a).isSome then s1 else s).takeTrap s.cur
            (trapOf cFPINVALID (if (q 0).2.2.2 = true then 0 else 32)))))) ∧
     (VectorReady s x [a] [d] → s.readFields [a] = ([u], s1) →
       let res (k : Nat) : Nat × Flags :=
         dequant t (element (targetBits t) u k).toNat ((x.wreg b).toNat / 2 ^ (16 * (k / 32)) % 2 ^ 16)
       ∃ (v : Vec) (fl : Flags), exec (.dqt d a b t) s = .next (((s1.writeField d v).raiseFlags fl).advance 4) ∧
         (∀ i < 5, fl.getLsbD i = true ↔ ∃ k < 64, (res k).2.getLsbD i = true) ∧
         ∀ k < 64, (element 32 v k).toNat = (res k).1 % 2 ^ 32)) ∧
  (∀ (t : BitVec 3) (m : Nat) (e : Int), t.toNat < 6 →
     let last := if t.toNat < 2 then 0x3FB else 254
     let fits (c : Nat) : Prop := ∃ sm se, scaleVal (sbTarget t) c = some (sm, se) ∧
       leScaled m e ((targetMax t).1 * sm) ((targetMax t).2 + se) = true
     let c := derive t m e
     c ≤ last ∧ (fits c ∨ c = last) ∧ ∀ c' < c, ¬ fits c')

end

namespace Sys2Proof.Stated

open Sys2Proof.Machine

/-! ### The matrix engine, copies, service and system instructions -/

/-- The activation parks: its place, cause, fault value and PC, its registers as before, its node PARKED, its slot free. -/
def parksWith (r : Out State) (s : State) (x : Act) (code : BitVec 8) (value pc : Word) : Prop :=
  ∃ t y, r = .next t ∧ t.act? s.cur = some y ∧ y.place = .parked ∧ y.cause.code = code ∧ y.value = value ∧ y.pc = pc ∧
    y.w = x.w ∧ y.v = x.v ∧ y.m = x.m ∧ y.e = x.e ∧ (t.node x.dt x.index).state = stParked ∧
    ∀ n : Fin 4, (t.core x.tile x.stg).slots[n] ≠ some s.cur

/-- R285: the activation holds the matrix claim of its tile on a compute core. -/
def holdsClaim (s : State) (x : Act) : Prop := x.fw = false ∧ x.stg = false ∧ (s.tile x.tile).claim = some s.cur

/-- R387, R389: an entry that a tlbinv with address va and scope v matches (log 19: without ALLAS a global entry does not). -/
def invalidates (e : Tlb) (va : Nat) (v : Word) : Prop :=
  (v.getLsbD 12 = true ∨ (e.glob = false ∧ e.asid = v.extractLsb' 0 12)) ∧
  (v.getLsbD 13 = true ∨ va / pageBytes e.size = e.va / pageBytes e.size)

/-- R372, R376: an access to a CSR from the issuing context is allowed. -/
def csrAllowed (s : State) (x : Act) (c : BitVec 12) (write : Bool) : Prop :=
  WellFormed.csrAssigned c = true ∧ (write = true → WellFormed.csrWritable c = true) ∧
  (0x400 ≤ c.toNat → c.toNat < 0x800 → x.fw = true) ∧
  (0x410 ≤ c.toNat → c.toNat ≤ 0x414 → s.fwHere % 4 = 0 ∧ s.fwDie % 64 < 40)

/-- R248, R249, R252, R293, R377: a CSR of the activation written. -/
def contextCsr (x : Act) (c : BitVec 12) (v : Word) : Act :=
  match c.toNat with
  | 1 => { x with fpflags := v.setWidth 5 }
  | 2 => { x with trapnv := v.getLsbD 0 }
  | 3 => { x with seed := if v.setWidth 32 = (0 : BitVec 32) then 1 else v.setWidth 32 }
  | _ => { x with mxinj := v.setWidth 2 }

/-- R248, R249, R252, R293, R377: a CSR of the activation read. -/
def contextRead (x : Act) (c : BitVec 12) : Word :=
  match c.toNat with
  | 1 => x.fpflags.setWidth 64
  | 2 => if x.trapnv then 1 else 0
  | 3 => x.seed.setWidth 64
  | _ => x.mxinj.setWidth 64

end Sys2Proof.Stated

section
open Sys2Proof Sys2Proof.Machine Sys2Proof.Stated

/-- R285, R286, R291, R294, R296, R297: the claim is granted with the engine reset, or waited for; mrel closes every group and
releases it; mzero, mrd, mwr and mscl act on their accumulator after closing its group; mchk reads its summary; sset sets
e6.

R282, R285, R373: on a staging core and on a firmware core the matrix and tile-store instructions take ROLE with fault value
0; on a compute core without the claim those that use the accumulators take ROLE with fault value 1. -/
def Obligations.MatrixResults : Prop :=
  (∀ s x, Issuing s x → x.fw = false → x.stg = false → ∀ (d n a b : BitVec 5),
     let t := s.tile x.tile
     let acc := t.acc n
     let zero : Acc := ⟨Vector.replicate 64 0, false, 0, 0, [], 0, 0, 0, false, 0, 0, 0, 0, false⟩
     exec (.sset a) s = .next (s.after { x with e := x.e.set 6 (x.wreg a) } 4) ∧
     (t.claim = none → exec .macq s =
       .next ((s.setTile x.tile { t with claim := some s.cur, accs := Vector.replicate 4 zero }).after x 4)) ∧
     (t.claim = some s.cur → exec .macq s = .next (s.after x 4)) ∧
     (∀ k, t.claim = some k → k ≠ s.cur → ∃ u y, exec .macq s = .next u ∧ u.act? s.cur = some y ∧ y.wait = .claim ∧
       y.status.wait = 4 ∧ y.pc = x.pc ∧ (u.tile x.tile).waiters = t.waiters ++ [s.cur]) ∧
     (t.claim ≠ some s.cur → exec .mrel s = .next (s.after x 4)) ∧
     (t.claim = some s.cur → t.waiters = [] → ∃ u y, exec .mrel s = .next u ∧ u.act? s.cur = some y ∧ y.pc = x.pc + 4 ∧
       (u.tile x.tile).claim = none ∧ ∀ k : Fin 4, (u.tile x.tile).accs[k] = (t.accs[k].closeIfOpen).1) ∧
     (t.claim = some s.cur → ∀ k rest, t.waiters = k :: rest → k ≠ s.cur → ∃ u, exec .mrel s = .next u ∧
       (u.tile x.tile).claim = some k ∧ (u.tile x.tile).waiters = rest ∧ (u.tile x.tile).accs = Vector.replicate 4 zero ∧
       ∀ z, s.act? k = some z → u.act? k = some
         { z with wait := .none, status := { z.status with wait := 0, wq := 0 }, pc := z.pc + 4 }) ∧
     (t.claim = some s.cur →
       let closed := acc.closeIfOpen
       let flagged : Act := { x with fpflags := x.fpflags ||| closed.2 }
       exec (.mzero n) s = .next ((s.setAcc n { closed.1 with rows := Vector.replicate 64 0 }).after flagged 4) ∧
       exec (.mchk d n) s = .next (s.after (x.setW d (0#36 ++ BitVec.ofBool acc.inj ++ (if acc.isOpen then acc.fmt else 0#4) ++
         BitVec.ofNat 6 (if acc.isOpen then acc.cnt else 0) ++ BitVec.ofBool acc.isOpen ++ acc.rerun)) 4) ∧
       (∀ i : Fin 64, (x.wreg b).toNat = i.val →
         (VectorReady s x [] [d] → exec (.mrd d n b) s =
           .next (((((s.setAcc n closed.1).raiseFlags closed.2).writeField d closed.1.rows[i])).advance 4)) ∧
         (∀ v s1, VectorReady s x [a] [] → s.readFields [a] = ([v], s1) → exec (.mwr n a b) s =
           .next ((s1.setAcc n { closed.1 with rows := closed.1.rows.set i.val v }).after flagged 4))) ∧
       (64 ≤ (x.wreg b).toNat → d.toNat < 16 → exec (.mrd d n b) s = .next (s.takeTrap s.cur (trapOf cBOUNDS (x.wreg b)))) ∧
       (∀ v s1, VectorReady s x [a] [] → s.readFields [a] = ([v], s1) →
         exec (.mscl n a) s = .next ((s1.setAcc n { acc with bscl := v }).after x 4)))) ∧
  (∀ s x, Issuing s x → ∀ (d a b : BitVec 5) (f : BitVec 4) (inc sp init : Bool),
     let claimed := [Instr.mzero a, .mrd d a b, .mwr a d b, .mscl a d, .mchk d a, .mma d a b f inc sp init]
     (x.fw = true ∨ x.stg = true →
       ∀ i ∈ claimed ++ [Instr.macq, .mrel, .sset a, .tsld d, .tsst a, .tsfill a b],
         exec i s = .next (s.takeTrap s.cur (trapOf cROLE 0))) ∧
     (x.fw = false → x.stg = false → (s.tile x.tile).claim ≠ some s.cur → a.toNat < 16 → b.toNat < 16 → d.toNat < 16 →
       ∀ i ∈ claimed, exec i s = .next (s.takeTrap s.cur (trapOf cROLE 1))))

/-- R284, R289 to R292, R294, R299: mma with its rows at hand, no injection and no upset: after `init` or a change of format it
opens a group with its latched scales, adds its exact products, closes a full group, and steps e6 and e7; with a double
injected mismatch it is charged again and leaves MATRIX, with the accumulator and bit 8, to be taken at a later boundary.
Upsets are the model's input (log 7). -/
def Obligations.MatrixMultiply : Prop :=
  ∀ s x, Issuing s x → holdsClaim s x → ∀ (d a b : BitVec 5) (f : BitVec 4) (inc sp init : Bool) (xs : List Vec) (s1 : State)
      (e6 e7 : Word),
    let acc := (s.tile x.tile).acc d
    let opening := acc.willOpen f init
    let scaled := decide (6 ≤ f.toNat)
    let srcs := if scaled && opening then [a, b] else [a]
    let row (k : Nat) : BitVec 1024 := (s.tile x.tile).row (e7.toNat + k)
    checkQueues x (if scaled then [a, b] else [a]) [] = .ok () →
    VectorReady s x srcs [] → s.readFields srcs = (xs, s1) →
    skipPointers s f opening sp = .ok (e6, e7) → skipPointers s1 f opening sp = .ok (e6, e7) → e7.toNat + 2 ≤ 65536 →
    (s.tile x.tile).poisonedRows e7.toNat = none → s.upset = 0 →
    (x.mxinj = 0 →
      let ready := acc.ready f init
      let begun := if opening then ready.1.openGroup f (if scaled then xs.getD 1 0 else ready.1.sa) else ready.1
      let summed := begun.addProducts f (xs.headD 0) (row 0) (row 1)
      let counted : Acc := { summed with cnt := summed.cnt + kpm f }
      let done := if counted.cnt = groupSize f then counted.close else (counted, 0)
      exec (.mma d a b f inc sp init) s = .next ((s1.setAcc d done.1).after
        { (x.setE 6 e6).setE 7 (if inc then e7 + 2 else e7) with fpflags := x.fpflags ||| (ready.2.1 ||| done.2) } 4)) ∧
    (x.mxinj = 2 → let t := s1.setAct s.cur { x with mxinj := 0 }
      exec (.mma d a b f inc sp init) s = .next (((t.chargeRerun f).lateFault
        (trapOf cMATRIX (BitVec.ofNat 64 (d.toNat % 4 + 256)))).after { x with mxinj := 0 } 4))

/-- R131, R284, R294, R299: every mma whose operands and rows are at hand completes: its PC moves on, whatever its data. e6 and
e7 step unless a poisoned slice or two mismatches leave a fault to be taken at a later boundary: then it has no effect but its
pops. MXINJ is cleared (R293). -/
def Obligations.MatrixCompletion : Prop :=
  ∀ s x, Issuing s x → holdsClaim s x → ∀ (d a b : BitVec 5) (f : BitVec 4) (inc sp init : Bool),
    let opening := ((s.tile x.tile).acc d).willOpen f init
    let scaled := decide (6 ≤ f.toNat)
    let srcs := if scaled && opening then [a, b] else [a]
    let skip := opening && sp
    let entry := leNat ((List.range 2).map (fun i => s.localByte s.cur x ((x.ereg 6).toNat + i)))
    let e6 := if skip then x.ereg 6 + 2 else x.ereg 6
    let e7 := if skip then x.ereg 7 + BitVec.ofNat 64 (entry * rowsPerGroup f) else x.ereg 7
    checkQueues x (if scaled then [a, b] else [a]) [] = .ok () → VectorReady s x srcs [] →
    (skip = true → readable s x (x.ereg 6) 2) → e7.toNat + 2 ≤ 65536 →
    ∃ t y, exec (.mma d a b f inc sp init) s = .next t ∧ t.act? s.cur = some y ∧ y.pc = x.pc + 4 ∧ y.w = x.w ∧ y.v = x.v ∧
      y.m = x.m ∧ y.place = x.place ∧
      ((s.tile x.tile).poisonedRows e7.toNat = none → s.upset + x.mxinj.toNat < 2 →
        y.e = (x.e.set 6 e6).set 7 (if inc then e7 + 2 else e7) ∧ y.mxinj = 0) ∧
      ((s.tile x.tile).poisonedRows e7.toNat ≠ none → y = { x with pc := x.pc + 4, mxinj := 0 } ∧ t.upset = s.upset) ∧
      ((s.tile x.tile).poisonedRows e7.toNat = none → 2 ≤ s.upset + x.mxinj.toNat →
        y = { x with pc := x.pc + 4, mxinj := 0 })

/-- R283, R284, R300: tsld reads two rows; tsst writes two and tsfill 2 × wb of them, clearing their poison; the checks of
e7. Rows not named are as before. -/
def Obligations.TileStoreResults : Prop :=
  ∀ s x, Issuing s x → x.fw = false → x.stg = false → ∀ (d a b : BitVec 5) (v : Vec) (s1 : State),
    let r := (x.ereg 7).toNat
    let store := s.tile x.tile
    (∀ p ∈ [(Instr.tsld d, 2), (.tsst a, 2), (.tsfill a b, 2 * (x.wreg b).toNat)], d.toNat < 16 → a.toNat < 16 →
      (2 ^ 16 ≤ r → exec p.1 s = .next (s.takeTrap s.cur (trapOf cBOUNDS (x.ereg 7)))) ∧
      (r < 2 ^ 16 → 65536 < r + p.2 → exec p.1 s = .next (s.takeTrap s.cur (trapOf cBOUNDS 65536)))) ∧
    (VectorReady s x [] [d] → r + 2 ≤ 65536 → store.poisonedRows r = none →
      exec (.tsld d) s = .next ((s.writeField d (store.row (r + 1) ++ store.row r : BitVec 2048)).advance 4)) ∧
    (∀ p ∈ [(Instr.tsst a, 1), (.tsfill a b, (x.wreg b).toNat)],
      VectorReady s x [a] [] → s.readFields [a] = ([v], s1) → x.replica = false → r < 2 ^ 16 → r + 2 * p.2 ≤ 65536 →
      ∃ t y, exec p.1 s = .next t ∧ t.act? t.cur = some y ∧ y.pc = x.pc + 4 ∧ y.w = x.w ∧ y.v = x.v ∧ y.e = x.e ∧
        (∀ k, r ≤ k → k < r + 2 * p.2 →
          (t.tile x.tile).row k = if (k - r) % 2 = 0 then v.extractLsb' 0 1024 else v.extractLsb' 1024 1024) ∧
        (∀ k, k < r ∨ r + 2 * p.2 ≤ k → (t.tile x.tile).row k = store.row k) ∧
        (∀ w ∈ (t.tile x.tile).tsPoison, w / 64 < r ∨ r + 2 * p.2 ≤ w / 64) ∧
        (t.tile x.tile).lm = store.lm ∧ (t.tile x.tile).nodes = store.nodes ∧ t.phys = s.phys)

/-- R303, R307, R313, R319: a copy instruction that passes its checks is issued: its engine holds it, with the extension registers
as they stood, and the PC moves on; a copy of no bytes ends at once. On a firmware core it takes ROLE; cpyq to a queue that
the core does not write takes QUEUE; a length that is no multiple of 256 for cpyq, a row count or stride for cpyx take BOUNDS
with e2, and a length above 2^30 for cpyx BOUNDS with e4. -/
def Obligations.CopyIssue : Prop :=
  ∀ s x, Issuing s x → x.replica = false → ∀ q : Fin 8,
    ∀ p ∈ [(Instr.cpy, 0, 0), (.cpyd, 1, 0), (.cpyx, 2, 0), (.cpyts, 3, 0), (.cpyr, 4, 0),
           (.cpyq (BitVec.ofNat 5 (16 + q.val)), 5, q.val)],
    let c := s.newCopy p.2.1 p.2.2
    (x.fw = true → exec p.1 s = .next (s.takeTrap s.cur (trapOf cROLE 0))) ∧
    (x.fw = false → p.2.1 = 5 → queueAllowed x q true = false →
      exec p.1 s = .next (s.takeTrap s.cur (trapOf cQUEUE (BitVec.ofNat 64 q.val)))) ∧
    (x.fw = false → (p.2.1 = 5 → queueAllowed x q true = true) →
      (p.2.1 = 2 → (x.ereg 2).extractLsb' 16 30 ≠ 0 → exec p.1 s = .next (s.takeTrap s.cur (trapOf cBOUNDS (x.ereg 2)))) ∧
      (p.2.1 = 5 → c.xb * c.y % 256 ≠ 0 → exec p.1 s = .next (s.takeTrap s.cur (trapOf cBOUNDS (x.ereg 2)))) ∧
      (p.2.1 = 2 → (x.ereg 2).extractLsb' 16 30 = 0 → x.ereg 3 = 0 → 2 ^ 39 ≤ (x.ereg 4).toNat ∨ 2 ^ 30 < c.count * c.xb →
        exec p.1 s = .next (s.takeTrap s.cur (trapOf cBOUNDS (x.ereg 4)))) ∧
      (checkFields c = .ok () → checkRodref s c = .ok () →
        (c.length ≠ 0 → checkStream s c = .ok () ∧ checkDestinations s c = .ok ()) →
        c.owner = s.cur ∧ c.e0 = x.ereg 0 ∧ c.e1 = x.ereg 1 ∧ c.e2 = x.ereg 2 ∧ c.e3 = x.ereg 3 ∧ c.e4 = x.ereg 4 ∧
        c.nref = x.nref ∧ c.length = c.xb * (if p.2.1 = 2 then c.count else c.y) ∧
        (c.length ≠ 0 →
          let u : State := s.countPerf 7 c.length
          let held : State := { u with copies := tabSet u.copies u.nextId c, nextId := u.nextId + 1 }
          exec p.1 s = .next (held.after x 4)) ∧
        (c.length = 0 → exec p.1 s = .next ((s.endCopy s.nextId { c with posted := true }).done 4))))

/-- R357, R366, R369 to R371: sgadd and sgqry, the items of agerd, pwrrd and rtqry, and pwrw, with their faults; on a firmware
core every form takes ROLE.

R343, R344, R367, R368: ckdecl and srcdecl with regions in order: a release, an identical region, a full table, a total past
128 KiB, an overlap, or a new region with the lowest free id; ckdecl's BOUNDS. -/
def Obligations.ServiceResults : Prop :=
  (∀ s x, Issuing s x → ∀ (d a b : BitVec 5),
     let t := s.tile x.tile
     let i := (x.wreg a).toNat
     let pt := s.ptKey x.tile
     let count := (tabFind (s.pt pt).ageing i).getD 0
     (x.fw = true → ∀ j ∈ [Instr.ckdecl d a b, .srcdecl d a b, .sgadd a, .sgqry d, .agerd d a, .pwrrd d a, .pwrw a b, .rtqry d a],
       exec j s = .next (s.takeTrap s.cur (trapOf cROLE 0))) ∧
     (x.fw = false →
       exec (.sgqry d) s = .next (s.after (x.setW d x.sig) 4) ∧
       exec (.sgadd a) s = .next (s.after (if x.screen then
         { x with sig := (0x06 :: leBytes 8 (x.wreg a).toNat).foldl foldByte x.sig } else x) 4) ∧
       (32 ≤ i → ∀ j ∈ [Instr.agerd d a, .pwrrd d a, .rtqry d a], exec j s = .next (s.takeTrap s.cur (trapOf cBOUNDS (x.wreg a)))) ∧
       (i < 32 → exec (.agerd d a) s = .next (s.after (x.setW d (if i < 23 then count else 0)) 4)) ∧
       (∀ n v, n < 32 → i = n →
         (n, v) ∈ [(0, BitVec.ofInt 64 t.reserve), (1, t.grant.setWidth 64), (2, t.low.setWidth 64), (3, t.high.setWidth 64),
           (4, t.throttle.setWidth 64), (5, t.power0), (6, t.power1), (8, (0 : Word)), (31, 0)] →
         exec (.pwrrd d a) s = .next (s.after (x.setW d v) 4)) ∧
       (i = 7 → exec (.pwrrd d a) s = .next (s.after (x.setW d (if (s.panel (x.dt / 4096)).brake then 1 else 0)) 4)) ∧
       (∀ n v, n < 32 → i = n →
         (n, v) ∈ [(0, (s.mapGenOf x.dt).setWidth 64), (1, BitVec.ofNat 64 (pt % 4096)),
           (2, if (s.tile x.dt).draining then (1 : Word) else 0), (3, (s.tile x.dt).partner.setWidth 64),
           (4, (s.tile x.dt).acked.setWidth 64), (5, BitVec.ofNat 64 (s.tile x.dt).rotations), (6, 0), (31, 0)] →
         exec (.rtqry d a) s = .next (s.after (x.setW d v) 4)) ∧
       (x.replica = false →
         (x.wreg a = 4 → exec (.pwrw a b) s = .next ((s.setTile x.tile { t with throttle := (x.wreg b).setWidth 4 }).after x 4)) ∧
         (x.wreg a ≠ 4 → exec (.pwrw a b) s = .next (s.takeTrap s.cur (trapOf cPERM (x.wreg a))))))) ∧
  (∀ s x, Issuing s x → x.fw = false → x.replica = false → ∀ (d a b : BitVec 5),
     let t := s.tile x.tile
     let wa := x.wreg a
     let wb := x.wreg b
     let code (c : Nat) : Word := BitVec.ofNat 64 (2 ^ 63 + c)
     let answers (v : Word) : Prop := exec (.ckdecl d a b) s = .next (s.after (x.setW d v) 4)
     let meets (r : Region) : Prop := r.isLm = true ∧ r.base < wa.toNat + wb.toNat ∧ wa.toNat < r.base + r.len
     (wb = 0 → ∀ hit, hit = (fun r : Region => r.gid == x.gid && r.isLm && r.base == wa.toNat) →
       exec (.ckdecl d a b) s = .next ((s.setTile x.tile { t with
         mirrored := t.mirrored.filter (fun r => !hit r)
         dirty := true }).after
         (x.setW d (if t.mirrored.any hit then 0 else code 5)) 4)) ∧
     (wb ≠ 0 → wa.toNat % 64 ≠ 0 → exec (.ckdecl d a b) s = .next (s.takeTrap s.cur (trapOf cBOUNDS wa))) ∧
     (wb ≠ 0 → wa.toNat % 64 = 0 → wb.toNat % 64 ≠ 0 ∨ 0x20000 < wb.toNat →
       exec (.ckdecl d a b) s = .next (s.takeTrap s.cur (trapOf cBOUNDS wb))) ∧
     (wb ≠ 0 → wa.toNat % 64 = 0 → wb.toNat % 64 = 0 → wb.toNat ≤ 0x20000 →
       (wa.toNat < 0xA1000 ∨ 0x200000 < wa.toNat + wb.toNat →
         exec (.ckdecl d a b) s = .next (s.takeTrap s.cur (trapOf cBOUNDS wa))) ∧
       (0xA1000 ≤ wa.toNat → wa.toNat + wb.toNat ≤ 0x200000 →
         (∀ r, t.mirrored.find? (fun r => r.base == wa.toNat && r.len == wb.toNat) = some r → answers (BitVec.ofNat 64 r.id)) ∧
         ((∀ r ∈ t.mirrored, r.base ≠ wa.toNat ∨ r.len ≠ wb.toNat) →
           (16 ≤ t.mirrored.length → answers (code 1)) ∧
           (t.mirrored.length < 16 → 0x20000 < (t.mirrored.map (·.len)).sum + wb.toNat → answers (code 2)) ∧
           (t.mirrored.length < 16 → (t.mirrored.map (·.len)).sum + wb.toNat ≤ 0x20000 →
             ((∃ r ∈ t.mirrored, meets r) → answers (code 3)) ∧
             ((∀ r ∈ t.mirrored, ¬ meets r) → ∀ i < 16, (∀ r ∈ t.mirrored, r.id ≠ i) → (∀ j < i, ∃ r ∈ t.mirrored, r.id = j) →
               exec (.ckdecl d a b) s = .next ((s.setTile x.tile { t with
                 mirrored := t.mirrored ++ [⟨i, x.gid, true, wa.toNat, wb.toNat, 0, x.asid⟩], dirty := true }).after
                 (x.setW d (BitVec.ofNat 64 i)) 4)))))) ∧
     (∀ isLm base len bytes, sourceRegion wa wb = .ok (isLm, base, len, bytes) → len ≠ 0 → wb.toNat + bytes ≤ 2 ^ 56 →
       ∀ u, leasePages false 16385 wb.toNat (wb.toNat + bytes) s = .ok u →
       (∀ r ∈ t.sourced, r.isLm ≠ isLm ∨ r.base ≠ base ∨ r.len ≠ len ∨ r.src ≠ wb.toNat) →
       (∀ c, newRegion t.sourced isLm base len = .inr c → exec (.srcdecl d a b) s = .next (u.after (x.setW d (code c)) 4)) ∧
       (∀ i, newRegion t.sourced isLm base len = .inl i →
         exec (.srcdecl d a b) s = .next ((u.setTile x.tile { u.tile x.tile with
           sourced := t.sourced ++ [⟨i, x.gid, isLm, base, len, wb.toNat, x.asid⟩], dirty := true }).after
           (x.setW d (BitVec.ofNat 64 i)) 4))))

/-- R248, R249, R252, R293, R372, R376, R377: CSR accesses. FPFLAGS, FPCTL, SEED and MXINJ of an activation are read, written, and
changed with the old value returned; an assigned CSR is read by csrr; an unassigned one, and a write to one that is not
writable, takes ILLEGAL, and 0x400 to 0x7FF from a tile core PRIV, a write too, each with the instruction word.

R372: each privileged instruction of major 0x3E on a tile core takes PRIV with its word as fault value and has no other
effect. -/
def Obligations.CsrAndPrivilege : Prop :=
  (∀ s x, Issuing s x → ∀ (d a : BitVec 5) (c : BitVec 12),
     let word (d a : BitVec 5) (op : BitVec 2) : Word := (0xFD#8 ++ d ++ a ++ op ++ c : BitVec 32).setWidth 64
     let fault (i : Instr) (code : BitVec 8) (v : Word) : Prop := exec i s = .next (s.takeTrap s.cur (trapOf code v))
     (x.fw = false → 1 ≤ c.toNat → c.toNat ≤ 4 →
       let old := contextRead x c
       exec (.csrr d c) s = .next (s.after (x.setW d old) 4) ∧
       exec (.csrw a c) s = .next (s.after (contextCsr x c (x.wreg a)) 4) ∧
       exec (.csrs d a c) s = .next (s.after ((contextCsr x c (old ||| x.wreg a)).setW d old) 4) ∧
       exec (.csrc d a c) s = .next (s.after ((contextCsr x c (old &&& ~~~x.wreg a)).setW d old) 4)) ∧
     (csrAllowed s x c false → exec (.csrr d c) s = .next (s.after (x.setW d (s.csrRead c)) 4)) ∧
     (csrAllowed s x c true → x.fw = true →
       exec (.csrw a c) s = .next ((s.csrWrite c (x.wreg a)).done 4) ∧
       exec (.csrs d a c) s = .next (((s.csrWrite c (s.csrRead c ||| x.wreg a)).setW d (s.csrRead c)).done 4) ∧
       exec (.csrc d a c) s = .next (((s.csrWrite c (s.csrRead c &&& ~~~x.wreg a)).setW d (s.csrRead c)).done 4)) ∧
     (WellFormed.csrAssigned c = false → fault (.csrr d c) cILLEGAL (word d 0 0)) ∧
     (WellFormed.csrAssigned c = true → 0x400 ≤ c.toNat → c.toNat < 0x800 → x.fw = false → fault (.csrr d c) cPRIV (word d 0 0)) ∧
     (WellFormed.csrAssigned c = true → 0x400 ≤ c.toNat → c.toNat < 0x800 → x.fw = false →
       fault (.csrw a c) cPRIV (word 0 a 1) ∧ fault (.csrs d a c) cPRIV (word d a 2) ∧ fault (.csrc d a c) cPRIV (word d a 3)) ∧
     (WellFormed.csrWritable c = false → WellFormed.csrAssigned c = true →
       (0x400 ≤ c.toNat → c.toNat < 0x800 → x.fw = true) →
       fault (.csrw a c) cILLEGAL (word 0 a 1) ∧ fault (.csrs d a c) cILLEGAL (word d a 2) ∧
       fault (.csrc d a c) cILLEGAL (word d a 3))) ∧
  (∀ s x, Issuing s x → x.fw = false → ∀ (d a b : BitVec 5),
     let word (d a b : BitVec 5) (fn : BitVec 9) : Word := (0xFE#8 ++ d ++ a ++ b ++ fn : BitVec 32).setWidth 64
     ∀ p ∈ [(Instr.tresume d a b, word d a b 0), (.tabort d a b, word d a b 1), (.tlbfill d a b, word d a b 2),
            (.tlbinv a b, word 0 a b 3), (.wssw a, word 0 a 0 4), (.halt a b, word 0 a b 7), (.idle, word 0 0 0 8),
            (.bmmask a b, word 0 a b 9)],
       exec p.1 s = .next (s.takeTrap s.cur (trapOf cPRIV p.2)))

/-- R384, R387, R388: on a firmware core tresume and tabort leave as requests to their handle's home, tlbfill installs the entry
its image describes and answers as a response, and a copy of its die that waits for that page may ask again (R322); a refused
image answers 2^63 | 1; its offset is checked for ALIGN and BOUNDS.

R389: tlbinv with a legal scope drops from every cache within reach exactly the entries that match, and completes; a reserved
bit or REACH 3 takes BOUNDS with wb. (log 19: without ALLAS a global entry does not match.) -/
def Obligations.TranslationControl : Prop :=
  (∀ s x, Issuing s x → x.fw = true → ∀ (d a b : BitVec 5),
     let off := x.wreg a
     let image (i : Nat) : Nat := s.localRead (off.toNat + 8 * i) 8
     let e := tlbImage (image 0) (image 1) (image 2) (image 3)
     let answered (f : Tlb) : List (Nat × Copy) := s.copies.map (fun c =>
       if s.dieOf c.2.dt = s.fwDie ∧ (c.2.asked.map (f.covers c.2.asid)).getD false = true then (c.1, { c.2 with asked := none })
       else c)
     exec (.tresume d a b) s = .next ((s.request (.tresume d (x.wreg a) (x.wreg b)) 1 [] .none).after x 4) ∧
     exec (.tabort d a b) s = .next ((s.request (.tabort d (x.wreg a) (x.wreg b)) 1 [] .none).after x 4) ∧
     (off.toNat % 32 ≠ 0 → exec (.tlbfill d a b) s = .next (s.takeTrap s.cur (trapOf cALIGN off))) ∧
     (off.toNat % 32 = 0 → 2 ^ 20 < off.toNat + 32 → exec (.tlbfill d a b) s = .next (s.takeTrap s.cur (trapOf cBOUNDS off))) ∧
     (off.toNat % 32 = 0 → off.toNat + 32 ≤ 2 ^ 20 →
       (e = none → exec (.tlbfill d a b) s =
         .next ((s.request (.tlbfill d 0x8000000000000001) 1 [] .none).after x 4)) ∧
       (∀ f, e = some f → (x.wreg b = 0 → exec (.tlbfill d a b) s = .next ((State.request { s.setDie s.fwDie { s.die s.fwDie with
           tlb := installTlb (s.die s.fwDie).tlb f 8192 } with copies := answered f } (.tlbfill d 0) 1 [] .none).after x 4)) ∧
         exec (.tlbfill d a b) s =
           .next (((s.fillTlb f (x.wreg b)).1.request (.tlbfill d (s.fillTlb f (x.wreg b)).2) 1 [] .none).after x 4)))) ∧
  (∀ s x, Issuing s x → x.fw = true → ∀ (a b : BitVec 5),
     let v := x.wreg b
     let va := (x.wreg a).toNat
     let reach := (v.extractLsb' 14 2).toNat
     let near (k : Nat) : Prop := if reach = 0 then k = s.fwDie else if reach = 1 then k / 64 = s.fwDie / 64 else True
     (2 ^ 17 ≤ v.toNat ∨ reach = 3 → exec (.tlbinv a b) s = .next (s.takeTrap s.cur (trapOf cBOUNDS v))) ∧
     (v.toNat < 2 ^ 17 → reach ≠ 3 → ∃ t, exec (.tlbinv a b) s = .next t ∧ t.act? s.cur = some { x with pc := x.pc + 4 } ∧
       (∀ k d, tabFind s.dies k = some d → ∀ e, e ∈ (t.die k).tlb ↔ e ∈ d.tlb ∧ ¬ (near k ∧ invalidates e va v)) ∧
       (∀ k u, tabFind s.tiles k = some u →
         (∀ e, e ∈ (t.tile k).comp.tlb ↔ e ∈ u.comp.tlb ∧ ¬ (near (s.dieOf k) ∧ invalidates e va v)) ∧
         (∀ e, e ∈ (t.tile k).stag.tlb ↔ e ∈ u.stag.tlb ∧ ¬ (near (s.dieOf k) ∧ invalidates e va v)) ∧
         (∀ e, e ∈ (t.tile k).dtlb ↔ e ∈ u.dtlb ∧ ¬ (near (s.dieOf k) ∧ invalidates e va v)) ∧
         (near (s.dieOf k) → v.getLsbD 16 = true → (t.tile k).comp.icache = [] ∧ (t.tile k).stag.icache = []))))

/-- R394 to R396: halt with a group of 16 or more takes BOUNDS; with a group below 16 it triggers the group of its panel where
wb[0] = 0 and releases it where wb[0] = 1, whatever the other bits of wb: every member core of the panel is then halted or
issues again, every core that is not a member, the issuing one included, stays as it was. -/
def Obligations.HaltGroups : Prop :=
  ∀ s x, Issuing s x → x.fw = true → ∀ (a b : BitVec 5),
    let g := (x.wreg a).toNat
    let p := s.fwHere / 256
    let stop := !(x.wreg b).getLsbD 0
    let judged (h : HaltField) (old : Bool) : Bool := if h.member = true ∧ h.group.toNat = g then stop else old
    (16 ≤ g → exec (.halt a b) s = .next (s.takeTrap s.cur (trapOf cBOUNDS (x.wreg a)))) ∧
    (g < 16 → ∃ t, exec (.halt a b) s = .next t ∧ t.act? s.cur = some { x with pc := x.pc + 4 } ∧
      (g ∈ (t.panel p).triggered ↔ stop = true) ∧
      (∀ k f, tabFind s.fws k = some f → k / 256 = p → (t.fwCore k).halted = judged f.halt f.halted) ∧
      (∀ k u, tabFind s.tiles k = some u → k / 4096 = p → k < 2 ^ 15 →
        (t.tile k).comp.halted = judged u.comp.halt u.comp.halted ∧
        (t.tile k).stag.halted = judged u.stag.halt u.stag.halted))

/-- R382, R385, R394: svc and brk park their activation with their cause, the header PC at the next instruction, its registers
as they stood; brk triggers the halt group of its core where MEMBER and BRKTRIG are set; on a firmware core svc takes ROLE
and brk stops the core, its group triggered likewise, whatever FLTTRIG.

R391: wssw to a legal area writes the registers of the context to its workspace, with the header PC at the next instruction,
and takes WP and the registers of the area at wa; another area takes BOUNDS. That bit 0 of the PC is dropped is the reading of
log 65.

R392, R393: idle stops the core's issue when no trap record waits; bmmask sets a leaf's excuse, clears a leaf's membership
or assigns a group, and takes BOUNDS for anything else. That only a waiting trap record ends idle at once is the reading of
log 12. -/
def Obligations.FirmwareControl : Prop :=
  (∀ s x, s.act? s.cur = some x → x.halting = false → ∀ a : BitVec 5,
     (x.fw = false → x.replica = false →
       (s.hereTags = [] → parksWith (exec (.svc a) s) s x cSVC (x.wreg a) (x.pc + 4)) ∧
       parksWith (exec .brk s) s x cBREAK 0 (x.pc + 4) ∧
       (let h := (s.core x.tile x.stg).halt
        ∃ t, exec .brk s = .next t ∧ (h.member = true → h.brk = true →
          h.group.toNat ∈ (t.panel (x.dt / 4096)).triggered) ∧
          (h.member = false ∨ h.brk = false → (t.panel (x.dt / 4096)).triggered = (s.panel (x.dt / 4096)).triggered))) ∧
     (x.fw = true → exec (.svc a) s = .next (s.takeTrap s.cur (trapOf cROLE 0)) ∧
       (let h := (s.fwCore s.fwHere).halt
        let q := s.fwHere / 256
        ∃ t y, exec .brk s = .next t ∧ t.act? s.cur = some y ∧ y.place = .stopped ∧ y.cause.code = cBREAK ∧
         (t.fwCore s.fwHere).stopped = true ∧
         (h.member = true → h.brk = true → h.group.toNat ∈ (t.panel q).triggered) ∧
         (h.member = false ∨ h.brk = false → (t.panel q).triggered = (s.panel q).triggered)))) ∧
  (∀ s x, Issuing s x → x.fw = true → s.memoryWf = true → ∀ a : BitVec 5,
     let wp := (x.wreg a).toNat
     let base := fwBase s.fwHere
     (wp % 512 ≠ 0 ∨ 2 ^ 20 < wp + 0x1200 → exec (.wssw a) s = .next (s.takeTrap s.cur (trapOf cBOUNDS (x.wreg a)))) ∧
     (wp % 512 = 0 → wp + 0x1200 ≤ 2 ^ 20 → x.wp + 0x1200 ≤ 2 ^ 20 → ∃ t y, exec (.wssw a) s = .next t ∧
       t.act? s.cur = some y ∧ y.wp = wp ∧
       (let saved : Act := { x with pc := x.pc + 4 }
        ∀ o < 0x1200, memRead t.phys (base + x.wp + o) = saved.wsByte [] o) ∧
       (∀ p, p < base + x.wp ∨ base + x.wp + 0x1200 ≤ p → memRead t.phys p = memRead s.phys p) ∧
       (∀ i < 0x240, i ≠ 0x230 → i ≠ 0x231 → i ≠ 0x232 → i ≠ 0x234 →
         y.wsWord [] i = BitVec.ofNat 64 (leNat ((List.range 8).map (fun j => memRead t.phys (base + wp + 8 * i + j))))) ∧
       y.pc = BitVec.ofNat 64 (leNat ((List.range 8).map (fun j => memRead t.phys (base + wp + 0x1180 + j)))) &&& ~~~(1 : Word))) ∧
  (∀ s x, Issuing s x → x.fw = true → ∀ (a b : BitVec 5),
     let f := s.fwCore s.fwHere
     let wa := x.wreg a
     let wb := x.wreg b
     let p := s.fwHere / 256
     let g := (wa.extractLsb' 0 4).toNat
     let vt := (wa.extractLsb' 16 12).toNat
     let op := (wa.extractLsb' 30 2).toNat
     let dt := p * 4096 + vt
     let l := (s.tile dt).leaf g
     let plain : Prop := wa &&& 0xFFFFFFFF3000FFF0 = 0
     (f.put = f.get → exec .idle s = .next ((s.setFw s.fwHere { f with idle := true }).after x 4)) ∧
     (f.put ≠ f.get → exec .idle s = .next (s.after x 4)) ∧
     (¬ plain ∨ op = 3 ∨ (op = 2 ∧ vt ≠ 0) ∨ (op < 2 ∧ (s.panel p).vts ≤ vt) →
       exec (.bmmask a b) s = .next (s.takeTrap s.cur (trapOf cBOUNDS wa))) ∧
     (plain → op = 2 → vt = 0 → exec (.bmmask a b) s = .next ((s.setGroup p g { s.group p g with
       asid := if wb.getLsbD 12 then some (wb.setWidth 12) else none }).after x 4)) ∧
     (plain → op = 0 → vt < (s.panel p).vts →
       exec (.bmmask a b) s = .next (((s.setLeaf dt g { l with exc := wb.getLsbD 0 }).checkPhase p g).done 4)) ∧
     (plain → op = 1 → vt < (s.panel p).vts → exec (.bmmask a b) s =
       .next ((((s.setGroup p g { s.group p g with raised := (s.group p g).raised.filter (· != dt) }).setLeaf dt g
         { l with member := false, arr := 0, up := false }).checkPhase p g).done 4)))

end

namespace Sys2Proof.Stated

open Sys2Proof.Machine

/-! ### The device events -/

/-- R99, R104, R219, R223: node i of a VT has started in slot n of a core, with its area at wp, for graph g (log 65: bit 0 of
an ENTRY is dropped). -/
def started (s t : State) (dt i : Nat) (stg : Bool) (n : BitVec 2) (wp : Nat) (g : Graph) : Prop :=
  let k := dt * 4096 + i
  (t.node dt i).state = stRunning ∧ (t.core dt stg).slots[n.toNat]'(n.isLt) = some k ∧
  ∃ y, t.act? k = some y ∧ y.place = .slot n ∧ y.pc = (s.node dt i).entry.setWidth 64 &&& ~~~(1 : Word) ∧ y.wp = wp ∧
    y.w = Vector.replicate 32 0 ∧ y.v = Vector.replicate 16 0 ∧ y.m = Vector.replicate 8 0 ∧ y.e = Vector.replicate 8 0 ∧
    y.asid = g.asid ∧ y.key = g.key ∧ y.nref = nodeRef dt i (s.node dt i) ∧ y.status.urg = (s.node dt i).urg ∧
    y.budget = 2 ^ (10 + (s.node dt i).budget.toNat) ∧ y.used = 0

/-- R224, R225, R342: the items of the activation of a key are part of the next epoch of its VT, `held` beads split over
them; its node holds none. Every entry in order has a retained token with its share and the item recorded for it. -/
def committed (s t : State) (key : Nat) (a : Act) (held : Nat) : Prop :=
  let n := s.node a.dt a.index
  let shares := (splitBeads held n.nsucc.toNat).2.2
  (∃ y, t.act? key = some y ∧ y.commit = .epoch (s.tile a.dt).epochNext) ∧ (t.node a.dt a.index).beads = 0 ∧
  ∀ e < n.nsucc.toNat,
    let entry := s.succEntry a.dt n e
    entry.getLsbD 63 = false → s.names (a.dt / 4096) (entry.extractLsb' 12 15).toNat = true →
    ∃ r ∈ (t.tile a.dt).retained, r.issuer = some key ∧ r.body = .token (BitVec.ofNat 64 (entry.toNat % 2 ^ 59))
      (shares.getD e 0) ((tabFind a.items e).getD .plain) (entry.getLsbD 62) 1 (nodeRef a.dt a.index n)

/-- The n-th message in flight may arrive at its tile, and has this body. -/
def arrives (s : State) (n : Nat) (m : Msg) (b : Body) : Prop :=
  (s.takeMsg n).map (·.1) = some m ∧ m.body = b ∧ s.deliverable m = true

/-- R346: VT vt of a panel is lost with the PT that served it. -/
def vtLost (t : State) (p pt vt : Nat) : Prop :=
  (t.tile (p * 4096 + vt)).lost = true ∧ (t.pt (p * 4096 + pt)).role = .retired ∧
  (t.pt (p * 4096 + pt)).lostVt = some vt ∧
  ∀ j b, t.act? j = some b → b.fw = false → b.replica = false → b.dt ≠ p * 4096 + vt

/-- R215: a node of a graph runs, is parked, commits or is FAULTED. -/
def atWork (s : State) (gid : Nat) (g : Graph) : Prop :=
  ∃ e ∈ g.slots, (s.node e.1 e.2).gid.toNat = gid ∧
    ((s.node e.1 e.2).state = stRunning ∨ (s.node e.1 e.2).state = stParked ∨ (s.node e.1 e.2).state = stCommitting ∨
      (s.node e.1 e.2).state = stFaulted)

/-- R421, R422: a waiting queue can be mapped: its mapper has a slot free, and it is enabled with pending records. -/
def canMap (s : State) (p q : Nat) : Prop :=
  let y := s.queue p q
  ((s.panel p).active.filter (fun r => r % 4 == q % 4)).length < 32 ∧ y.enable = true ∧ y.qstat = 2 ∧ y.sqhead ≠ y.sqtail

/-- R342: the epoch of a number is another or comes before it; numbers count on modulo 2^32 (log 91). -/
def inEpoch (e x : BitVec 32) : Prop := (x - e).toNat < 2 ^ 31

/-- R167: a core's L1 shows no store outstanding to n bytes at a home. -/
def unshown (s : State) (core : Nat × Bool) (h : Home) (n : Nat) : Prop :=
  ∀ q ∈ s.reqs, q.core = some core → ∀ e ∈ q.elems, e.k ∈ q.shown → e.home.overlaps q.op.size h n = false

end Sys2Proof.Stated

section
open Sys2Proof Sys2Proof.Machine Sys2Proof.Stated

/-- R420 to R423: a host write to SQTAIL sets it and QSTAT: 0x80 for a queue not enabled or a panel in service-only mode, 0x81
for more records than the ring holds, 1 for a queue in an active slot, 2 for one that now waits for a slot, 0 for one with
nothing left, which gives up its slot or its place. A queue mapper maps the earliest waiting queue that is enabled with
records pending while fewer than 32 of its own are active (that it is that of queue number mod 4 is log 83), so not one that a
later notify found disabled or overrun. A write to CQHEAD sets it, and a held completion record is written once the ring has
room.

R203, R206, R211, R421: a LAUNCH record whose checks pass installs its graph: SQHEAD moves on, the graph is live with the
queue's address-space id and the record's tag, and its nodes are bound, the roots READY and the others ARMED. HALT, RESUME and
CANCEL change the live graph that they name; CANCEL cancels its nodes that have not started. -/
def Obligations.QueuesAndGraphs : Prop :=
  (∀ (s : State) (p q : Nat), q < 1024 → (s.panel p).state ≠ .off →
     (∀ v : BitVec 32,
       let x := s.queue p q
       let y := s.panel p
       let stat (t : State) (code : BitVec 8) : Prop := t.queue p q = { x with sqtail := v, qstat := code }
       ∃ t, exec (.sqtailNotify p q v) s = .next t ∧ (∀ j, j ≠ q → t.queue p j = s.queue p j) ∧
         (y.state = .serviceOnly → t.queue p q = { x with qstat := 0x80 }) ∧
         (y.state ≠ .serviceOnly →
           (x.enable = false → stat t 0x80) ∧
           (x.enable = true → ringSize x.sqlog2 < (v - x.sqhead).toNat → stat t 0x81) ∧
           (x.enable = true → (v - x.sqhead).toNat ≤ ringSize x.sqlog2 →
             (q ∈ y.active → v ≠ x.sqhead ∨ x.held ≠ [] → stat t 1) ∧
             (q ∈ y.active → v = x.sqhead → x.held = [] → stat t 0 ∧ q ∉ (t.panel p).active) ∧
             (q ∉ y.active → v = x.sqhead → stat t 0 ∧ q ∉ (t.panel p).waitingQ) ∧
             (q ∉ y.active → v ≠ x.sqhead → stat t 2 ∧ q ∈ (t.panel p).waitingQ)))) ∧
     (∀ before after, (s.panel p).waitingQ = before ++ q :: after → q ∉ before → q ∉ after → (∀ r ∈ before, ¬ canMap s p r) →
       canMap s p q → ∃ t, exec (.queueSlotMap p) s = .next t ∧ (t.panel p).waitingQ = before ++ after ∧
         (t.panel p).active = (s.panel p).active ++ [q] ∧ t.queue p q = { s.queue p q with qstat := 1 }) ∧
     ((∀ r ∈ (s.panel p).waitingQ, ¬ canMap s p r) → exec (.queueSlotMap p) s = .next s) ∧
     ((s.panel p).state ≠ .serviceOnly → ∀ v : BitVec 32,
       let x := { s.queue p q with cqhead := v }
       ∃ t, exec (.cqhead p q v) s = .next t ∧ (t.queue p q).cqhead = v ∧
         (x.room = false → (t.queue p q).held = x.held ∧ (t.queue p q).cqtail = x.cqtail) ∧
         (∀ ws, x.held = [ws] → x.room = true → (t.queue p q).held = [] ∧ (t.queue p q).cqtail = x.cqtail + 1))) ∧
  (∀ (s : State) (p q : Nat), s.nextQueue p = some q →
     let l := s.nextRecord p q
     let asid := (s.queue p q).asid
     (∀ gid grec im u, l.getD 0 0 % 16 = 0 →
       (s.takeRecord p q).launchTarget p asid l = some grec → (s.takeRecord p q).freeGid = some gid →
       (s.takeRecord p q).readImage p (s.queue p q).owner (l.getD 1 0) = some im → im.tablesOk = true → im.nodesOk im.expand = true →
       (s.takeRecord p q).install p q gid grec l im = .ok u →
       let base := l.getD 0 0 / 2 ^ 8 % 2 ^ 15
       exec (.launchRecord p) s = .next (u.freeSlots p) ∧ (u.queue p q).sqhead = (s.queue p q).sqhead + 1 ∧
       (∃ g, tabFind u.graphs gid = some g ∧ g.asid = asid ∧ g.tag = BitVec.ofNat 64 (l.getD 6 0) ∧ g.grec = grec ∧
         g.halted = false ∧ g.cancelled = false ∧ g.slots = im.expand.map (fun c => (base + c.home, c.slot))) ∧
       (∀ c ∈ im.expand, (u.node (base + c.home) c.slot).gid = BitVec.ofNat 16 gid ∧
         (u.node (base + c.home) c.slot).state = if (u.node (base + c.home) c.slot).count = 0 then stReady else stArmed)) ∧
     (∀ g, let gid := l.getD 7 0
       recordBad l = false → tabFind s.graphs gid = some g → g.asid = asid →
       (l.getD 0 0 % 16 = 1 → ∃ t, exec (.haltRecord p) s = .next t ∧
         tabFind t.graphs gid = some { g with halted := true } ∧ (t.queue p q).sqhead = (s.queue p q).sqhead + 1) ∧
       (l.getD 0 0 % 16 = 2 → ∃ t, exec (.resumeRecord p) s = .next t ∧
         tabFind t.graphs gid = some { g with halted := false } ∧ (t.queue p q).sqhead = (s.queue p q).sqhead + 1) ∧
       (l.getD 0 0 % 16 = 3 → ∃ t, exec (.cancelRecord p) s = .next t ∧
         tabFind t.graphs gid = some { g with cancelled := true } ∧ (t.queue p q).sqhead = (s.queue p q).sqhead + 1 ∧
         ∀ e ∈ g.slots, (s.node e.1 e.2).gid.toNat = gid →
           (s.node e.1 e.2).state = stEmpty ∨ (s.node e.1 e.2).state = stArmed ∨ (s.node e.1 e.2).state = stReady →
           (t.node e.1 e.2).state = stCancelled)))

/-- R79, R80, R99, R219, R220, R223: a start. The normal node that the core chooses starts in its lowest free slot; an urgent
one starts in a free slot or in that of a normal activation, which it displaces with its registers kept; an urgent activation
that gave its slot back returns before a new one starts. -/
def Obligations.Starts : Prop :=
  ∀ (s : State) (dt : Nat) (stg : Bool), dt < 2 ^ 15 → s.starting dt stg = true →
    (∀ lists g i gr wp n, i < 4096 → (s.core dt stg).displaced = [] → (s.core dt stg).resumed = [] →
      s.urgentStart dt stg = none → (s.core dt stg).freeSlot = some n →
      s.chooseNormal dt stg = some (lists, g, i, gr, wp) →
      ∃ t, exec (.nodeStart dt stg) s = .next t ∧ started s t dt i stg n wp gr) ∧
    (s.windowOpen dt stg = false →
      (∀ k n, s.urgentWaiting dt stg = some k → (s.core dt stg).freeSlot = some n →
        ∃ t y, exec (.urgentStart dt stg) s = .next t ∧ t.act? k = some y ∧ y.place = .slot n ∧ y.pc = (s.act k).pc ∧
          (t.core dt stg).slots[n.toNat]'(n.isLt) = some k) ∧
      (∀ i g wp, i < 4096 → s.urgentWaiting dt stg = none → s.urgentNode dt stg = some (i, g, wp) →
        (∀ n, (s.core dt stg).freeSlot = some n →
          ∃ t, exec (.urgentStart dt stg) s = .next t ∧ started s t dt i stg n wp g) ∧
        (∀ n v x, (s.core dt stg).freeSlot = none → s.victim dt stg = some (n, v) → s.act? v = some x → v ≠ dt * 4096 + i →
          ∃ t y, exec (.urgentStart dt stg) s = .next t ∧ started s t dt i stg n wp g ∧ t.act? v = some y ∧
            y.place = .displaced ∧ y.dispBy = some (dt * 4096 + i) ∧ y.pc = x.pc ∧ y.w = x.w)))

/-- R216, R217, R226, R350: a plain token that reaches its bound node while that is ARMED lowers LIVE and adds its beads, and
fires the node exactly when LIVE is 0 or less; a cancel token that names no barrier cancels an EMPTY or ARMED node; a token for
a slot bound otherwise, or for a cancelled node, changes no node record. A restore item counts for nothing but what its
consumer awaits.

R207, R208, R226, R326: returned beads raise G1 of their graph's record, which lies in HBM or host memory; the return that
brings all back waits while a node of the graph is RUNNING, PARKED, COMMITTING or FAULTED (R215; log 89) and then completes
the graph: it is no longer live and its slots are EMPTY and unbound. A FAULTED node with no copy of its attempt left returns
to READY with ATTEMPT raised and goes on its ready lists, or, with no retry, becomes the cancelled root of its fault. R67: an
activation that reached its budget takes BUDGET with the PC of the next instruction that would have issued; while its core is
halted it stays as it is (R396). -/
def Obligations.TokensAndCompletion : Prop :=
  (∀ (s : State) (n : Nat) (m : Msg),
     (∀ ref beads item barrier origin sender, arrives s n m (.token ref beads item barrier origin sender) →
       let dt := (refSlot ref).1
       let i := (refSlot ref).2
       let x := s.node dt i
       ∃ t, exec (.token n) s = .next t ∧
         (refMatches ref x = true → x.state = stArmed → item = .plain → -65536 ≤ x.live - 1 → x.beads + beads < 2 ^ 33 →
           t.node dt i = { x with
             live := x.live - 1
             beads := x.beads + beads
             state := if x.live - 1 ≤ 0 then stReady else stArmed } ∧
           t.msgs = s.msgs.eraseIdx n) ∧
         (refMatches ref x = true → x.state = stEmpty ∨ x.state = stArmed → item = .cancel → barrier = false →
           (t.node dt i).state = stCancelled ∧ (t.node dt i).beads = 0) ∧
         (refMatches ref x = false ∨ x.state = stCancelled → t.node dt i = x)) ∧
     (∀ ref item, arrives s n m (.restoreItem ref item) →
       let dt := (refSlot ref).1
       let i := (refSlot ref).2
       ∃ t, exec (.restoreItem n) s = .next t ∧ t.node dt i = s.node dt i ∧
         (t.tile dt).awaited = (s.tile dt).awaited.erase (i, m.src))) ∧
  (∀ s : State, s.memoryWf = true →
     (∀ n m gid b g, (s.takeMsg n).map (·.1) = some m → m.body = .beadReturn gid b → s.crossed (.msg m.id) = true →
       tabFind s.graphs gid = some g → g.grec + 16 ≤ 2 ^ 48 ∨ 2 ^ 51 ≤ g.grec →
       let x := (s.grec g 1 + b) % 2 ^ 64
       (x = s.grec g 0 → atWork s gid g → exec (.beadReturn n) s = .next s) ∧
       (x ≠ s.grec g 0 ∨ ¬ atWork s gid g → ∃ t, exec (.beadReturn n) s = .next t ∧
         (x ≠ s.grec g 0 → t.grec g 1 = x ∧ tabFind t.graphs gid = some g) ∧
         (x = s.grec g 0 → tabFind t.graphs gid = none ∧
           ∀ e ∈ g.slots, (t.node e.1 e.2).state = stEmpty ∧ (t.node e.1 e.2).gid = 0))) ∧
     (∀ dt i, i < 4096 →
       let x := s.node dt i
       x.state = stFaulted → s.homeOpen (.lm dt 0) = true →
       (∀ c ∈ s.copies, c.2.owner = dt * 4096 + i → c.2.nref ≠ nodeRef dt i x) →
       (∀ cause value pc, tabFind (s.tile dt).fates i = some (cause, value, pc) → exec (.nodeRetry (dt * 4096 + i)) s =
         .next ((s.setTile dt { s.tile dt with fates := (s.tile dt).fates.filter (fun f => f.1 != i) }).cancelRoot dt i
           cause value pc)) ∧
       (tabFind (s.tile dt).fates i = none →
       (∀ g, tabFind s.graphs x.gid.toNat = some g → g.cancelled = false) →
       let listed (c : Core) : Prop := if x.urg then i ∈ c.urgent else ∃ l ∈ c.ready, l.gid = x.gid.toNat ∧ i ∈ l.nodes
       ∃ t, exec (.nodeRetry (dt * 4096 + i)) s = .next t ∧
         t.node dt i = { x with state := stReady, attempt := x.attempt + 1 } ∧
         (x.role = 0 ∨ x.role = 2 → listed (t.core dt false)) ∧ (x.role = 1 ∨ x.role = 2 → listed (t.core dt true)))) ∧
     (∀ key a, s.act? key = some a → a.fw = false → a.budget ≤ a.used →
       (∃ n, a.place = .slot n) ∨ a.place = .blockedUrgent ∨ a.place = .resumed →
       let unissued : Prop := a.wait = .none ∨ (∃ needs, a.wait = .queue needs) ∨ ∃ g, a.wait = .beamArrive g
       let halted := (s.core a.tile a.stg).halted
       (halted = true → exec (.budgetExpiry key) s = .next s) ∧
       (halted = false → unissued → exec (.budgetExpiry key) s = .next ((s.setAct key a).takeTrap key (trapOf cBUDGET 0))) ∧
       (halted = false → ¬ unissued → exec (.budgetExpiry key) s =
         .next ((s.setAct key { a with pc := a.pc + 4 }).takeTrap key (trapOf cBUDGET 0)))))

/-- R224, R225, R340 to R342: the commit of an ended activation whose release has been performed borrows when it holds fewer
beads than items, and otherwise puts its items into the next epoch; a borrow adds 2^32 beads and goes on; an epoch is sent
when none is in flight, applied by the partner, and acknowledged, which lets the tokens of the commits that it holds leave;
then the deferred adds of a commit are performed one after another (R170, R177), and its node is DONE; a durability
acknowledgement frees a retention record, of a tile or of a firmware core's remote rod add (R188). Epoch numbers count on
modulo 2^32 (log 91). -/
def Obligations.CommitsAndEpochs : Prop :=
  ∀ s : State,
    (∀ key a, s.act? key = some a → (∀ g, tabFind s.graphs a.gid = some g → g.cancelled = false) → s.refired a = false →
      let n := s.node a.dt a.index
      (a.place = .committing → a.commit = .release → a.replica = false → a.twin = none → s.pendingWork key = false →
        s.homeOpen (.lm a.dt 0) = true →
        (n.nsucc.toNat ≠ 0 → n.beads < n.nsucc.toNat → exec (.commit key) s = .next (s.setAct key { a with commit := .borrow })) ∧
        (n.nsucc.toNat ≤ n.beads ∨ n.nsucc = 0 →
          ∃ t, exec (.commit key) s = .next t ∧ committed s t key a n.beads)) ∧
      (a.commit = .borrow → Config.generalBase ≤ n.succ.toNat →
        ∃ t, exec (.borrow key) s = .next t ∧ committed s t key a (n.beads + 2 ^ 32))) ∧
    (∀ dt,
      let x := s.tile dt
      (x.dirty = true → (s.ptOf dt).isSome = true → x.inFlight = none → x.lost = false → exec (.epochTimer dt) s =
        .next (s.setTile dt { x with inFlight := some (s.snapshot dt), epochNext := x.epochNext + 1, dirty := false })) ∧
      (∀ e, x.inFlight = some e → x.applied ≠ e.no → s.homeOpen (.lm (s.partnerOf dt) 0) = true →
        exec (.epochApply dt) s = .next (s.setTile dt { x with mirror := some e, applied := e.no })) ∧
      (∀ e, x.inFlight = some e → x.applied = e.no → x.lost = false → s.homeOpen (.lm dt 0) = true →
        (s.acts.map (·.1)).Pairwise (· < ·) → (x.retained.map (·.id)).Nodup →
        ∃ t, exec (.epochAck dt) s = .next t ∧ (t.tile dt).acked = e.no ∧ (t.tile dt).inFlight = none ∧
          ∀ k b no, s.act? k = some b → b.dt = dt → b.fw = false → b.replica = false → b.commit = .epoch no →
            inEpoch no e.no → t.act? k = some { b with commit := .sent } ∧
            ∀ r ∈ x.retained, r.issuer = some k → r.isToken = true → r.sent = false →
              ∃ m ∈ t.msgs, m.src = dt ∧ m.dst = r.dst ∧ m.body = r.body ∧ m.keep = some r.id)) ∧
    (∀ key a, s.act? key = some a → a.place = .committing → a.commit = .sent → a.replica = false →
      s.homeOpen (.lm a.dt 0) = true →
      (a.adds = [] → ∃ t, exec (.commit key) s = .next t ∧ t.act? key = none ∧ (t.node a.dt a.index).state = stDone) ∧
      (∀ d rest, a.adds = d :: rest → s.homeOpen d.home = true → s.crossed (.add key (rest.length + 1)) = true →
        unshown s (a.tile, a.stg) d.home (if d.wide then 8 else 4) →
        exec (.commit key) s = .next ((s.performAdd key d).updAct key (fun y => { y with adds := rest })))) ∧
    (∀ id r e, r.epoch = some e → inEpoch e (s.tile r.dst).applied →
      (∀ dt, dt < Config.fwKey → (∀ y ∈ s.tiles, y.1 ≠ dt → ∀ z ∈ y.2.retained, z.id ≠ id) →
        (s.tile dt).retained.find? (fun z => z.id == id) = some r → s.keepsPayload dt r = none →
        exec (.durableAck id) s = .next (s.setTile dt { s.tile dt with
          retained := (s.tile dt).retained.filter (fun z => z.id != id), dirty := true })) ∧
      (∀ fw, (∀ y ∈ s.tiles, ∀ z ∈ y.2.retained, z.id ≠ id) → (∀ y ∈ s.fws, y.1 ≠ fw → ∀ z ∈ y.2.retained, z.id ≠ id) →
        (s.fwCore fw).retained.find? (fun z => z.id == id) = some r → r.isRod = true →
        exec (.durableAck id) s = .next (s.setFw fw { s.fwCore fw with
          retained := (s.fwCore fw).retained.filter (fun z => z.id != id) })))

/-- R131, R141, R234, R384: the n-th outstanding request is performed at its home once it may be, and its response arrives: a
load gives the bytes of its home, a store leaves its value there and no other byte outside a workspace changed, nqry reads the
node, tresume lets the parked activation go on at its PC with its registers, during a drain once that is over (R331), and
answers 0; the late fault of an mma (R292, R299) is taken with the header at the mma.

R188, R236, R380, R392: a trap message that reaches a firmware core with room in its ring is written at PUT, which rises
by 1, into its registers where the ring lies over its workspace (R98); a remote rod add raises its rod alone; a bound counter
that has reached its threshold sends one token to its target and the binding ends; an idle firmware core resumes issue when
its ring holds a record. -/
def Obligations.ResponsesAndMessages : Prop :=
  (∀ (s : State) (n : Nat) (r : Req) (a : Act), s.reqs[n]? = some r → s.mayAnswer n r = true → s.act? r.owner = some a →
     let rest : State := { s with reqs := s.reqs.eraseIdx n, early := s.early ++ s.earlyOf n r }
     (∀ d size k dt off addr v key, r.op = .load d size → r.elems = [⟨k, .lm dt off, addr, v, key⟩] → r.acq = false →
       off + size ≤ Config.syncBase → (∀ i < size, s.poisoned (.lm dt off) i = false) →
       exec (.accessResponse n) s = .next ((rest.setAct r.owner (a.setW d (BitVec.ofNat 64
         (leNat ((List.range size).map (fun i => s.lmByte dt (off + i))))))).settle r.id)) ∧
     (∀ size k dt off addr v key x, r.op = .store size x → r.elems = [⟨k, .lm dt off, addr, v, key⟩] → a.fw = false →
       s.memoryWf = true → Config.generalBase ≤ off → off + size ≤ Config.syncBase →
       (∀ i < size, s.wsAt dt (off + i) = none ∧ s.leaseTableAt dt (off + i) = false) →
       ∃ t, exec (.accessResponse n) s = .next t ∧ t.reqs = s.reqs.eraseIdx n ∧
         (∀ i < size, t.lmByte dt (off + i) = BitVec.ofNat 8 (v.toNat / 256 ^ i)) ∧
         (∀ o, Config.generalBase ≤ o → s.wsAt dt o = none → o < off ∨ off + size ≤ o → t.lmByte dt o = s.lmByte dt o)) ∧
     (∀ d ref, r.op = .nqry d ref →
       let x := s.node (refSlot ref).1 (refSlot ref).2
       (∀ g, tabFind s.graphs x.gid.toNat = some g → g.asid = a.asid) →
       exec (.accessResponse n) s = .next ((rest.setAct r.owner (a.setW d
         (BitVec.ofInt 32 x.live ++ 0#8 ++ x.attempt ++ 0#6 ++ BitVec.ofBool x.abs ++ BitVec.ofBool (refMatches ref x) ++
           x.state))).settle r.id)) ∧
     (∀ c v bytes rep pos done, r.op = .matrix c v bytes rep pos done → exec (.accessResponse n) s =
       .next (((rest.setAct r.owner { a with
         pc := r.pc, status := { a.status with rep := rep, reppos := pos, repdone := done } }).takeTrap r.owner
         { trapOf c v with bytes := bytes }).settle r.id)) ∧
     (∀ d h k, r.op = .tresume d h 0 → s.parkedBy h = some k → r.owner ≠ k →
       ∃ t y z, exec (.accessResponse n) s = .next t ∧ t.act? k = some y ∧
         (if (s.tile (s.act k).tile).draining = true then y.place = .suspended else y.place = .resumed ∨ ∃ c, y.place = .slot c) ∧
         y.pc = (s.act k).pc ∧ y.w = (s.act k).w ∧ (t.node (s.act k).dt (s.act k).index).state = stRunning ∧
         t.act? r.owner = some z ∧ z.wreg d = 0)) ∧
  (∀ s : State,
     (∀ n m t0 t1 t2 t3, (s.takeMsg n).map (·.1) = some m → m.body = .trap t0 t1 t2 t3 →
       let f := s.fwCore m.dst
       f.halted = false → (f.put - f.get).toNat < f.ringLen →
       let at0 := (f.trapbase.toNat + 32 * (f.put.toNat % f.ringLen)) % Config.fwSize
       let key := Config.fwKey + m.dst
       ∃ t, exec (.trapMessage n) s = .next t ∧ (t.fwCore m.dst).put = f.put + 1 ∧ (t.fwCore m.dst).get = f.get ∧
         ((∀ e ∈ s.tiles, ∀ b ∈ e.2.bindings, ∀ pa len mask v, b.source ≠ .watch pa len mask v) →
           t.msgs = s.msgs.eraseIdx n ∧ t.fwCore m.dst = { f with put := f.put + 1 }) ∧
         (∀ x, s.act? key = some x → at0 + 32 ≤ Config.fwSize →
           (at0 + 32 ≤ x.wp ∨ x.wp + Config.wsSize ≤ at0 → t.act? key = some x ∧ t.phys = memWriteBytes s.phys (fwBase m.dst + at0)
             (leBytes 8 t0.toNat ++ leBytes 8 t1.toNat ++ leBytes 8 t2.toNat ++ leBytes 8 t3.toNat)) ∧
           (∀ i, at0 = x.wp + 8 * i → i + 4 ≤ 32 → fwOf (fwBase m.dst + at0) = some (m.dst, at0) →
             t.phys = s.phys ∧ ∃ y, t.act? key = some y ∧
               ∀ j < 4, y.wreg (BitVec.ofNat 5 (i + j)) = [t0, t1, t2, t3].getD j 0))) ∧
     (∀ n m k x, arrives s n m (.rodAdd k x) →
       (∀ e ∈ s.early, e.issuer = m.src → e.home ≠ .lm m.dst (Config.syncBase + 8 * k)) →
       ∃ t, exec (.remoteRodAdd n) s = .next t ∧
         (t.tile m.dst).rod k = raised ((s.tile m.dst).rod k) (x.setWidth 64) ∧
         (∀ j, j ≠ k → (t.tile m.dst).rod j = (s.tile m.dst).rod j) ∧ (∀ dt, (t.tile dt).lm = (s.tile dt).lm) ∧
         t.msgs = s.msgs.eraseIdx n) ∧
     (∀ dt b x v thr, (s.tile dt).bindings.find? (fun y => y.index == b) = some x →
       (s.tile dt).counter x.source = some (v, thr) → thr.toNat ≤ v.toNat → (s.tile dt).lost = false →
       ∃ t m, exec (.counterEvent dt b) s = .next t ∧ t.msgs = s.msgs ++ [m] ∧ m.dst = (refSlot x.target).1 ∧
         m.body = .token x.target 1 .plain false 0 0 ∧
         (t.tile dt).bindings = (s.tile dt).bindings.filter (fun y => y.index != b)) ∧
     (∀ fw, (s.fwCore fw).idle = true → (s.fwCore fw).put ≠ (s.fwCore fw).get →
       exec (.idleWake fw) s = .next (s.setFw fw { s.fwCore fw with idle := false })))

/-- R304, R307, R310, R319, R320: the steps of a copy. Its post raises the pending count of its rod by the bytes expected; a
segment of a box copy between tile windows sends the rest of its row, as the source holds it; a delivered unit of such a copy
leaves its bytes at the destination and raises COUNT of its rod by their number, from the pending count; cpyq pushes an entry of
256 bytes, and waits while its queue is full or the core that reads the queue is halted (R396); a copy that has delivered all
its bytes durably ends. Units are the model's granules (log 11). -/
def Obligations.CopySteps : Prop :=
  ∀ (s : State) (key : Nat) (c : Copy), tabFind s.copies key = some c →
    (∀ x k, c.posted = false → c.credits = [x] → x.rod = some k → s.routeOpen (s.routeTo c.dt x.dt) = true →
      ∃ t, exec (.copyPost key) s = .next t ∧ tabFind t.copies key = some { c with posted := true } ∧
        (t.tile x.dt).rod k =
          { (s.tile x.dt).rod k with p := ((s.tile x.dt).rod k).p + BitVec.ofNat 64 x.expect }) ∧
    (c.fn = 0 → c.ssp = 1 → c.dsp = 1 → c.fail = none → c.sent < c.length → s.earlierAccess key c = false →
      let left := c.xb - c.sent % c.xb
      let at0 := ((c.e0 + BitVec.ofNat 64 (c.sent / c.xb * c.sstr)).toNat + c.sent % c.xb) % 2 ^ 64
      let home : Home := .lm (at0 / 2 ^ 22) (at0 % 2 ^ 22)
      s.homeOpen home = true →
      ∃ t d us, exec (.copySegment key) s = .next t ∧ tabFind t.copies key = some d ∧ d.sent = c.sent + left ∧
        d.flight = c.flight ++ us ∧
        (us.map (·.bytes)).flatten = (List.range left).map (fun i => (s.homeByte 0 home i, s.poisoned home i))) ∧
    (∀ n u dt off x k, c.fn = 0 → c.posted = true → c.flight[n]? = some u → c.inOrder u = true → u.home = .lm dt off →
      s.crossed (.seg key u.tgt u.pos) = true → unshown s (c.dt, c.stg) u.home u.bytes.length →
      (∀ r, u.route = some r → s.routeOpen r = true) →
      u.data = true → u.credit = true → u.tgt = 0 → c.credits = [x] → x.rod = some k → s.memoryWf = true →
      s.homeOpen (.lm dt 0) = true → s.homeOpen (.lm x.dt 0) = true →
      Config.generalBase ≤ off → off + u.bytes.length ≤ Config.syncBase → (∀ b ∈ u.bytes, b.2 = false) →
      (∀ i < u.bytes.length, s.wsAt dt (off + i) = none ∧ s.leaseTableAt dt (off + i) = false) →
      ∃ t d, exec (.segmentDelivery key n) s = .next t ∧ tabFind t.copies key = some d ∧
        d.flight = c.flight.eraseIdx n ∧ d.credits = [{ x with done := x.done + u.bytes.length }] ∧
        (∀ i (h : i < u.bytes.length), t.lmByte dt (off + i) = (u.bytes[i]).1) ∧
        ((t.tile x.dt).rod k).count = ((s.tile x.dt).rod k).count + BitVec.ofNat 32 u.bytes.length ∧
        ((t.tile x.dt).rod k).p = ((s.tile x.dt).rod k).p - BitVec.ofNat 64 u.bytes.length) ∧
    (∀ u rest, c.fn = 5 → c.posted = true → c.flight = u :: rest → s.homeOpen (.lm c.dt 0) = true →
      let bytes := (c.flight.map (·.bytes)).flatten.take 256
      let q : Fin 8 := Fin.ofNat 8 c.queue
      (∀ v ∈ c.flight, v.pos < u.pos + 256 → s.crossed (.seg key v.tgt v.pos) = true) →
      bytes.length = 256 → (∀ b ∈ bytes, b.2 = false) → (s.tile c.dt).tails[q] = [] →
      ((s.tile c.dt).occupied q < 4 → (s.tile c.dt).readerHalted q = false →
        ∃ t, exec (.copyQueuePush key) s = .next t ∧
          (t.tile c.dt).queues[q] = (s.tile c.dt).queues[q] ++ [BitVec.ofNat 2048 (leNat (bytes.map (·.1)))]) ∧
      (4 ≤ (s.tile c.dt).occupied q ∨ (s.tile c.dt).readerHalted q = true → exec (.copyQueuePush key) s = .next s)) ∧
    (c.posted = true → c.flight = [] → c.length ≤ c.sent → c.fail = none → c.kept = [] →
      (∀ x ∈ c.credits, x.expect ≤ x.done ∧ x.ring = 0 ∧ s.homeOpen (.lm x.dt 0) = true) →
      exec (.copyEnd key) s = .next { s with copies := tabErase s.copies key })

/-- R194, R195: a raise that reaches the panel root, through segments that work (R196), is counted once; it completes the
phase exactly when at least one member has raised UP and every member has or is excused: the group's generation steps and a
release goes to every leaf of the panel. With a member that has neither raised nor an excuse, the generation stays.

R194: a release that reaches a leaf sets its GEN to the group's generation, clears ARR and UP of a member's leaf, leaves
EXC, and ends the waits on an earlier generation. The phase of the group is not complete: the root steps a complete one as
soon as it is (R194).

R196: the death of a router starts the re-combination of its die segment and loses the tile that it served; the
re-combined segment passes raises and releases again, and a phase that was pending may complete. That the tile of a dead
router is lost is the reading of log 36. -/
def Obligations.BeamEvents : Prop :=
  (∀ (s : State) (p g vt : Nat),
     let dt := p * 4096 + vt
     let grp := s.group p g
     vt < 4096 → ((s.tile dt).leaf g).up = true → dt ∉ grp.raised → s.segmentUp dt = true → s.segmentReleased p g dt = true →
     let seen (v : Nat) : Prop := v ∈ grp.raised ∨ v = dt
     let all : Prop := (∃ v ∈ s.members p g, seen v) ∧ ∀ v ∈ s.members p g, seen v ∨ ((s.tile v).leaf g).exc = true
     ∃ t, exec (.beamRaise p g vt) s = .next t ∧
       (all → (t.group p g).gen = grp.gen + 1 ∧ (t.group p g).raised = [] ∧
         (t.group p g).pending = (List.range (s.panel p).vts).map (p * 4096 + ·)) ∧
       (¬ all → t.group p g = { grp with raised := grp.raised ++ [dt] })) ∧
  (∀ (s : State) (p g vt : Nat), (s.acts.map (·.1)).Pairwise (· < ·) →
     let dt := p * 4096 + vt
     let grp := s.group p g
     let l := (s.tile dt).leaf g
     dt ∈ grp.pending → s.segmentUp dt = true → s.phaseDone p g = false →
     (∀ k b, s.act? k = some b → b.dt = dt → b.wait ≠ .beamLeave g) →
     ∃ t, exec (.beamRelease p g vt) s = .next t ∧ dt ∉ (t.group p g).pending ∧ (t.group p g).gen = grp.gen ∧
       (t.tile dt).leaf g = (if l.member then { l with gen := grp.gen, arr := 0, up := false } else { l with gen := grp.gen }) ∧
       (∀ k b old, s.act? k = some b → b.dt = dt → b.replica = false → b.wait = .beamGen g old → old ≠ grp.gen →
         t.act? k = some { b with wait := .none, status := { b.status with wait := 0, wq := 0 }, pc := b.pc + 4 })) ∧
  (∀ (s : State) (p pt : Nat), pt < 3200 →
     ((tabFind s.pts (p * 4096 + pt)).isSome = true → (s.pt (p * 4096 + pt)).routerUp = true →
       ∃ t, exec (.routerDeath p pt) s = .next t ∧ (t.pt (p * 4096 + pt)).routerUp = false ∧
         (t.die (p * 64 + pt / 80)).recomb = true ∧
         (∀ vt, (s.pt (p * 4096 + pt)).role = .inService vt → vtLost t p pt vt)) ∧
     (∀ die, (s.die (p * 64 + die)).recomb = true →
       exec (.beamRecombine p die) s =
         .next ((List.range 16).foldl (fun u g => u.checkPhase p g)
           (s.setDie (p * 64 + die) { s.die (p * 64 + die) with recomb := false }))))

end

namespace Sys2Proof.Stated

open Sys2Proof.Machine

/-- R434: a panel accepts an image: its key is the one fused by digest, its signature is that key's of the digest of header and
body, and its rollback counter is at least the fused one. Digest and signature are uninterpreted functions (log 30). -/
def accepts (x : Panel) (i : FwImage) : Prop :=
  Config.digest i.key = x.fusedKey ∧ i.signature = Config.imageSignature i.key (Config.digest i.signedBytes) ∧ x.fused ≤ i.rollback

/-- R424: g is the first flit of a replay buffer with a sequence number, and these are the flits after it. -/
def keepsFlit (l : List Flit) (n : BitVec 16) (g : Flit) (after : List Flit) : Prop :=
  ∃ before, l = before ++ g :: after ∧ g.seq = n ∧ ∀ f ∈ before, f.seq ≠ n

end Sys2Proof.Stated

section
open Sys2Proof Sys2Proof.Machine Sys2Proof.Stated

/-- R329 to R332, R346, R347: a GO to ROTCMD with EMERG clear or set starts a rotation (status 1) or is refused with status 0x10;
with EMERG, for a retired PT whose VT was lost, it restores that VT on the spare. A drain ends when nothing of the VT runs,
commits or copies but what an emergency stops: those activations are suspended with their registers (a screened one's screen is
abandoned first, R353), and the state copy begins. The drain limit turns a drain into an emergency. -/
def Obligations.RotationStart : Prop :=
  ∀ (s : State) (p die : Nat) (v : Word), die < 40 →
    let k := p * 64 + die
    let outPt := p * 4096 + (v.extractLsb' 0 12).toNat
    let inPt := p * 4096 + (v.extractLsb' 16 12).toNat
    let refused (t : State) : Prop := (t.die k).rotcmd.extractLsb' 40 8 = 0x10 ∧ t.tiles = s.tiles ∧ t.pts = s.pts
    let begun (t : State) (dt : Nat) (emerg : Bool) : Prop :=
      (t.die k).rotcmd.extractLsb' 40 8 = 1 ∧ (t.die k).phase = .draining ∧ (t.die k).emerg = emerg ∧
        (t.die k).rotVt = dt ∧ (t.tile dt).draining = true
    (v.getLsbD 63 = true → v.getLsbD 28 = false → ∃ t, exec (.rotcmdGo p die v) s = .next t ∧
      (s.rotationOf k v = none → refused t) ∧
      (∀ dt, s.rotationOf k v = some (dt, false) → begun t dt false)) ∧
    (v.getLsbD 63 = true → v.getLsbD 28 = true → ∃ t, exec (.rotcmdEmerg p die v) s = .next t ∧
      (s.rotationOf k v = none → refused t) ∧
      (∀ dt, s.rotationOf k v = some (dt, false) → begun t dt true) ∧
      (∀ dt, s.rotationOf k v = some (dt, true) →
        (t.pt inPt).role = .inService (dt % 4096) ∧ (t.pt outPt).lostVt = none ∧
        (t.tile dt).rods = (s.tile dt).mirrorOf.rods ∧ (t.tile dt).mirrored = (s.tile dt).mirrorOf.mirrored)) ∧
    ((s.die k).phase = .draining →
      exec (.drainLimitExpiry p die) s = .next (s.setDie k { s.die k with emerg := true })) ∧
    (let d := s.die k
     d.phase = .draining →
      (s.drained d.rotVt d.emerg = false → exec (.drainEnd p die) s = .next s) ∧
      (s.drained d.rotVt d.emerg = true →
        ∃ t, exec (.drainEnd p die) s = .next t ∧ (t.die k).phase = .copying ∧ (t.die k).rotcmd.extractLsb' 40 8 = 2 ∧
          ((s.acts.map (·.1)).Pairwise (· < ·) → (∀ e ∈ s.acts, e.2.dt = d.rotVt → e.2.twin = none) →
            ∀ j b, s.act? j = some b → b.dt = d.rotVt → b.fw = false → b.replica = false → b.place.running = true →
              ∃ y, t.act? j = some y ∧ y.place = .suspended ∧ y.pc = b.pc ∧ y.w = b.w)))

/-- R15, R333, R335 to R338, R371: the remap puts the incoming PT into service for the VT and the outgoing one into self-test,
raises the panel's map generation and carries the VT's node records, rods and LM unchanged, but for free workspace areas, and
not its throttle; the routers apply the generation one at a time; a router's marker follows what it has routed under older
generations, and the window closes with the last. -/
def Obligations.RotationRemap : Prop :=
  ∀ (s : State) (p : Nat),
    (∀ die, die < 40 →
      let d := s.die (p * 64 + die)
      let dt := d.rotVt
      d.phase = .copying → d.outPt ≠ d.inPt → (s.pt (p * 4096 + d.inPt)).role = .spare →
      ∃ t, exec (.remap p die) s = .next t ∧ (t.pt (p * 4096 + d.outPt)).role = .selfTest ∧
        (t.pt (p * 4096 + d.inPt)).role = .inService (dt % 4096) ∧ (t.panel p).mapGen = (s.panel p).mapGen + 1 ∧
        (t.tile dt).rotations = (s.tile dt).rotations + 1 ∧ (t.tile dt).throttle = 0 ∧
        (t.tile dt).lm = (s.tile dt).lm.filter (fun e => !inAreas (s.tile dt).vacant e.1) ∧
        (t.tile dt).nodes = (s.tile dt).nodes ∧ (t.tile dt).rods = (s.tile dt).rods ∧
        ((∀ e ∈ s.pts, e.2.testDue = false) → (t.tile dt).draining = false)) ∧
    (∀ r,
      let k := p * 4096 + r
      ((tabFind s.pts k).isSome = true → (s.pt k).routerUp = true → (s.pt k).mapGen ≠ (s.panel p).mapGen →
        exec (.mapGenerationApply p r) s = .next (s.setPt k { s.pt k with mapGen := (s.pt k).mapGen + 1 })) ∧
      (∀ i d, s.dies.find? (fun e => e.1 / 64 == p && e.2.phase == .window && e.2.markers.contains k &&
          reached (s.pt k).mapGen e.2.gen) = some (i, d) → s.die i = d →
        let left := d.markers.filter (· != k)
        (s.olderOpen k d = true → exec (.marker p r) s = .next s) ∧
        (s.olderOpen k d = false →
          (left ≠ [] → exec (.marker p r) s = .next (s.setDie i { d with markers := left })) ∧
          (left = [] → ∃ t, exec (.marker p r) s = .next t ∧ (t.die i).markers = [] ∧
            ((∀ e ∈ s.pts, e.2.testDue = false) → (t.die i).phase = .idle ∧ (t.die i).rotcmd.extractLsb' 40 8 = 4)))))

/-- R328, R346, R347, R356: a self-test ends with its PT spare or retired and its minimum voltage in counter 16; a tile that
fails loses its VT and is retired; a restore notice is counted off; after the last notice the restored VT runs again with the LM,
nodes and rods that the restore gave it. -/
def Obligations.LossAndRestore : Prop :=
  ∀ (s : State) (p pt : Nat), pt < 3200 →
    (∀ pass vmin, (s.pt (p * 4096 + pt)).role = .selfTest →
      ∃ t, exec (.selfTestDone p pt pass vmin) s = .next t ∧
        (t.pt (p * 4096 + pt)).role = (if pass then .spare else .retired) ∧
        tabFind (t.pt (p * 4096 + pt)).ageing 16 = some vmin) ∧
    (∀ vt, (s.pt (p * 4096 + pt)).role = .inService vt →
      ∃ t, exec (.tileLoss p pt) s = .next t ∧ vtLost t p pt vt) ∧
    (∀ dt lost, dt ≠ lost → dt ∈ (s.tile lost).notices → s.noticed dt lost = true →
      ∃ t, exec (.restoreNotice dt lost) s = .next t ∧
        (t.tile lost).notices = (s.tile lost).notices.filter (· != dt)) ∧
    (∀ dt, (s.tile dt).lost = true → (s.ptOf dt).isSome = true → (s.tile dt).notices = [] →
      ∃ t, exec (.restoreResend dt) s = .next t ∧ (t.tile dt).lost = false ∧ (t.tile dt).lm = (s.tile dt).lm ∧
        (t.tile dt).nodes = (s.tile dt).nodes ∧ (t.tile dt).rods = (s.tile dt).rods)

/-- R158, R355 to R362: a screen whose signatures agree ends and empties the commit rings of both PTs, one whose signatures
differ is noted for the tests of both; a silent tile in service is probed, an answer makes its test due, no answer loses it,
and sends a replica's tile to its test (log 82); a grant raises the reserve to HIGH at most, whatever its size; a tile above
HIGH passes the excess on; a memory error is counted when corrected; when not, it poisons its word, slice or line, and a
self-test of the tile, or of the PT beside the slice that owns the line, follows. When the signatures are compared is the
reading of log 37, what a grant is worth that of log 32, and which PT a line's error has its test that of log 101. -/
def Obligations.ReliabilityEvents : Prop :=
  ∀ s : State,
    (∀ key a sig orig, s.act? key = some a → a.replica = true → a.atEnd = true → a.mate = some (sig, orig) →
      let rep := a.tile - Config.replicaBase
      ∃ t, exec (.screenCompare key) s = .next t ∧ t.act? key = none ∧
        (a.finalSig = sig → (t.pt orig).commits = [] ∧ (t.pt rep).commits = []) ∧
        (a.finalSig ≠ sig → (orig % 4096, rep % 4096, none) ∈ (t.panel (orig / 4096)).screens)) ∧
    (∀ p pt vt, pt < 3200 → (s.pt (p * 4096 + pt)).role = .inService vt →
      let k := p * 4096 + pt
      ((s.pt k).probe = false → s.slow (p * 4096 + vt) = false →
        exec (.silenceProbe p pt) s = .next (s.setPt k { s.pt k with probe := true })) ∧
      ((s.pt k).probe = true →
        (∃ t, exec (.probeAnswer p pt) s = .next t ∧ t.pt k = { s.pt k with probe := false, testDue := true }) ∧
        ∃ t, exec (.probeTimeout p pt) s = .next t ∧ vtLost t p pt vt)) ∧
    (∀ p pt vt, pt < 3200 → (s.pt (p * 4096 + pt)).role = .replica vt → (s.pt (p * 4096 + pt)).probe = true →
      ∃ t, exec (.probeTimeout p pt) s = .next t ∧ (t.pt (p * 4096 + pt)).role = .selfTest) ∧
    (∀ dt, s.tileOn (s.ptKey dt) = some dt →
      let x := s.tile dt
      let high : Int := 64 * (x.high.toNat : Int)
      let sum : Int := min (x.reserve + (Config.grantUnits x.grant.toNat (s.panel (s.ptKey dt / 4096)).granted.toNat s.tick : Int)) high
      exec (.quantaGrant dt) s = .next (s.setTile dt { x with reserve := if high ≤ x.reserve then x.reserve else sum })) ∧
    (∀ dt d, s.tileOn (s.ptKey dt) = some dt → s.poorest (s.ptKey dt) = some d → d ≠ dt →
      let x := s.tile dt
      let high : Int := 64 * (x.high.toNat : Int)
      high < x.reserve → ∃ t, exec (.reserveShare dt) s = .next t ∧ (t.tile dt).reserve = high ∧
        (t.tile d).reserve = (s.tile d).reserve + (x.reserve - high)) ∧
    (∀ n, ∃ t, exec (.eccError (.line n) false) s = .next t ∧ n ∈ t.poison ∧ (∀ m, m ≠ n → (m ∈ t.poison ↔ m ∈ s.poison)) ∧
      (inHbm (128 * n) = true → ∀ vt, (s.pt (linePt n)).role = .inService vt → (t.pt (linePt n)).testDue = true)) ∧
    (∀ dt w, s.tileOn (s.ptKey dt) = some dt →
      let k := s.ptKey dt
      (∀ vt, (s.pt k).role = .inService vt →
        (w < Config.lmSize / 8 → ∃ t, exec (.eccError (.lmWord dt w) false) s = .next t ∧ w ∈ (t.tile dt).lmPoison ∧
          (t.pt k).testDue = true) ∧
        (w < 64 * 65536 → ∃ t, exec (.eccError (.tsSlice dt w) false) s = .next t ∧ w ∈ (t.tile dt).tsPoison ∧
          (t.pt k).testDue = true)) ∧
      (∀ vt, (s.pt k).role = .replica vt → w < Config.lmSize / 8 →
        ∃ t, exec (.eccError (.lmWord dt w) false) s = .next t ∧ (t.pt k).role = .selfTest) ∧
      (w < Config.lmSize / 8 → ∃ t, exec (.eccError (.lmWord dt w) true) s = .next t ∧ t.tiles = s.tiles ∧
        tabFind (t.pt k).ageing 18 = some ((tabFind (s.pt k).ageing 18).getD 0 + 1)))

/-- R153, R154, R248, R351, R363, R377, R378: a GO to MIGDST starts a migration (status 1), beside those in progress, or is
refused (0x40); the end of a round copies its last lines, and pauses under a lease, repeats with the lines written, freezes
the page after the fourth; the frozen page's bytes are then at the new home, where that lies apart from the page, and so is a
write that it held; the migrations of a die take turns, and MIGDST tells of the latest (log 93); a GO to PTCMD makes its op's
change of role (status 0), or none (0x10), a Spare that a rotation takes in being refused (log 81); L2GATE and SEED take what
is written. -/
def Obligations.DieControls : Prop :=
  ∀ (s : State) (p die : Nat) (v : Word), die < 40 →
    let k := p * 64 + die
    let d := s.die k
    (v.getLsbD 63 = true →
      let old := d.migPage.1
      let size := d.migPage.2
      let new := (v.extractLsb' 16 36).toNat * 2 ^ 16
      ∃ t, exec (.migrationGo p die v) s = .next t ∧
        (s.migrationRefused k old size new = true →
          (t.die k).migdst.extractLsb' 56 7 = 0x40 ∧ (t.die k).mig = d.mig) ∧
        (s.migrationRefused k old size new = false →
          (t.die k).migdst.extractLsb' 56 7 = 1 ∧ (t.die k).mig =
            d.mig.map (fun g => { g with told := false }) ++ [⟨old, new, pageBytes size, 1, none, 0, [], false, false, true⟩])) ∧
    (∀ g rest, d.mig = g :: rest →
      let copied := s.copyRound k (g.size / 128)
      let at1 : Migration := { g with copied := max g.copied (g.size / 128) }
      let next (g : Migration) : Prop :=
        exec (.migrationRoundEnd p die) s = .next (copied.setDie k { copied.die k with mig := rest ++ [g] })
      let mine (h : Nat × Nat × List Byte) : Prop := g.old ≤ h.2.1 ∧ h.2.1 < g.old + g.size
      (g.frozen = false → s.pageLeased g.old g.size = true → next { at1 with paused := true }) ∧
      (g.frozen = false → s.pageLeased g.old g.size = false →
        (g.paused = true → next { at1.again with paused := false, round := 1 }) ∧
        (g.paused = false → g.dirty ≠ [] → g.round < 4 → next { at1.again with round := g.round + 1 }) ∧
        (g.paused = false → g.dirty ≠ [] → 4 ≤ g.round → ∃ t, exec (.migrationRoundEnd p die) s = .next t ∧
          (t.die k).mig = rest ++ [{ at1.again with frozen := true }] ∧
          (g.told = true → (t.die k).migdst.extractLsb' 56 7 = 2))) ∧
      (g.frozen = true → ∃ t, exec (.migrationRoundEnd p die) s = .next t ∧
        (t.die k).mig.map (fun m => (m.old, m.new, m.size)) = rest.map (fun m => (m.old, m.new, m.size)) ∧
        (g.told = true → (t.die k).migdst.extractLsb' 56 7 = 3) ∧ (∀ h ∈ t.held, h ∈ s.held ∧ ¬ mine h) ∧
        (s.memoryWf = true → g.old % 2 ^ 16 = 0 → g.new % 2 ^ 16 = 0 → g.size % 2 ^ 16 = 0 →
          rangesMeet g.old g.size g.new g.size = false →
          ((∀ h ∈ s.held, ¬ mine h) → ∀ i < g.size, memRead t.phys (g.new + i) = memRead s.phys (g.old + i)) ∧
          (∀ key pa bs, s.held = [(key, pa, bs)] → g.old ≤ pa → pa + bs.length ≤ g.old + g.size → g.new + g.size ≤ 2 ^ 45 →
            ∀ i (h : i < bs.length), t.physByte key (pa - g.old + g.new + i) = bs[i])))) ∧
    (v.getLsbD 63 = true →
      let pt := (v.extractLsb' 0 12).toNat
      let ptk := p * 4096 + pt
      let vt := (v.extractLsb' 16 12).toNat
      let status (t : State) : BitVec 8 := (t.die k).ptcmd.extractLsb' 40 8
      let role := (s.pt ptk).role
      pt < 3200 → pt / 80 = die →
      (v.extractLsb' 12 4 = 1 → ∃ t, exec (.ptcmdSpareToReplica p die v) s = .next t ∧
        (role = .spare → s.configured (p * 4096 + vt) = true → s.reserved ptk = false →
          (t.pt ptk).role = .replica vt ∧ status t = 0) ∧
        (role ≠ .spare ∨ s.reserved ptk = true → t.pts = s.pts ∧ status t = 0x10)) ∧
      (v.extractLsb' 12 4 = 2 → ∃ t, exec (.ptcmdReplicaToSpare p die v) s = .next t ∧
        (∀ u, role = .replica u → (t.pt ptk).role = .spare ∧ status t = 0) ∧
        ((∀ u, role ≠ .replica u) → t.pts = s.pts ∧ status t = 0x10)) ∧
      (v.extractLsb' 12 4 = 3 → ∃ t, exec (.ptcmdSpareToSelfTest p die v) s = .next t ∧
        (role = .spare → s.reserved ptk = false → (t.pt ptk).role = .selfTest ∧ status t = 0) ∧
        (role ≠ .spare ∨ s.reserved ptk = true → t.pts = s.pts ∧ status t = 0x10))) ∧
    exec (.l2gate p die v) s = .next (s.setDie k { d with l2gate := v &&& 0xFFFFFFFF }) ∧
    (∀ x, s.act? s.cur = some x → exec (.seedWrite v) s =
      .next (s.setAct s.cur { x with seed := if v.setWidth 32 = (0 : BitVec 32) then 1 else v.setWidth 32 }))

/-- R394, R396, R434, R435: a debugger trigger halts every member of its group and a release ends that; a stopped firmware
core is reset with its image loaded, if the image is accepted, and at its third stop is left out of the next boot. Where an
image comes from is the model's choice (log 27). -/
def Obligations.HaltsAndFirmwareResets : Prop :=
  ∀ s : State,
    (∀ p g rel, g < 16 → (s.panel p).state ≠ .off →
      ∃ t, exec (.debuggerTrigger p g rel) s = .next t ∧ (g ∈ (t.panel p).triggered ↔ rel = false) ∧
        (∀ dt stg, dt / 4096 = p → dt < Config.replicaBase → (s.core dt stg).halt.member = true →
          (s.core dt stg).halt.group.toNat = g → (t.core dt stg).halted = !rel) ∧
        (∀ fw, fw / 256 = p → (s.fwCore fw).halt.member = true → (s.fwCore fw).halt.group.toNat = g →
          (t.fwCore fw).halted = !rel)) ∧
    (∀ fw, (tabFind s.fws fw).isSome = true → (s.fwCore fw).stopped = true → (s.fwCore fw).excluded = false →
      s.memoryWf = true →
      ∃ t, exec (.firmwareCoreReset fw) s = .next t ∧
        (2 ≤ (s.fwCore fw).resets → (t.fwCore fw).excluded = true) ∧
        ((s.fwCore fw).resets < 2 →
          let image := s.storedImage fw
          (¬ accepts (s.panel (fw / 256)) image → t = s) ∧
          (accepts (s.panel (fw / 256)) image →
            (t.fwCore fw).stopped = false ∧ (t.fwCore fw).resets = (s.fwCore fw).resets + 1 ∧ (t.fwCore fw).loaded = some image ∧
            (∃ y, t.act? (Config.fwKey + fw) = some y ∧ y.fw = true ∧ y.place = .slot 0) ∧
            ∀ i (h : i < image.body.length), i < Config.fwSize → memRead t.phys (fwBase fw + i) = image.body[i])))

/-- R424 to R426: a port whose link is up and receives the flit that it expects goes on to the next number, frees what the
acknowledgement of the other end covers, and delivers what the flit carries, or sends it on to its panel; a copy of a flit
delivered is not delivered again; one with a CRC failure, or that finds no room, asks for a replay; a replay request and an
idle flit free what precedes the number that the other end expects; a port sends the earliest parcel of its routes unless its
replay buffer is full; a retrain ends with the spare lane in use, at 4 lanes, or with the port down, whose unacknowledged
flits then leave again by another port of the pair. Which routes a port carries is the model's choice (log 22). -/
def Obligations.FabricPorts : Prop :=
  ∀ (s : State) (p n : Nat), n < 32 →
    let x := s.port p n
    (∀ q, portPeer p n = some q →
      let y := s.port q (peerPort n)
      let out (t : State) : List Transit := (t.panel p).outbound
      (x.state = 2 → y.state = 2 →
        (∀ f after ack lane, keepsFlit y.buffer x.expect f after → (y.expect - 1 - ack).toNat < 4096 →
          ∃ t, exec (.flit p n x.expect ack true true lane) s = .next t ∧ (t.port p n).expect = x.expect + 1 ∧
            (t.port p n).asked = false ∧ (t.port p n).state = 2 ∧
            (∀ g post, keepsFlit x.buffer ack g post → (t.port p n).buffer = post) ∧
            ((∀ g ∈ x.buffer, g.seq ≠ ack) → (t.port p n).buffer = x.buffer) ∧
            out t = if f.load.panel = p then out s else out s ++ [f.load]) ∧
        (∀ seq ack room lane, (x.expect - 1 - seq).toNat < 4096 → (y.expect - 1 - ack).toNat < 4096 →
          ∃ t, exec (.flit p n seq ack true room lane) s = .next t ∧ (t.port p n).expect = x.expect ∧
            (t.port p n).asked = x.asked ∧ out t = out s) ∧
        (∀ seq ack room lane, ∃ t, exec (.flit p n seq ack false room lane) s = .next t ∧ (t.port p n).asked = true ∧
          (t.port p n).expect = x.expect ∧ (t.port p n).buffer = x.buffer ∧ out t = out s) ∧
        (∀ f after ack lane, keepsFlit y.buffer x.expect f after → (y.expect - 1 - ack).toNat < 4096 →
          ∃ t, exec (.flit p n x.expect ack true false lane) s = .next t ∧ (t.port p n).asked = true ∧
            (t.port p n).expect = x.expect ∧ out t = out s) ∧
        (∀ g post, keepsFlit x.buffer (y.expect - 1) g post → y.asked = true →
          exec (.replayRequest p n y.expect) s = .next (s.setPort p n { x with buffer := post })) ∧
        (∀ g post, keepsFlit y.buffer (x.expect - 1) g post →
          exec (.idleFlit p n) s = .next (s.setPort q (peerPort n) { y with buffer := post })) ∧
        ((∀ r ∈ out s, s.portFor p r ≠ n) ∨ 4096 ≤ x.buffer.length → s.choose (.sendFlit p n) = s) ∧
        (∀ before r after, out s = before ++ r :: after → (∀ z ∈ before, s.portFor p z ≠ n) → s.portFor p r = n → r ∉ before →
          x.buffer.length < 4096 →
          let t := s.choose (.sendFlit p n)
          out t = before ++ after ∧ t.port p n = { x with buffer := x.buffer ++ [⟨x.next, r⟩], next := x.next + 1 }))) ∧
    (x.state = 1 → ∀ good,
      let kept := x.failures.filter (fun e => some (e.1 % 16) != x.failing)
      ∃ t, exec (.retrainEnd p n good) s = .next t ∧
      (good < 4 → (t.port p n).state = 0 ∧ (t.port p n).lanes = 0 ∧ ∀ q, portPeer p n = some q →
        (t.port p n).buffer = [] ∧ (t.panel p).outbound = x.buffer.map (·.load) ++ (s.panel p).outbound ∧
        ((∀ m ∈ pairPorts n, m ≠ n → (s.port p m).state ≠ 2) → n / 4 ∈ (t.panel p).logged) ∧
        (∀ m ∈ pairPorts n, m ≠ n → (s.port p m).state = 2 →
          (∀ j ∈ pairPorts n, j < m → j ≠ n → (s.port p j).state ≠ 2) →
          (tabFind (s.panel p).routes n).getD n = n → tabFind (t.panel p).routes n = some m)) ∧
      (4 ≤ good → x.spared = 15 → x.lanes = 8 → t.port p n =
        { x with failing := none, failures := kept, spared := BitVec.ofNat 4 (x.failing.getD 15), state := 2 }) ∧
      (4 ≤ good → x.spared ≠ 15 ∨ x.lanes ≠ 8 → t.port p n =
        { x with failing := none, failures := kept, lanes := 4, state := 2 }))

/-- R17, R205, R427, R430 to R434: the shrink of a panel step by step, its return, its loss of power; an image is accepted
when its signature verifies under the fused key and its rollback counter is at least the fused one; a boot, from off or from
service-only mode, with no accepted image of the management controller, or whose I/O dies stay down, stops there with its
record; one of a panel with no retired PT, whose images are accepted and whose tests pass, brings the panel up with 3,000 VTs,
generation 0 and the graph heaps at 0x1C0000 to 0x200000, in the domain or, where it does not join, as a domain of its own.
What a signature is that verifies is an uninterpreted function (log 30). -/
def Obligations.PanelLifeCycle : Prop :=
  ∀ (s : State) (p : Nat),
    let x := s.panel p
    (x.state = .ready → exec (.panelShrink p) s = .next (s.setPanel p { x with state := .shrunk })) ∧
    (x.state = .shrunk → x.safe = false →
      (x.inDomain = true ∨ x.alone = true →
        (s.graphsOn p = true → exec (.panelShrink p) s = .next s) ∧
        (s.graphsOn p = false → exec (.panelShrink p) s = .next (s.setPanel p { x with inDomain := false, alone := false }))) ∧
      (x.inDomain = false → x.alone = false → s.trafficOf p = false → (∀ e ∈ x.ports, e.2.buffer = [] ∧ e.2.state ≠ 1) →
        ∃ t, exec (.panelShrink p) s = .next t ∧ (t.panel p).safe = true ∧ ∀ e ∈ (t.panel p).ports, e.2.state ≠ 2)) ∧
    (x.state = .shrunk → x.inDomain = false → 0 < x.vts →
      ∃ t, exec (.trayAddBack p) s = .next t ∧ (t.panel p).state = .ready ∧ (t.panel p).inDomain = true ∧
        (t.panel p).alone = false ∧ (t.panel p).safe = false) ∧
    (x.safe = true → ∃ t, exec (.powerRemoval p) s = .next t ∧ (t.panel p).state = .off ∧
      (t.panel p).fieldLog = x.fieldLog ∧ ∀ e ∈ t.tiles, e.1 % Config.replicaBase / 4096 ≠ p) ∧
    (x.state = .off ∨ x.state = .serviceOnly → p < 8 → ∀ rep : BootReport,
      let ok (i : FwImage) : Prop := accepts x i
      let first := rep.image = 0 ∧ x.failedStep 1 = false ∧ ok (s.fwCore (p * 256 + 160)).image
      let stops (l : List Nat) : Prop := exec (.boot p rep) s =
        .next (s.setPanel p { x with state := .off, boots := x.boots + 1, bootRec := bootRecord l, resetsLog := [] })
      (¬ first → (2 ≤ rep.image ∨ ¬ ok x.second) → stops [bootFailed]) ∧
      (first → rep.ioDies = false → stops [bootPassed, bootFailed]) ∧
      (¬ first → rep.image ≤ 1 → ok x.second → rep.ioDies = false → stops [bootAlternate, bootFailed]) ∧
      (first → rep.ioDies = true → rep.excluded = [] → rep.unloaded = [] → rep.failed = [] → rep.cxl = true → rep.join < 2 →
        x.fieldLog = [] → (∀ c < 176, ok (s.fwCore (p * 256 + c)).image ∧ (s.fwCore (p * 256 + c)).excluded = false) →
        ∃ t, exec (.boot p rep) s = .next t ∧ (t.panel p).state = .ready ∧ (t.panel p).vts = 3000 ∧
          (t.panel p).mapGen = 0 ∧ (t.panel p).boots = x.boots + 1 ∧
          (t.panel p).inDomain = (rep.join == 0 && !x.failedStep 9) ∧ (t.panel p).alone = !(t.panel p).inDomain ∧
          ∀ v < 3000, (t.tile (p * 4096 + v)).heapBase = 0x1C0000 ∧ (t.tile (p * 4096 + v)).heapLim = 0x200000))

/-- R5, R418 to R420, R428, R429, R432, R436: host writes reach memory under key id 0, at the address that the HDM decoders
give, and host reads return its bytes, or a data error where a line is poisoned, and change no memory; both wait at a page
frozen by a migration (R153); the mailbox assigns a queue, whose owner is then locked, and writes host ranges; the registers
of BAR 2 take their writable fields, CAPW between 2,000 and 16,000 W, and show the brake and the draw; an attestation report
starts with its nonce. That a host read changes nothing in memory is the reading of log 47; host addresses are those of log
85. -/
def Obligations.HostAccesses : Prop :=
  ∀ (s : State) (p : Nat),
    let x := s.panel p
    let cap (v : BitVec 16) : BitVec 16 := BitVec.ofNat 16 (max 2000 (min 16000 v.toNat))
    (∀ v, exec (.capw p v) s = .next (s.setPanel p { x with capw := cap v })) ∧
    s.registerRead p 0x1008 = ((0 : BitVec 45) ++ BitVec.ofBool x.brkpin ++ BitVec.ofBool (x.swbrake || (x.brkpin && x.pinen)) ++
      BitVec.ofBool x.limited ++ x.draw : BitVec 64) ∧
    (∀ on, exec (.swbrake p on) s = .next (s.setPanel p { x with swbrake := on }) ∧
      exec (.brkpin p on) s = .next (s.setPanel p { x with brkpin := on })) ∧
    (x.state ≠ .off →
      (∀ nonce, ∃ t r, exec (.attestationRequest p nonce) s = .next t ∧ (t.panel p).reports = x.reports ++ [r] ∧
        r.take 32 = leBytes 32 nonce.toNat) ∧
      (∀ addr data len,
        let pa := x.hostAddress addr
        data ≠ [] → s.memoryWf = true → (∀ i < data.length, s.backed p (pa + i) = true) →
        (∀ l ∈ linesOf pa data.length, s.frozenAt (128 * l) = false) →
        ∃ t, exec (.hostRequest p ⟨addr, true, data, len⟩) s = .next t ∧
          ∀ i (h : i < data.length), t.physByte 0 (pa + i) = data[i]) ∧
      (∀ addr data len,
        let pa := x.hostAddress addr
        let ls := linesOf pa len
        0 < len → s.backed p pa = true → s.backed p (pa + len - 1) = true → (∀ l ∈ ls, s.frozenAt (128 * l) = false) →
        ∃ t, exec (.hostRequest p ⟨addr, false, data, len⟩) s = .next t ∧ t.phys = s.phys ∧ t.tiles = s.tiles ∧
          t.acts = s.acts ∧ (t.panel p).answers = x.answers ++
            [if ∃ l ∈ ls, l ∈ s.poison then none else some ((List.range len).map (fun i => s.physByte 0 (pa + i)))]) ∧
      (∀ req : HostAccess, let pa := x.hostAddress req.addr
        let n := if req.write then req.data.length else req.len
        (∃ l ∈ linesOf pa n, s.frozenAt (128 * l) = true) → exec (.hostRequest p req) s = .next s) ∧
      (∀ q key asid on, x.state = .ready → q < 1024 →
        exec (.mailboxRequest p (.assignQueue q key asid on)) s =
          .next (s.setQueue p q { s.queue p q with key := key, asid := asid, enable := on, lock := true })) ∧
      (∀ b l, b < 4 → l.length ≤ 16 → (∀ r ∈ l, r.1 % 2 ^ 16 = 0 ∧ r.2 % 2 ^ 16 = 0) →
        exec (.mailboxRequest p (.hostRanges b l)) s =
          .next (s.setPanel p { x with hostRanges := tabSet x.hostRanges b l })) ∧
      (∀ v : Word,
        exec (.registerWrite p 0x1000 v) s =
          .next (s.setPanel p { x with capw := cap (v.setWidth 16), ramp := v.extractLsb' 16 16 }) ∧
        exec (.registerWrite p 0x1010 v) s =
          .next (s.setPanel p { x with swbrake := v.getLsbD 0, pinen := v.getLsbD 1 }) ∧
        exec (.registerWrite p 0x3000 v) s = .next (s.setPanel p { x with bootFull := v.getLsbD 0 }) ∧
        (∀ n < 32, exec (.registerWrite p (0x2000 + 8 * n) v) s =
          .next (s.setPort p n { s.port p n with lanelim := v.extractLsb' 8 16 })) ∧
        (x.state ≠ .serviceOnly → ∀ q < 1024,
          let y := s.queue p q
          let page := 0x100000 + 0x10000 * q
          exec (.registerWrite p page v) s = .next (s.setQueue p q { y with sqbase := v.toNat % 2 ^ 56 }) ∧
          (y.lock = true → exec (.registerWrite p (page + 0x38) v) s = .next (s.setQueue p q y)) ∧
          (y.lock = false → exec (.registerWrite p (page + 0x38) v) s = .next (s.setQueue p q
            { y with key := v.setWidth 8, asid := v.extractLsb' 8 12, enable := v.getLsbD 62, lock := v.getLsbD 63 })))))

end

namespace Sys2Proof.Stated

open Sys2Proof.Machine

/-! ### Steps, decoding, exceptions and invariants -/

/-- R29: the bytes at an address, fetched by the issuing context, are those of an instruction of `len` bytes: w is its word,
or its halfword zero-extended. -/
def readsAt (s : State) (pc : Word) (w : BitVec 32) (len : Nat) (i : Instr) : Prop :=
  ∃ h, fetchHalf s pc pc = .ok h ∧
    ((len = 4 ∧ Decode.isLong h = true ∧ fetchWord s pc = .ok w ∧ decodeWord w = .ok i) ∨
     (len = 2 ∧ Decode.isLong h = false ∧ w = h.setWidth 32 ∧ decodeHalf h = .ok i))

/-- The issuing context's caches filled for the instruction at its PC (R63, R137). -/
def fetched (s : State) (pc : Word) (w : BitVec 32) (len : Nat) : State :=
  (s.touchFetch pc len).fillCode pc (if len = 2 then [w.setWidth 16] else word32 w)

/-- The state in which the instruction of a context x issues from slot n: the issue is noted and its tile charged (R62, R360). -/
def issuing (s : State) (x : Act) (n : BitVec 2) (w : BitVec 32) (len : Nat) : State :=
  (s.noteIssue x n).charged x (s.chargeFor w len)

/-- The counts that follow the instruction of a context x, issued from state s, in the state t that it leaves (R77, R377). -/
def countedFrom (s t : State) (x : Act) (w : BitVec 32) : State :=
  t.counted s.cur x w ((t.tile x.tile).reruns - (s.tile x.tile).reruns)

/-- The model's invariant: every byte memory has its canonical form (addresses rising, no listed zero), no queue holds more
than 4 entries, those that vector loads have yet to fill among them (R107, R108), and the activations stand in one table by
rising keys. -/
def Inv (s : State) : Prop :=
  s.memoryWf = true ∧ (∀ e ∈ s.tiles, ∀ q : Fin 8, e.2.queues[q].length + e.2.tails[q].length ≤ 4) ∧
    (s.acts.map (·.1)).Pairwise (· < ·)

end Sys2Proof.Stated

section
open Sys2Proof Sys2Proof.Machine Sys2Proof.Stated

/-- R29, R61, R62, R79: a step runs the instruction decoded at the PC of the slot that its turn's core chooses, after the
urgent node that may start (or of the firmware core whose turn it is): it is exec of that instruction with the issue noted and
charged, followed by the counts of R77 and R377; an instruction that has to be tried again leaves no charge and no count. The
turn of an event is exec of the event, that of a cycle a local cycle, that of a repetition buffer its send, that of a choice
what is chosen. A slot is chosen only with its next instruction in the instruction cache (R62); a firmware core under the
brake issues once in 16 of its cycles (R429). The turns are the model's own schedule (log 1). -/
def Obligations.StepRunsDecoded : Prop :=
  ∀ (s : State) (rest : List Turn),
    let s0 : State := { s with sched := rest }
    (∀ dt stg n k x w len i t, s.sched = .issue dt stg :: rest →
      s0.mayRun dt stg = true → s0.paced dt (s0.core dt stg).sinceIssue (s0.core dt stg).sinceBlock = true →
      let s1 := (s0.urgentStart dt stg).getD s0
      s1.chooseSlot dt stg = some (n, k) →
      let s2 : State := { s1 with cur := k }
      s2.act? k = some x → x.spent = false → readsAt s2 x.pc w len i →
      let s3 := fetched s2 x.pc w len
      alwaysIllegal i = true ∨ checkWindow257 s3 = .ok () →
      let s4 := s3.needVectors (usedRegs w len i)
      exec i (issuing s4 x n w len) = .next t →
      (t.retries k = false → step s = .next (countedFrom s4 t x w).stamp) ∧
      (t.retries k = true → ∀ u, exec i s4 = .next u → step s = .next u.stamp)) ∧
    (∀ fw x w len i t, s.sched = .issueFw fw :: rest →
      let k := Config.fwKey + fw
      let s1 : State := { s0 with cur := k }
      let s2 := s1.setFw fw { s0.fwCore fw with sinceIssue := 0 }
      (s0.panel (fw / 256)).brake = false ∨ 16 ≤ (s0.fwCore fw).sinceIssue → (s0.fwCore fw).halted = false →
        (s0.fwCore fw).idle = false → (s0.fwCore fw).stopped = false →
      (s0.fwCore fw).excluded = false → s1.act? k = some x → x.fw = true → x.spent = false → s1.ready = true →
      x.block = none → readsAt s2 x.pc w len i →
      let s3 := fetched s2 x.pc w len
      alwaysIllegal i = true ∨ checkWindow257 s3 = .ok () →
      exec i (issuing s3 x 0 w len) = .next t → t.retries k = false → step s = .next (countedFrom s3 t x w).stamp) ∧
    (∀ i t, s.sched = .event i :: rest → encode i = [] → s0.eventOpen i = true → exec i s0 = .next t →
      step s = .next t.stamp) ∧
    (∀ dt, s.sched = .cycle dt :: rest → step s = .next (s0.cycle dt).stamp) ∧
    (∀ dt stg, s.sched = .buffer dt stg :: rest → step s = .next (s0.bufferStep dt stg).stamp) ∧
    (∀ c, s.sched = .choice c :: rest → step s = .next (s0.choose c).stamp)

/-- R29, R31, R36, R43: words and halfwords written out from the encoding tables decode to the instructions that they stand for;
the bytes 19 C9 FB 3F of R29 are the word 0xC9193FFB. -/
def Obligations.DecodeWords : Prop :=
  decodeWord 0xC8214D00 = .ok (.add 4 5 6 true) ∧
  decodeWord 0xE0002005 = .ok (.rwait 5) ∧
  decodeWord 0xE038100C = .ok (.rget 7 12) ∧
  decodeWord 0xC3010002 = .ok (.jt 4 2) ∧
  decodeWord 0xE2180200 = .ok (.waitm 3 1) ∧
  decodeWord 0xFE000006 = .ok .brk ∧
  decodeHalf 0x0000 = .ok .ill ∧
  halvesOfBytes [0x19, 0xC9, 0xFB, 0x3F] = word32 0xC9193FFB

/-- R29, R36 to R43: decoding the encoding of a well-formed instruction, whatever follows it, gives the instruction and what
follows. -/
def Obligations.RoundTrip : Prop :=
  ∀ (i : Instr) (rest : List (BitVec 16)), i.wellFormed = true → encode i ≠ [] →
    decodeHalves (encode i ++ rest) = .ok (i, rest)

/-- R25, R375: no step of the device ends it: a fault stops an activation or a firmware core, never the machine. -/
def Obligations.DeviceNeverStops : Prop := ∀ s : State, ∃ t, step s = .next t

/-- R107, R128, R430: the state at reset: no panel has booted, every memory reads zero (log 3, the model's choice), no activation
exists, and the invariant holds. -/
def Obligations.ResetHolds : Prop :=
  Inv State.reset ∧ (∀ p, (State.reset.panel p).state = .off ∧ (State.reset.panel p).capw = 16000 ∧
    (State.reset.panel p).ramp = 400 ∧ (State.reset.panel p).pinen = true ∧
    (State.reset.panel p).draw = 0 ∧ (State.reset.panel p).limited = false) ∧
  (∀ p q, State.reset.queue p q = Queue.empty) ∧ (∀ k, State.reset.act? k = none) ∧
  ∀ a, memRead State.reset.phys a = 0

/-- R107: every step keeps the invariant, from every state that meets it. -/
def Obligations.InvariantKept : Prop := ∀ s t : State, Inv s → step s = .next t → Inv t

/-- R25, R102, R108, R226, R375, R379: taking an exception. A parking cause leaves the activation parked at its PC with its
registers, the cause and the fault value in its header, its slot free, its node PARKED and one trap message sent. An aborting
one ends the activation: its slot is free, its node FAULTED for a retry that is allowed, or while copies of its attempt have
not ended (R326), and CANCELLED otherwise. On a firmware core it stops the core. An instruction that needs an empty queue's
entry, or room in a full queue or in one whose reader is halted (R396), waits with the reason of R108 and takes no effect. -/
def Obligations.ExceptionEntry : Prop :=
  (∀ (s : State) (k : Nat) (x : Act) (e : Trap), s.act? k = some x → x.replica = false → x.twin ≠ some k →
    (x.fw = true → ∃ t y, s.takeTrap k e = t ∧ t.act? k = some y ∧ y.place = .stopped ∧ y.pc = x.pc ∧ y.w = x.w ∧
      y.cause = e.cause ∧ y.value = e.value ∧ (t.fwCore (k - Config.fwKey)).stopped = true) ∧
    (x.fw = false →
      let t := s.takeTrap k e
      let n := s.node x.dt x.index
      (∀ c : Fin 4, (t.core x.tile x.stg).slots[c] ≠ some k) ∧
      (parks e.cause.code = true →
        (∃ y, t.act? k = some y ∧ y.place = .parked ∧ y.pc = x.pc ∧ y.w = x.w ∧ y.v = x.v ∧ y.m = x.m ∧ y.e = x.e ∧
          y.cause = e.cause ∧ y.value = e.value) ∧
        (t.node x.dt x.index).state = stParked ∧
        ∃ m, t.msgs = s.msgs ++ [m] ∧ ∃ t0 t1, m.body = .trap t0 t1 e.value x.pc) ∧
      (parks e.cause.code = false →
        t.act? k = none ∧ (∃ m ∈ t.msgs, ∃ t0 t1, m.body = .trap t0 t1 e.value x.pc) ∧
        (n.attempt.toNat + 1 ≤ n.retry.toNat → x.status.eff = false → e.cause.code ≠ cPOISON →
          (∀ g, tabFind s.graphs n.gid.toNat = some g → g.cancelled = false) →
          (t.node x.dt x.index).state = stFaulted) ∧
        (n.retry.toNat < n.attempt.toNat + 1 ∨ x.status.eff = true →
          (t.node x.dt x.index).state = if s.copying x.dt x.index then stFaulted else stCancelled)))) ∧
  (∀ s x, Issuing s x → x.fw = false → x.replica = false → ∀ (d a : BitVec 5) (m : BitVec 3) (esz : BitVec 2) (q : Fin 8),
    checkQueues x [a] [d] = .ok () →
    (queueOf a = some q → (s.tile x.tile).visible q = 0 → blocks (exec (.vmov d a m esz) s) s x (.queue (queueNeeds [a] [d])) 2) ∧
    (queueOf a = none → queueOf d = some q → 4 ≤ (s.tile x.tile).occupied q ∨ (s.tile x.tile).readerHalted q = true →
      blocks (exec (.vmov d a m esz) s) s x (.queue [(q.val, true, 1)]) 3))

end
end

