-- ==== Sys2Proof/Laws/Exec.lean ====
section
/-! SUPPORT. What `exec` does with each constructor of Instr, as rewriting rules. -/

namespace Sys2Proof.Machine

variable (s : State)

theorem exec_br (imm : BitVec 24) : exec (.br imm) s = execBr imm s := rfl
theorem exec_call (imm : BitVec 24) : exec (.call imm) s = execCall imm s := rfl
theorem exec_beq (a : BitVec 5) (b : BitVec 5) (off : BitVec 10) : exec (.beq a b off) s = execBeq a b off s := rfl
theorem exec_bne (a : BitVec 5) (b : BitVec 5) (off : BitVec 10) : exec (.bne a b off) s = execBne a b off s := rfl
theorem exec_blt (a : BitVec 5) (b : BitVec 5) (off : BitVec 10) : exec (.blt a b off) s = execBlt a b off s := rfl
theorem exec_bge (a : BitVec 5) (b : BitVec 5) (off : BitVec 10) : exec (.bge a b off) s = execBge a b off s := rfl
theorem exec_bltu (a : BitVec 5) (b : BitVec 5) (off : BitVec 10) : exec (.bltu a b off) s = execBltu a b off s := rfl
theorem exec_bgeu (a : BitVec 5) (b : BitVec 5) (off : BitVec 10) : exec (.bgeu a b off) s = execBgeu a b off s := rfl
theorem exec_bbs (a : BitVec 5) (b : BitVec 5) (off : BitVec 10) : exec (.bbs a b off) s = execBbs a b off s := rfl
theorem exec_bbc (a : BitVec 5) (b : BitVec 5) (off : BitVec 10) : exec (.bbc a b off) s = execBbc a b off s := rfl
theorem exec_jt (a : BitVec 5) (imm : BitVec 14) : exec (.jt a imm) s = execJt a imm s := rfl
theorem exec_lpad (lab : BitVec 16) : exec (.lpad lab) s = execLpad lab s := rfl
theorem exec_ret : exec .ret s = execRet s := rfl
theorem exec_nend : exec .nend s = execNend s := rfl
theorem exec_nabort (a : BitVec 5) : exec (.nabort a) s = execNabort a s := rfl
theorem exec_maskw : exec .maskw s = execMaskw s := rfl
theorem exec_unmaskw : exec .unmaskw s = execUnmaskw s := rfl
theorem exec_rep (cnt : BitVec 5) (len : BitVec 3) (d : BitVec 4) (a : BitVec 4) (b : BitVec 4) : exec (.rep cnt len d a b) s = execRep cnt len d a b s := rfl
theorem exec_add (d : BitVec 5) (a : BitVec 5) (b : BitVec 5) (w : Bool) : exec (.add d a b w) s = execAdd d a b w s := rfl
theorem exec_sub (d : BitVec 5) (a : BitVec 5) (b : BitVec 5) (w : Bool) : exec (.sub d a b w) s = execSub d a b w s := rfl
theorem exec_and (d : BitVec 5) (a : BitVec 5) (b : BitVec 5) (w : Bool) : exec (.and d a b w) s = execAnd d a b w s := rfl
theorem exec_or (d : BitVec 5) (a : BitVec 5) (b : BitVec 5) (w : Bool) : exec (.or d a b w) s = execOr d a b w s := rfl
theorem exec_xor (d : BitVec 5) (a : BitVec 5) (b : BitVec 5) (w : Bool) : exec (.xor d a b w) s = execXor d a b w s := rfl
theorem exec_andn (d : BitVec 5) (a : BitVec 5) (b : BitVec 5) (w : Bool) : exec (.andn d a b w) s = execAndn d a b w s := rfl
theorem exec_shl (d : BitVec 5) (a : BitVec 5) (b : BitVec 5) (w : Bool) : exec (.shl d a b w) s = execShl d a b w s := rfl
theorem exec_shr (d : BitVec 5) (a : BitVec 5) (b : BitVec 5) (w : Bool) : exec (.shr d a b w) s = execShr d a b w s := rfl
theorem exec_sha (d : BitVec 5) (a : BitVec 5) (b : BitVec 5) (w : Bool) : exec (.sha d a b w) s = execSha d a b w s := rfl
theorem exec_ror (d : BitVec 5) (a : BitVec 5) (b : BitVec 5) (w : Bool) : exec (.ror d a b w) s = execRor d a b w s := rfl
theorem exec_mul (d : BitVec 5) (a : BitVec 5) (b : BitVec 5) (w : Bool) : exec (.mul d a b w) s = execMul d a b w s := rfl
theorem exec_mulh (d : BitVec 5) (a : BitVec 5) (b : BitVec 5) (w : Bool) : exec (.mulh d a b w) s = execMulh d a b w s := rfl
theorem exec_mulhu (d : BitVec 5) (a : BitVec 5) (b : BitVec 5) (w : Bool) : exec (.mulhu d a b w) s = execMulhu d a b w s := rfl
theorem exec_div (d : BitVec 5) (a : BitVec 5) (b : BitVec 5) (w : Bool) : exec (.div d a b w) s = execDiv d a b w s := rfl
theorem exec_divu (d : BitVec 5) (a : BitVec 5) (b : BitVec 5) (w : Bool) : exec (.divu d a b w) s = execDivu d a b w s := rfl
theorem exec_rem (d : BitVec 5) (a : BitVec 5) (b : BitVec 5) (w : Bool) : exec (.rem d a b w) s = execRem d a b w s := rfl
theorem exec_remu (d : BitVec 5) (a : BitVec 5) (b : BitVec 5) (w : Bool) : exec (.remu d a b w) s = execRemu d a b w s := rfl
theorem exec_min (d : BitVec 5) (a : BitVec 5) (b : BitVec 5) (w : Bool) : exec (.min d a b w) s = execMin d a b w s := rfl
theorem exec_max (d : BitVec 5) (a : BitVec 5) (b : BitVec 5) (w : Bool) : exec (.max d a b w) s = execMax d a b w s := rfl
theorem exec_minu (d : BitVec 5) (a : BitVec 5) (b : BitVec 5) (w : Bool) : exec (.minu d a b w) s = execMinu d a b w s := rfl
theorem exec_maxu (d : BitVec 5) (a : BitVec 5) (b : BitVec 5) (w : Bool) : exec (.maxu d a b w) s = execMaxu d a b w s := rfl
theorem exec_slt (d : BitVec 5) (a : BitVec 5) (b : BitVec 5) (w : Bool) : exec (.slt d a b w) s = execSlt d a b w s := rfl
theorem exec_sltu (d : BitVec 5) (a : BitVec 5) (b : BitVec 5) (w : Bool) : exec (.sltu d a b w) s = execSltu d a b w s := rfl
theorem exec_seq (d : BitVec 5) (a : BitVec 5) (b : BitVec 5) (w : Bool) : exec (.seq d a b w) s = execSeq d a b w s := rfl
theorem exec_clz (d : BitVec 5) (a : BitVec 5) (w : Bool) : exec (.clz d a w) s = execClz d a w s := rfl
theorem exec_ctz (d : BitVec 5) (a : BitVec 5) (w : Bool) : exec (.ctz d a w) s = execCtz d a w s := rfl
theorem exec_popc (d : BitVec 5) (a : BitVec 5) (w : Bool) : exec (.popc d a w) s = execPopc d a w s := rfl
theorem exec_brev (d : BitVec 5) (a : BitVec 5) (w : Bool) : exec (.brev d a w) s = execBrev d a w s := rfl
theorem exec_bswap (d : BitVec 5) (a : BitVec 5) (w : Bool) : exec (.bswap d a w) s = execBswap d a w s := rfl
theorem exec_sext (d : BitVec 5) (a : BitVec 5) (b : BitVec 5) : exec (.sext d a b) s = execSext d a b s := rfl
theorem exec_zext (d : BitVec 5) (a : BitVec 5) (b : BitVec 5) : exec (.zext d a b) s = execZext d a b s := rfl
theorem exec_adds1 (d : BitVec 5) (a : BitVec 5) (b : BitVec 5) (w : Bool) : exec (.adds1 d a b w) s = execAdds1 d a b w s := rfl
theorem exec_adds2 (d : BitVec 5) (a : BitVec 5) (b : BitVec 5) (w : Bool) : exec (.adds2 d a b w) s = execAdds2 d a b w s := rfl
theorem exec_adds3 (d : BitVec 5) (a : BitVec 5) (b : BitVec 5) (w : Bool) : exec (.adds3 d a b w) s = execAdds3 d a b w s := rfl
theorem exec_vta (d : BitVec 5) (a : BitVec 5) (b : BitVec 5) : exec (.vta d a b) s = execVta d a b s := rfl
theorem exec_sel (d : BitVec 5) (a : BitVec 5) (b : BitVec 5) : exec (.sel d a b) s = execSel d a b s := rfl
theorem exec_addi (d : BitVec 5) (a : BitVec 5) (imm : BitVec 14) : exec (.addi d a imm) s = execAddi d a imm s := rfl
theorem exec_andi (d : BitVec 5) (a : BitVec 5) (imm : BitVec 14) : exec (.andi d a imm) s = execAndi d a imm s := rfl
theorem exec_ori (d : BitVec 5) (a : BitVec 5) (imm : BitVec 14) : exec (.ori d a imm) s = execOri d a imm s := rfl
theorem exec_xori (d : BitVec 5) (a : BitVec 5) (imm : BitVec 14) : exec (.xori d a imm) s = execXori d a imm s := rfl
theorem exec_lih (d : BitVec 5) (imm : BitVec 19) : exec (.lih d imm) s = execLih d imm s := rfl
theorem exec_shli (d : BitVec 5) (a : BitVec 5) (w : Bool) (amt : BitVec 6) : exec (.shli d a w amt) s = execShli d a w amt s := rfl
theorem exec_shri (d : BitVec 5) (a : BitVec 5) (w : Bool) (amt : BitVec 6) : exec (.shri d a w amt) s = execShri d a w amt s := rfl
theorem exec_shai (d : BitVec 5) (a : BitVec 5) (w : Bool) (amt : BitVec 6) : exec (.shai d a w amt) s = execShai d a w amt s := rfl
theorem exec_rori (d : BitVec 5) (a : BitVec 5) (w : Bool) (amt : BitVec 6) : exec (.rori d a w amt) s = execRori d a w amt s := rfl
theorem exec_addpc (d : BitVec 5) (imm : BitVec 19) : exec (.addpc d imm) s = execAddpc d imm s := rfl
theorem exec_mfi (d : BitVec 5) (b : BitVec 5) : exec (.mfi d b) s = execMfi d b s := rfl
theorem exec_mfe (d : BitVec 5) (b : BitVec 5) : exec (.mfe d b) s = execMfe d b s := rfl
theorem exec_mte (d : BitVec 5) (a : BitVec 5) : exec (.mte d a) s = execMte d a s := rfl
theorem exec_mfm (d : BitVec 5) (b : BitVec 5) : exec (.mfm d b) s = execMfm d b s := rfl
theorem exec_mtm (d : BitVec 5) (a : BitVec 5) : exec (.mtm d a) s = execMtm d a s := rfl
theorem exec_mfqc (d : BitVec 5) (b : BitVec 5) : exec (.mfqc d b) s = execMfqc d b s := rfl
theorem exec_wsa (d : BitVec 5) : exec (.wsa d) s = execWsa d s := rfl
theorem exec_lde (d : BitVec 5) (a : BitVec 5) (imm : BitVec 14) : exec (.lde d a imm) s = execLde d a imm s := rfl
theorem exec_rcpDef (d : BitVec 5) (b : BitVec 5) : exec (.rcpDef d b) s = execRcpDef d b s := rfl
theorem exec_rcpTagW (d : BitVec 5) (a : BitVec 5) : exec (.rcpTagW d a) s = execRcpTagW d a s := rfl
theorem exec_rcpTagV (d : BitVec 5) (a : BitVec 5) : exec (.rcpTagV d a) s = execRcpTagV d a s := rfl
theorem exec_rcpUntag (d : BitVec 5) (b : BitVec 5) : exec (.rcpUntag d b) s = execRcpUntag d b s := rfl
theorem exec_rcpDrop (d : BitVec 5) (b : BitVec 5) : exec (.rcpDrop d b) s = execRcpDrop d b s := rfl
theorem exec_rcpMat (d : BitVec 5) (b : BitVec 5) : exec (.rcpMat d b) s = execRcpMat d b s := rfl
theorem exec_rcpClr (d : BitVec 5) : exec (.rcpClr d) s = execRcpClr d s := rfl
theorem exec_ldL (t : BitVec 5) (a : BitVec 5) (ord : BitVec 2) (sz : BitVec 2) (off : BitVec 10) : exec (.ldL t a ord sz off) s = execLdL t a ord sz off s := rfl
theorem exec_stL (t : BitVec 5) (a : BitVec 5) (ord : BitVec 2) (sz : BitVec 2) (off : BitVec 10) : exec (.stL t a ord sz off) s = execStL t a ord sz off s := rfl
theorem exec_ldG (t : BitVec 5) (a : BitVec 5) (ord : BitVec 2) (sz : BitVec 2) (off : BitVec 10) : exec (.ldG t a ord sz off) s = execLdG t a ord sz off s := rfl
theorem exec_stG (t : BitVec 5) (a : BitVec 5) (ord : BitVec 2) (sz : BitVec 2) (off : BitVec 10) : exec (.stG t a ord sz off) s = execStG t a ord sz off s := rfl
theorem exec_ldT (t : BitVec 5) (a : BitVec 5) (ord : BitVec 2) (sz : BitVec 2) (off : BitVec 10) : exec (.ldT t a ord sz off) s = execLdT t a ord sz off s := rfl
theorem exec_stT (t : BitVec 5) (a : BitVec 5) (ord : BitVec 2) (sz : BitVec 2) (off : BitVec 10) : exec (.stT t a ord sz off) s = execStT t a ord sz off s := rfl
theorem exec_vldL (d : BitVec 5) (a : BitVec 5) (m : BitVec 3) (esz : BitVec 2) : exec (.vldL d a m esz) s = execVldL d a m esz s := rfl
theorem exec_vldG (d : BitVec 5) (a : BitVec 5) (m : BitVec 3) (esz : BitVec 2) : exec (.vldG d a m esz) s = execVldG d a m esz s := rfl
theorem exec_vldT (d : BitVec 5) (a : BitVec 5) (m : BitVec 3) (esz : BitVec 2) : exec (.vldT d a m esz) s = execVldT d a m esz s := rfl
theorem exec_vldsL (d : BitVec 5) (a : BitVec 5) (b : BitVec 5) (m : BitVec 3) (esz : BitVec 2) : exec (.vldsL d a b m esz) s = execVldsL d a b m esz s := rfl
theorem exec_vldsG (d : BitVec 5) (a : BitVec 5) (b : BitVec 5) (m : BitVec 3) (esz : BitVec 2) : exec (.vldsG d a b m esz) s = execVldsG d a b m esz s := rfl
theorem exec_vldxL (d : BitVec 5) (a : BitVec 5) (b : BitVec 5) (m : BitVec 3) (esz : BitVec 2) : exec (.vldxL d a b m esz) s = execVldxL d a b m esz s := rfl
theorem exec_vldxG (d : BitVec 5) (a : BitVec 5) (b : BitVec 5) (m : BitVec 3) (esz : BitVec 2) : exec (.vldxG d a b m esz) s = execVldxG d a b m esz s := rfl
theorem exec_vstL (d : BitVec 5) (a : BitVec 5) (m : BitVec 3) (esz : BitVec 2) : exec (.vstL d a m esz) s = execVstL d a m esz s := rfl
theorem exec_vstG (d : BitVec 5) (a : BitVec 5) (m : BitVec 3) (esz : BitVec 2) : exec (.vstG d a m esz) s = execVstG d a m esz s := rfl
theorem exec_vstT (d : BitVec 5) (a : BitVec 5) (m : BitVec 3) (esz : BitVec 2) : exec (.vstT d a m esz) s = execVstT d a m esz s := rfl
theorem exec_vstsL (d : BitVec 5) (a : BitVec 5) (b : BitVec 5) (m : BitVec 3) (esz : BitVec 2) : exec (.vstsL d a b m esz) s = execVstsL d a b m esz s := rfl
theorem exec_vstsG (d : BitVec 5) (a : BitVec 5) (b : BitVec 5) (m : BitVec 3) (esz : BitVec 2) : exec (.vstsG d a b m esz) s = execVstsG d a b m esz s := rfl
theorem exec_vstxL (d : BitVec 5) (a : BitVec 5) (b : BitVec 5) (m : BitVec 3) (esz : BitVec 2) : exec (.vstxL d a b m esz) s = execVstxL d a b m esz s := rfl
theorem exec_vstxG (d : BitVec 5) (a : BitVec 5) (b : BitVec 5) (m : BitVec 3) (esz : BitVec 2) : exec (.vstxG d a b m esz) s = execVstxG d a b m esz s := rfl
theorem exec_tchR (d : BitVec 5) (a : BitVec 5) (b : BitVec 5) : exec (.tchR d a b) s = execTchR d a b s := rfl
theorem exec_tchW (d : BitVec 5) (a : BitVec 5) (b : BitVec 5) : exec (.tchW d a b) s = execTchW d a b s := rfl
theorem exec_trel (a : BitVec 5) : exec (.trel a) s = execTrel a s := rfl
theorem exec_prefG (a : BitVec 5) : exec (.prefG a) s = execPrefG a s := rfl
theorem exec_aaddL (d : BitVec 5) (a : BitVec 5) (b : BitVec 5) (ord : BitVec 2) (scope : BitVec 2) (sz64 : Bool) : exec (.aaddL d a b ord scope sz64) s = execAaddL d a b ord scope sz64 s := rfl
theorem exec_aandL (d : BitVec 5) (a : BitVec 5) (b : BitVec 5) (ord : BitVec 2) (scope : BitVec 2) (sz64 : Bool) : exec (.aandL d a b ord scope sz64) s = execAandL d a b ord scope sz64 s := rfl
theorem exec_aorL (d : BitVec 5) (a : BitVec 5) (b : BitVec 5) (ord : BitVec 2) (scope : BitVec 2) (sz64 : Bool) : exec (.aorL d a b ord scope sz64) s = execAorL d a b ord scope sz64 s := rfl
theorem exec_axorL (d : BitVec 5) (a : BitVec 5) (b : BitVec 5) (ord : BitVec 2) (scope : BitVec 2) (sz64 : Bool) : exec (.axorL d a b ord scope sz64) s = execAxorL d a b ord scope sz64 s := rfl
theorem exec_aminL (d : BitVec 5) (a : BitVec 5) (b : BitVec 5) (ord : BitVec 2) (scope : BitVec 2) (sz64 : Bool) : exec (.aminL d a b ord scope sz64) s = execAminL d a b ord scope sz64 s := rfl
theorem exec_amaxL (d : BitVec 5) (a : BitVec 5) (b : BitVec 5) (ord : BitVec 2) (scope : BitVec 2) (sz64 : Bool) : exec (.amaxL d a b ord scope sz64) s = execAmaxL d a b ord scope sz64 s := rfl
theorem exec_aminuL (d : BitVec 5) (a : BitVec 5) (b : BitVec 5) (ord : BitVec 2) (scope : BitVec 2) (sz64 : Bool) : exec (.aminuL d a b ord scope sz64) s = execAminuL d a b ord scope sz64 s := rfl
theorem exec_amaxuL (d : BitVec 5) (a : BitVec 5) (b : BitVec 5) (ord : BitVec 2) (scope : BitVec 2) (sz64 : Bool) : exec (.amaxuL d a b ord scope sz64) s = execAmaxuL d a b ord scope sz64 s := rfl
theorem exec_aswpL (d : BitVec 5) (a : BitVec 5) (b : BitVec 5) (ord : BitVec 2) (scope : BitVec 2) (sz64 : Bool) : exec (.aswpL d a b ord scope sz64) s = execAswpL d a b ord scope sz64 s := rfl
theorem exec_acasL (d : BitVec 5) (a : BitVec 5) (b : BitVec 5) (ord : BitVec 2) (scope : BitVec 2) (sz64 : Bool) : exec (.acasL d a b ord scope sz64) s = execAcasL d a b ord scope sz64 s := rfl
theorem exec_afaddL (d : BitVec 5) (a : BitVec 5) (b : BitVec 5) (ord : BitVec 2) (scope : BitVec 2) (sz64 : Bool) : exec (.afaddL d a b ord scope sz64) s = execAfaddL d a b ord scope sz64 s := rfl
theorem exec_aaddKL (d : BitVec 5) (a : BitVec 5) (b : BitVec 5) (scope : BitVec 2) (sz64 : Bool) : exec (.aaddKL d a b scope sz64) s = execAaddKL d a b scope sz64 s := rfl
theorem exec_aaddT (d : BitVec 5) (a : BitVec 5) (b : BitVec 5) (ord : BitVec 2) (scope : BitVec 2) (sz64 : Bool) : exec (.aaddT d a b ord scope sz64) s = execAaddT d a b ord scope sz64 s := rfl
theorem exec_aandT (d : BitVec 5) (a : BitVec 5) (b : BitVec 5) (ord : BitVec 2) (scope : BitVec 2) (sz64 : Bool) : exec (.aandT d a b ord scope sz64) s = execAandT d a b ord scope sz64 s := rfl
theorem exec_aorT (d : BitVec 5) (a : BitVec 5) (b : BitVec 5) (ord : BitVec 2) (scope : BitVec 2) (sz64 : Bool) : exec (.aorT d a b ord scope sz64) s = execAorT d a b ord scope sz64 s := rfl
theorem exec_axorT (d : BitVec 5) (a : BitVec 5) (b : BitVec 5) (ord : BitVec 2) (scope : BitVec 2) (sz64 : Bool) : exec (.axorT d a b ord scope sz64) s = execAxorT d a b ord scope sz64 s := rfl
theorem exec_aminT (d : BitVec 5) (a : BitVec 5) (b : BitVec 5) (ord : BitVec 2) (scope : BitVec 2) (sz64 : Bool) : exec (.aminT d a b ord scope sz64) s = execAminT d a b ord scope sz64 s := rfl
theorem exec_amaxT (d : BitVec 5) (a : BitVec 5) (b : BitVec 5) (ord : BitVec 2) (scope : BitVec 2) (sz64 : Bool) : exec (.amaxT d a b ord scope sz64) s = execAmaxT d a b ord scope sz64 s := rfl
theorem exec_aminuT (d : BitVec 5) (a : BitVec 5) (b : BitVec 5) (ord : BitVec 2) (scope : BitVec 2) (sz64 : Bool) : exec (.aminuT d a b ord scope sz64) s = execAminuT d a b ord scope sz64 s := rfl
theorem exec_amaxuT (d : BitVec 5) (a : BitVec 5) (b : BitVec 5) (ord : BitVec 2) (scope : BitVec 2) (sz64 : Bool) : exec (.amaxuT d a b ord scope sz64) s = execAmaxuT d a b ord scope sz64 s := rfl
theorem exec_aswpT (d : BitVec 5) (a : BitVec 5) (b : BitVec 5) (ord : BitVec 2) (scope : BitVec 2) (sz64 : Bool) : exec (.aswpT d a b ord scope sz64) s = execAswpT d a b ord scope sz64 s := rfl
theorem exec_acasT (d : BitVec 5) (a : BitVec 5) (b : BitVec 5) (ord : BitVec 2) (scope : BitVec 2) (sz64 : Bool) : exec (.acasT d a b ord scope sz64) s = execAcasT d a b ord scope sz64 s := rfl
theorem exec_afaddT (d : BitVec 5) (a : BitVec 5) (b : BitVec 5) (ord : BitVec 2) (scope : BitVec 2) (sz64 : Bool) : exec (.afaddT d a b ord scope sz64) s = execAfaddT d a b ord scope sz64 s := rfl
theorem exec_aaddKT (d : BitVec 5) (a : BitVec 5) (b : BitVec 5) (scope : BitVec 2) (sz64 : Bool) : exec (.aaddKT d a b scope sz64) s = execAaddKT d a b scope sz64 s := rfl
theorem exec_aaddG (d : BitVec 5) (a : BitVec 5) (b : BitVec 5) (ord : BitVec 2) (scope : BitVec 2) (sz64 : Bool) : exec (.aaddG d a b ord scope sz64) s = execAaddG d a b ord scope sz64 s := rfl
theorem exec_aandG (d : BitVec 5) (a : BitVec 5) (b : BitVec 5) (ord : BitVec 2) (scope : BitVec 2) (sz64 : Bool) : exec (.aandG d a b ord scope sz64) s = execAandG d a b ord scope sz64 s := rfl
theorem exec_aorG (d : BitVec 5) (a : BitVec 5) (b : BitVec 5) (ord : BitVec 2) (scope : BitVec 2) (sz64 : Bool) : exec (.aorG d a b ord scope sz64) s = execAorG d a b ord scope sz64 s := rfl
theorem exec_axorG (d : BitVec 5) (a : BitVec 5) (b : BitVec 5) (ord : BitVec 2) (scope : BitVec 2) (sz64 : Bool) : exec (.axorG d a b ord scope sz64) s = execAxorG d a b ord scope sz64 s := rfl
theorem exec_aminG (d : BitVec 5) (a : BitVec 5) (b : BitVec 5) (ord : BitVec 2) (scope : BitVec 2) (sz64 : Bool) : exec (.aminG d a b ord scope sz64) s = execAminG d a b ord scope sz64 s := rfl
theorem exec_amaxG (d : BitVec 5) (a : BitVec 5) (b : BitVec 5) (ord : BitVec 2) (scope : BitVec 2) (sz64 : Bool) : exec (.amaxG d a b ord scope sz64) s = execAmaxG d a b ord scope sz64 s := rfl
theorem exec_aminuG (d : BitVec 5) (a : BitVec 5) (b : BitVec 5) (ord : BitVec 2) (scope : BitVec 2) (sz64 : Bool) : exec (.aminuG d a b ord scope sz64) s = execAminuG d a b ord scope sz64 s := rfl
theorem exec_amaxuG (d : BitVec 5) (a : BitVec 5) (b : BitVec 5) (ord : BitVec 2) (scope : BitVec 2) (sz64 : Bool) : exec (.amaxuG d a b ord scope sz64) s = execAmaxuG d a b ord scope sz64 s := rfl
theorem exec_aswpG (d : BitVec 5) (a : BitVec 5) (b : BitVec 5) (ord : BitVec 2) (scope : BitVec 2) (sz64 : Bool) : exec (.aswpG d a b ord scope sz64) s = execAswpG d a b ord scope sz64 s := rfl
theorem exec_acasG (d : BitVec 5) (a : BitVec 5) (b : BitVec 5) (ord : BitVec 2) (scope : BitVec 2) (sz64 : Bool) : exec (.acasG d a b ord scope sz64) s = execAcasG d a b ord scope sz64 s := rfl
theorem exec_afaddG (d : BitVec 5) (a : BitVec 5) (b : BitVec 5) (ord : BitVec 2) (scope : BitVec 2) (sz64 : Bool) : exec (.afaddG d a b ord scope sz64) s = execAfaddG d a b ord scope sz64 s := rfl
theorem exec_aaddKG (d : BitVec 5) (a : BitVec 5) (b : BitVec 5) (scope : BitVec 2) (sz64 : Bool) : exec (.aaddKG d a b scope sz64) s = execAaddKG d a b scope sz64 s := rfl
theorem exec_stM (t : BitVec 5) (a : BitVec 5) (ord : BitVec 2) (sz : BitVec 2) (off : BitVec 10) : exec (.stM t a ord sz off) s = execStM t a ord sz off s := rfl
theorem exec_radd (a : BitVec 5) (rod : BitVec 7) : exec (.radd a rod) s = execRadd a rod s := rfl
theorem exec_rset (a : BitVec 5) (rod : BitVec 7) : exec (.rset a rod) s = execRset a rod s := rfl
theorem exec_rget (d : BitVec 5) (rod : BitVec 7) : exec (.rget d rod) s = execRget d rod s := rfl
theorem exec_rarm (a : BitVec 5) (rod : BitVec 7) : exec (.rarm a rod) s = execRarm a rod s := rfl
theorem exec_rwait (rod : BitVec 7) : exec (.rwait rod) s = execRwait rod s := rfl
theorem exec_rtest (d : BitVec 5) (rod : BitVec 7) : exec (.rtest d rod) s = execRtest d rod s := rfl
theorem exec_barr (rod : BitVec 7) : exec (.barr rod) s = execBarr rod s := rfl
theorem exec_bwait (rod : BitVec 7) : exec (.bwait rod) s = execBwait rod s := rfl
theorem exec_rrmt (a : BitVec 5) (b : BitVec 5) : exec (.rrmt a b) s = execRrmt a b s := rfl
theorem exec_rrmtK (a : BitVec 5) (b : BitVec 5) : exec (.rrmtK a b) s = execRrmtK a b s := rfl
theorem exec_raddX (a : BitVec 5) (b : BitVec 5) : exec (.raddX a b) s = execRaddX a b s := rfl
theorem exec_waitm (d : BitVec 5) (b : BitVec 5) : exec (.waitm d b) s = execWaitm d b s := rfl
theorem exec_bmjoin (a : BitVec 5) (b : BitVec 5) : exec (.bmjoin a b) s = execBmjoin a b s := rfl
theorem exec_bmarr (a : BitVec 5) : exec (.bmarr a) s = execBmarr a s := rfl
theorem exec_bmwait (a : BitVec 5) : exec (.bmwait a) s = execBmwait a s := rfl
theorem exec_bmq (d : BitVec 5) (a : BitVec 5) : exec (.bmq d a) s = execBmq d a s := rfl
theorem exec_bmleave (a : BitVec 5) : exec (.bmleave a) s = execBmleave a s := rfl
theorem exec_tok (a : BitVec 5) : exec (.tok a) s = execTok a s := rfl
theorem exec_tokv (d : BitVec 5) (a : BitVec 5) (b : BitVec 5) : exec (.tokv d a b) s = execTokv d a b s := rfl
theorem exec_ncan (a : BitVec 5) : exec (.ncan a) s = execNcan a s := rfl
theorem exec_narm (d : BitVec 5) (a : BitVec 5) : exec (.narm d a) s = execNarm d a s := rfl
theorem exec_ndef (d : BitVec 5) (a : BitVec 5) (b : BitVec 5) : exec (.ndef d a b) s = execNdef d a b s := rfl
theorem exec_nqry (d : BitVec 5) (a : BitVec 5) : exec (.nqry d a) s = execNqry d a s := rfl
theorem exec_evb (d : BitVec 5) (a : BitVec 5) (b : BitVec 5) : exec (.evb d a b) s = execEvb d a b s := rfl
theorem exec_evu (d : BitVec 5) (a : BitVec 5) : exec (.evu d a) s = execEvu d a s := rfl
theorem exec_vaddVv (d : BitVec 5) (a : BitVec 5) (b : BitVec 5) (m : BitVec 3) (esz : BitVec 2) : exec (.vaddVv d a b m esz) s = execVaddVv d a b m esz s := rfl
theorem exec_vsubVv (d : BitVec 5) (a : BitVec 5) (b : BitVec 5) (m : BitVec 3) (esz : BitVec 2) : exec (.vsubVv d a b m esz) s = execVsubVv d a b m esz s := rfl
theorem exec_vmulVv (d : BitVec 5) (a : BitVec 5) (b : BitVec 5) (m : BitVec 3) (esz : BitVec 2) : exec (.vmulVv d a b m esz) s = execVmulVv d a b m esz s := rfl
theorem exec_vmulhVv (d : BitVec 5) (a : BitVec 5) (b : BitVec 5) (m : BitVec 3) (esz : BitVec 2) : exec (.vmulhVv d a b m esz) s = execVmulhVv d a b m esz s := rfl
theorem exec_vminVv (d : BitVec 5) (a : BitVec 5) (b : BitVec 5) (m : BitVec 3) (esz : BitVec 2) : exec (.vminVv d a b m esz) s = execVminVv d a b m esz s := rfl
theorem exec_vmaxVv (d : BitVec 5) (a : BitVec 5) (b : BitVec 5) (m : BitVec 3) (esz : BitVec 2) : exec (.vmaxVv d a b m esz) s = execVmaxVv d a b m esz s := rfl
theorem exec_vminuVv (d : BitVec 5) (a : BitVec 5) (b : BitVec 5) (m : BitVec 3) (esz : BitVec 2) : exec (.vminuVv d a b m esz) s = execVminuVv d a b m esz s := rfl
theorem exec_vmaxuVv (d : BitVec 5) (a : BitVec 5) (b : BitVec 5) (m : BitVec 3) (esz : BitVec 2) : exec (.vmaxuVv d a b m esz) s = execVmaxuVv d a b m esz s := rfl
theorem exec_vandVv (d : BitVec 5) (a : BitVec 5) (b : BitVec 5) (m : BitVec 3) (esz : BitVec 2) : exec (.vandVv d a b m esz) s = execVandVv d a b m esz s := rfl
theorem exec_vorVv (d : BitVec 5) (a : BitVec 5) (b : BitVec 5) (m : BitVec 3) (esz : BitVec 2) : exec (.vorVv d a b m esz) s = execVorVv d a b m esz s := rfl
theorem exec_vxorVv (d : BitVec 5) (a : BitVec 5) (b : BitVec 5) (m : BitVec 3) (esz : BitVec 2) : exec (.vxorVv d a b m esz) s = execVxorVv d a b m esz s := rfl
theorem exec_vshlVv (d : BitVec 5) (a : BitVec 5) (b : BitVec 5) (m : BitVec 3) (esz : BitVec 2) : exec (.vshlVv d a b m esz) s = execVshlVv d a b m esz s := rfl
theorem exec_vshrVv (d : BitVec 5) (a : BitVec 5) (b : BitVec 5) (m : BitVec 3) (esz : BitVec 2) : exec (.vshrVv d a b m esz) s = execVshrVv d a b m esz s := rfl
theorem exec_vshaVv (d : BitVec 5) (a : BitVec 5) (b : BitVec 5) (m : BitVec 3) (esz : BitVec 2) : exec (.vshaVv d a b m esz) s = execVshaVv d a b m esz s := rfl
theorem exec_vaddsatVv (d : BitVec 5) (a : BitVec 5) (b : BitVec 5) (m : BitVec 3) (esz : BitVec 2) : exec (.vaddsatVv d a b m esz) s = execVaddsatVv d a b m esz s := rfl
theorem exec_vsubsatVv (d : BitVec 5) (a : BitVec 5) (b : BitVec 5) (m : BitVec 3) (esz : BitVec 2) : exec (.vsubsatVv d a b m esz) s = execVsubsatVv d a b m esz s := rfl
theorem exec_vaddVs (d : BitVec 5) (a : BitVec 5) (b : BitVec 5) (m : BitVec 3) (esz : BitVec 2) : exec (.vaddVs d a b m esz) s = execVaddVs d a b m esz s := rfl
theorem exec_vsubVs (d : BitVec 5) (a : BitVec 5) (b : BitVec 5) (m : BitVec 3) (esz : BitVec 2) : exec (.vsubVs d a b m esz) s = execVsubVs d a b m esz s := rfl
theorem exec_vmulVs (d : BitVec 5) (a : BitVec 5) (b : BitVec 5) (m : BitVec 3) (esz : BitVec 2) : exec (.vmulVs d a b m esz) s = execVmulVs d a b m esz s := rfl
theorem exec_vmulhVs (d : BitVec 5) (a : BitVec 5) (b : BitVec 5) (m : BitVec 3) (esz : BitVec 2) : exec (.vmulhVs d a b m esz) s = execVmulhVs d a b m esz s := rfl
theorem exec_vminVs (d : BitVec 5) (a : BitVec 5) (b : BitVec 5) (m : BitVec 3) (esz : BitVec 2) : exec (.vminVs d a b m esz) s = execVminVs d a b m esz s := rfl
theorem exec_vmaxVs (d : BitVec 5) (a : BitVec 5) (b : BitVec 5) (m : BitVec 3) (esz : BitVec 2) : exec (.vmaxVs d a b m esz) s = execVmaxVs d a b m esz s := rfl
theorem exec_vminuVs (d : BitVec 5) (a : BitVec 5) (b : BitVec 5) (m : BitVec 3) (esz : BitVec 2) : exec (.vminuVs d a b m esz) s = execVminuVs d a b m esz s := rfl
theorem exec_vmaxuVs (d : BitVec 5) (a : BitVec 5) (b : BitVec 5) (m : BitVec 3) (esz : BitVec 2) : exec (.vmaxuVs d a b m esz) s = execVmaxuVs d a b m esz s := rfl
theorem exec_vandVs (d : BitVec 5) (a : BitVec 5) (b : BitVec 5) (m : BitVec 3) (esz : BitVec 2) : exec (.vandVs d a b m esz) s = execVandVs d a b m esz s := rfl
theorem exec_vorVs (d : BitVec 5) (a : BitVec 5) (b : BitVec 5) (m : BitVec 3) (esz : BitVec 2) : exec (.vorVs d a b m esz) s = execVorVs d a b m esz s := rfl
theorem exec_vxorVs (d : BitVec 5) (a : BitVec 5) (b : BitVec 5) (m : BitVec 3) (esz : BitVec 2) : exec (.vxorVs d a b m esz) s = execVxorVs d a b m esz s := rfl
theorem exec_vshlVs (d : BitVec 5) (a : BitVec 5) (b : BitVec 5) (m : BitVec 3) (esz : BitVec 2) : exec (.vshlVs d a b m esz) s = execVshlVs d a b m esz s := rfl
theorem exec_vshrVs (d : BitVec 5) (a : BitVec 5) (b : BitVec 5) (m : BitVec 3) (esz : BitVec 2) : exec (.vshrVs d a b m esz) s = execVshrVs d a b m esz s := rfl
theorem exec_vshaVs (d : BitVec 5) (a : BitVec 5) (b : BitVec 5) (m : BitVec 3) (esz : BitVec 2) : exec (.vshaVs d a b m esz) s = execVshaVs d a b m esz s := rfl
theorem exec_vaddsatVs (d : BitVec 5) (a : BitVec 5) (b : BitVec 5) (m : BitVec 3) (esz : BitVec 2) : exec (.vaddsatVs d a b m esz) s = execVaddsatVs d a b m esz s := rfl
theorem exec_vsubsatVs (d : BitVec 5) (a : BitVec 5) (b : BitVec 5) (m : BitVec 3) (esz : BitVec 2) : exec (.vsubsatVs d a b m esz) s = execVsubsatVs d a b m esz s := rfl
theorem exec_vfaddVv (d : BitVec 5) (a : BitVec 5) (b : BitVec 5) (m : BitVec 3) (esz : BitVec 2) : exec (.vfaddVv d a b m esz) s = execVfaddVv d a b m esz s := rfl
theorem exec_vfsubVv (d : BitVec 5) (a : BitVec 5) (b : BitVec 5) (m : BitVec 3) (esz : BitVec 2) : exec (.vfsubVv d a b m esz) s = execVfsubVv d a b m esz s := rfl
theorem exec_vfmulVv (d : BitVec 5) (a : BitVec 5) (b : BitVec 5) (m : BitVec 3) (esz : BitVec 2) : exec (.vfmulVv d a b m esz) s = execVfmulVv d a b m esz s := rfl
theorem exec_vfmaVv (d : BitVec 5) (a : BitVec 5) (b : BitVec 5) (m : BitVec 3) (esz : BitVec 2) : exec (.vfmaVv d a b m esz) s = execVfmaVv d a b m esz s := rfl
theorem exec_vfmsVv (d : BitVec 5) (a : BitVec 5) (b : BitVec 5) (m : BitVec 3) (esz : BitVec 2) : exec (.vfmsVv d a b m esz) s = execVfmsVv d a b m esz s := rfl
theorem exec_vfnmaVv (d : BitVec 5) (a : BitVec 5) (b : BitVec 5) (m : BitVec 3) (esz : BitVec 2) : exec (.vfnmaVv d a b m esz) s = execVfnmaVv d a b m esz s := rfl
theorem exec_vfminVv (d : BitVec 5) (a : BitVec 5) (b : BitVec 5) (m : BitVec 3) (esz : BitVec 2) : exec (.vfminVv d a b m esz) s = execVfminVv d a b m esz s := rfl
theorem exec_vfmaxVv (d : BitVec 5) (a : BitVec 5) (b : BitVec 5) (m : BitVec 3) (esz : BitVec 2) : exec (.vfmaxVv d a b m esz) s = execVfmaxVv d a b m esz s := rfl
theorem exec_vfdivVv (d : BitVec 5) (a : BitVec 5) (b : BitVec 5) (m : BitVec 3) (esz : BitVec 2) : exec (.vfdivVv d a b m esz) s = execVfdivVv d a b m esz s := rfl
theorem exec_vfsqrt (d : BitVec 5) (a : BitVec 5) (m : BitVec 3) (esz : BitVec 2) : exec (.vfsqrt d a m esz) s = execVfsqrt d a m esz s := rfl
theorem exec_vfrsqe (d : BitVec 5) (a : BitVec 5) (m : BitVec 3) (esz : BitVec 2) : exec (.vfrsqe d a m esz) s = execVfrsqe d a m esz s := rfl
theorem exec_vfrcpe (d : BitVec 5) (a : BitVec 5) (m : BitVec 3) (esz : BitVec 2) : exec (.vfrcpe d a m esz) s = execVfrcpe d a m esz s := rfl
theorem exec_vfabs (d : BitVec 5) (a : BitVec 5) (m : BitVec 3) (esz : BitVec 2) : exec (.vfabs d a m esz) s = execVfabs d a m esz s := rfl
theorem exec_vfneg (d : BitVec 5) (a : BitVec 5) (m : BitVec 3) (esz : BitVec 2) : exec (.vfneg d a m esz) s = execVfneg d a m esz s := rfl
theorem exec_vfcpysVv (d : BitVec 5) (a : BitVec 5) (b : BitVec 5) (m : BitVec 3) (esz : BitVec 2) : exec (.vfcpysVv d a b m esz) s = execVfcpysVv d a b m esz s := rfl
theorem exec_vfclass (d : BitVec 5) (a : BitVec 5) (m : BitVec 3) (esz : BitVec 2) : exec (.vfclass d a m esz) s = execVfclass d a m esz s := rfl
theorem exec_vfaddVs (d : BitVec 5) (a : BitVec 5) (b : BitVec 5) (m : BitVec 3) (esz : BitVec 2) : exec (.vfaddVs d a b m esz) s = execVfaddVs d a b m esz s := rfl
theorem exec_vfsubVs (d : BitVec 5) (a : BitVec 5) (b : BitVec 5) (m : BitVec 3) (esz : BitVec 2) : exec (.vfsubVs d a b m esz) s = execVfsubVs d a b m esz s := rfl
theorem exec_vfmulVs (d : BitVec 5) (a : BitVec 5) (b : BitVec 5) (m : BitVec 3) (esz : BitVec 2) : exec (.vfmulVs d a b m esz) s = execVfmulVs d a b m esz s := rfl
theorem exec_vfmaVs (d : BitVec 5) (a : BitVec 5) (b : BitVec 5) (m : BitVec 3) (esz : BitVec 2) : exec (.vfmaVs d a b m esz) s = execVfmaVs d a b m esz s := rfl
theorem exec_vfmsVs (d : BitVec 5) (a : BitVec 5) (b : BitVec 5) (m : BitVec 3) (esz : BitVec 2) : exec (.vfmsVs d a b m esz) s = execVfmsVs d a b m esz s := rfl
theorem exec_vfnmaVs (d : BitVec 5) (a : BitVec 5) (b : BitVec 5) (m : BitVec 3) (esz : BitVec 2) : exec (.vfnmaVs d a b m esz) s = execVfnmaVs d a b m esz s := rfl
theorem exec_vfminVs (d : BitVec 5) (a : BitVec 5) (b : BitVec 5) (m : BitVec 3) (esz : BitVec 2) : exec (.vfminVs d a b m esz) s = execVfminVs d a b m esz s := rfl
theorem exec_vfmaxVs (d : BitVec 5) (a : BitVec 5) (b : BitVec 5) (m : BitVec 3) (esz : BitVec 2) : exec (.vfmaxVs d a b m esz) s = execVfmaxVs d a b m esz s := rfl
theorem exec_vfdivVs (d : BitVec 5) (a : BitVec 5) (b : BitVec 5) (m : BitVec 3) (esz : BitVec 2) : exec (.vfdivVs d a b m esz) s = execVfdivVs d a b m esz s := rfl
theorem exec_vfcpysVs (d : BitVec 5) (a : BitVec 5) (b : BitVec 5) (m : BitVec 3) (esz : BitVec 2) : exec (.vfcpysVs d a b m esz) s = execVfcpysVs d a b m esz s := rfl
theorem exec_vmov (d : BitVec 5) (a : BitVec 5) (m : BitVec 3) (esz : BitVec 2) : exec (.vmov d a m esz) s = execVmov d a m esz s := rfl
theorem exec_vbcst (d : BitVec 5) (b : BitVec 5) (m : BitVec 3) (esz : BitVec 2) : exec (.vbcst d b m esz) s = execVbcst d b m esz s := rfl
theorem exec_vext (d : BitVec 5) (a : BitVec 5) (b : BitVec 5) (esz : BitVec 2) : exec (.vext d a b esz) s = execVext d a b esz s := rfl
theorem exec_vins (d : BitVec 5) (a : BitVec 5) (b : BitVec 5) (esz : BitVec 2) : exec (.vins d a b esz) s = execVins d a b esz s := rfl
theorem exec_vsel (d : BitVec 5) (a : BitVec 5) (b : BitVec 5) (m : BitVec 3) (esz : BitVec 2) : exec (.vsel d a b m esz) s = execVsel d a b m esz s := rfl
theorem exec_vperm (d : BitVec 5) (a : BitVec 5) (b : BitVec 5) (m : BitVec 3) (esz : BitVec 2) : exec (.vperm d a b m esz) s = execVperm d a b m esz s := rfl
theorem exec_vrot (d : BitVec 5) (a : BitVec 5) (b : BitVec 5) (m : BitVec 3) (esz : BitVec 2) : exec (.vrot d a b m esz) s = execVrot d a b m esz s := rfl
theorem exec_vzip (d : BitVec 5) (a : BitVec 5) (b : BitVec 5) (m : BitVec 3) (esz : BitVec 2) : exec (.vzip d a b m esz) s = execVzip d a b m esz s := rfl
theorem exec_vunzip (d : BitVec 5) (a : BitVec 5) (b : BitVec 5) (m : BitVec 3) (esz : BitVec 2) : exec (.vunzip d a b m esz) s = execVunzip d a b m esz s := rfl
theorem exec_viota (d : BitVec 5) (m : BitVec 3) (esz : BitVec 2) : exec (.viota d m esz) s = execViota d m esz s := rfl
theorem exec_vradd (d : BitVec 5) (a : BitVec 5) (m : BitVec 3) (esz : BitVec 2) : exec (.vradd d a m esz) s = execVradd d a m esz s := rfl
theorem exec_vrmax (d : BitVec 5) (a : BitVec 5) (m : BitVec 3) (esz : BitVec 2) : exec (.vrmax d a m esz) s = execVrmax d a m esz s := rfl
theorem exec_vrmin (d : BitVec 5) (a : BitVec 5) (m : BitVec 3) (esz : BitVec 2) : exec (.vrmin d a m esz) s = execVrmin d a m esz s := rfl
theorem exec_vrmaxu (d : BitVec 5) (a : BitVec 5) (m : BitVec 3) (esz : BitVec 2) : exec (.vrmaxu d a m esz) s = execVrmaxu d a m esz s := rfl
theorem exec_vrminu (d : BitVec 5) (a : BitVec 5) (m : BitVec 3) (esz : BitVec 2) : exec (.vrminu d a m esz) s = execVrminu d a m esz s := rfl
theorem exec_vrfadd (d : BitVec 5) (a : BitVec 5) (m : BitVec 3) (esz : BitVec 2) : exec (.vrfadd d a m esz) s = execVrfadd d a m esz s := rfl
theorem exec_vrfmax (d : BitVec 5) (a : BitVec 5) (m : BitVec 3) (esz : BitVec 2) : exec (.vrfmax d a m esz) s = execVrfmax d a m esz s := rfl
theorem exec_vrfmin (d : BitVec 5) (a : BitVec 5) (m : BitVec 3) (esz : BitVec 2) : exec (.vrfmin d a m esz) s = execVrfmin d a m esz s := rfl
theorem exec_vpopc (d : BitVec 5) (a : BitVec 5) (m : BitVec 3) (esz : BitVec 2) : exec (.vpopc d a m esz) s = execVpopc d a m esz s := rfl
theorem exec_vfirst (d : BitVec 5) (a : BitVec 5) (m : BitVec 3) (esz : BitVec 2) : exec (.vfirst d a m esz) s = execVfirst d a m esz s := rfl
theorem exec_vcmpEq (d : BitVec 5) (a : BitVec 5) (b : BitVec 5) (m : BitVec 3) (esz : BitVec 2) : exec (.vcmpEq d a b m esz) s = execVcmpEq d a b m esz s := rfl
theorem exec_vcmpNe (d : BitVec 5) (a : BitVec 5) (b : BitVec 5) (m : BitVec 3) (esz : BitVec 2) : exec (.vcmpNe d a b m esz) s = execVcmpNe d a b m esz s := rfl
theorem exec_vcmpLt (d : BitVec 5) (a : BitVec 5) (b : BitVec 5) (m : BitVec 3) (esz : BitVec 2) : exec (.vcmpLt d a b m esz) s = execVcmpLt d a b m esz s := rfl
theorem exec_vcmpLe (d : BitVec 5) (a : BitVec 5) (b : BitVec 5) (m : BitVec 3) (esz : BitVec 2) : exec (.vcmpLe d a b m esz) s = execVcmpLe d a b m esz s := rfl
theorem exec_vcmpLtu (d : BitVec 5) (a : BitVec 5) (b : BitVec 5) (m : BitVec 3) (esz : BitVec 2) : exec (.vcmpLtu d a b m esz) s = execVcmpLtu d a b m esz s := rfl
theorem exec_vcmpLeu (d : BitVec 5) (a : BitVec 5) (b : BitVec 5) (m : BitVec 3) (esz : BitVec 2) : exec (.vcmpLeu d a b m esz) s = execVcmpLeu d a b m esz s := rfl
theorem exec_vcmpFeq (d : BitVec 5) (a : BitVec 5) (b : BitVec 5) (m : BitVec 3) (esz : BitVec 2) : exec (.vcmpFeq d a b m esz) s = execVcmpFeq d a b m esz s := rfl
theorem exec_vcmpFlt (d : BitVec 5) (a : BitVec 5) (b : BitVec 5) (m : BitVec 3) (esz : BitVec 2) : exec (.vcmpFlt d a b m esz) s = execVcmpFlt d a b m esz s := rfl
theorem exec_vcmpFle (d : BitVec 5) (a : BitVec 5) (b : BitVec 5) (m : BitVec 3) (esz : BitVec 2) : exec (.vcmpFle d a b m esz) s = execVcmpFle d a b m esz s := rfl
theorem exec_vcmpFun (d : BitVec 5) (a : BitVec 5) (b : BitVec 5) (m : BitVec 3) (esz : BitVec 2) : exec (.vcmpFun d a b m esz) s = execVcmpFun d a b m esz s := rfl
theorem exec_mand (d : BitVec 5) (a : BitVec 5) (b : BitVec 5) : exec (.mand d a b) s = execMand d a b s := rfl
theorem exec_mor (d : BitVec 5) (a : BitVec 5) (b : BitVec 5) : exec (.mor d a b) s = execMor d a b s := rfl
theorem exec_mxor (d : BitVec 5) (a : BitVec 5) (b : BitVec 5) : exec (.mxor d a b) s = execMxor d a b s := rfl
theorem exec_mandn (d : BitVec 5) (a : BitVec 5) (b : BitVec 5) : exec (.mandn d a b) s = execMandn d a b s := rfl
theorem exec_mnot (d : BitVec 5) (a : BitVec 5) : exec (.mnot d a) s = execMnot d a s := rfl
theorem exec_mfirstn (d : BitVec 5) (a : BitVec 5) : exec (.mfirstn d a) s = execMfirstn d a s := rfl
theorem exec_mcnt (d : BitVec 5) (a : BitVec 5) : exec (.mcnt d a) s = execMcnt d a s := rfl
theorem exec_vcvt (d : BitVec 5) (a : BitVec 5) (rm : BitVec 3) (dst : BitVec 4) (src : BitVec 4) (sat : Bool) : exec (.vcvt d a rm dst src sat) s = execVcvt d a rm dst src sat s := rfl
theorem exec_qnt (d : BitVec 5) (a : BitVec 5) (b : BitVec 5) (tgt : BitVec 3) (rm : BitVec 3) (sat : Bool) : exec (.qnt d a b tgt rm sat) s = execQnt d a b tgt rm sat s := rfl
theorem exec_dqt (d : BitVec 5) (a : BitVec 5) (b : BitVec 5) (tgt : BitVec 3) : exec (.dqt d a b tgt) s = execDqt d a b tgt s := rfl
theorem exec_bamax (d : BitVec 5) (a : BitVec 5) : exec (.bamax d a) s = execBamax d a s := rfl
theorem exec_scld (d : BitVec 5) (a : BitVec 5) (tgt : BitVec 3) : exec (.scld d a tgt) s = execScld d a tgt s := rfl
theorem exec_macq : exec .macq s = execMacq s := rfl
theorem exec_mrel : exec .mrel s = execMrel s := rfl
theorem exec_mzero (a : BitVec 5) : exec (.mzero a) s = execMzero a s := rfl
theorem exec_mrd (d : BitVec 5) (a : BitVec 5) (b : BitVec 5) : exec (.mrd d a b) s = execMrd d a b s := rfl
theorem exec_mwr (d : BitVec 5) (a : BitVec 5) (b : BitVec 5) : exec (.mwr d a b) s = execMwr d a b s := rfl
theorem exec_mscl (d : BitVec 5) (a : BitVec 5) : exec (.mscl d a) s = execMscl d a s := rfl
theorem exec_mchk (d : BitVec 5) (a : BitVec 5) : exec (.mchk d a) s = execMchk d a s := rfl
theorem exec_sset (a : BitVec 5) : exec (.sset a) s = execSset a s := rfl
theorem exec_mma (d : BitVec 5) (a : BitVec 5) (b : BitVec 5) (fmt : BitVec 4) (inc : Bool) (sp : Bool) (init : Bool) : exec (.mma d a b fmt inc sp init) s = execMma d a b fmt inc sp init s := rfl
theorem exec_tsld (d : BitVec 5) : exec (.tsld d) s = execTsld d s := rfl
theorem exec_tsst (a : BitVec 5) : exec (.tsst a) s = execTsst a s := rfl
theorem exec_tsfill (a : BitVec 5) (b : BitVec 5) : exec (.tsfill a b) s = execTsfill a b s := rfl
theorem exec_cpy : exec .cpy s = execCpy s := rfl
theorem exec_cpyd : exec .cpyd s = execCpyd s := rfl
theorem exec_cpyx : exec .cpyx s = execCpyx s := rfl
theorem exec_cpyts : exec .cpyts s = execCpyts s := rfl
theorem exec_cpyr : exec .cpyr s = execCpyr s := rfl
theorem exec_cpyq (d : BitVec 5) : exec (.cpyq d) s = execCpyq d s := rfl
theorem exec_ckdecl (d : BitVec 5) (a : BitVec 5) (b : BitVec 5) : exec (.ckdecl d a b) s = execCkdecl d a b s := rfl
theorem exec_srcdecl (d : BitVec 5) (a : BitVec 5) (b : BitVec 5) : exec (.srcdecl d a b) s = execSrcdecl d a b s := rfl
theorem exec_sgadd (a : BitVec 5) : exec (.sgadd a) s = execSgadd a s := rfl
theorem exec_sgqry (d : BitVec 5) : exec (.sgqry d) s = execSgqry d s := rfl
theorem exec_agerd (d : BitVec 5) (a : BitVec 5) : exec (.agerd d a) s = execAgerd d a s := rfl
theorem exec_pwrrd (d : BitVec 5) (a : BitVec 5) : exec (.pwrrd d a) s = execPwrrd d a s := rfl
theorem exec_pwrw (a : BitVec 5) (b : BitVec 5) : exec (.pwrw a b) s = execPwrw a b s := rfl
theorem exec_rtqry (d : BitVec 5) (a : BitVec 5) : exec (.rtqry d a) s = execRtqry d a s := rfl
theorem exec_csrr (d : BitVec 5) (csr : BitVec 12) : exec (.csrr d csr) s = execCsrr d csr s := rfl
theorem exec_csrw (a : BitVec 5) (csr : BitVec 12) : exec (.csrw a csr) s = execCsrw a csr s := rfl
theorem exec_csrs (d : BitVec 5) (a : BitVec 5) (csr : BitVec 12) : exec (.csrs d a csr) s = execCsrs d a csr s := rfl
theorem exec_csrc (d : BitVec 5) (a : BitVec 5) (csr : BitVec 12) : exec (.csrc d a csr) s = execCsrc d a csr s := rfl
theorem exec_tresume (d : BitVec 5) (a : BitVec 5) (b : BitVec 5) : exec (.tresume d a b) s = execTresume d a b s := rfl
theorem exec_tabort (d : BitVec 5) (a : BitVec 5) (b : BitVec 5) : exec (.tabort d a b) s = execTabort d a b s := rfl
theorem exec_tlbfill (d : BitVec 5) (a : BitVec 5) (b : BitVec 5) : exec (.tlbfill d a b) s = execTlbfill d a b s := rfl
theorem exec_tlbinv (a : BitVec 5) (b : BitVec 5) : exec (.tlbinv a b) s = execTlbinv a b s := rfl
theorem exec_wssw (a : BitVec 5) : exec (.wssw a) s = execWssw a s := rfl
theorem exec_svc (a : BitVec 5) : exec (.svc a) s = execSvc a s := rfl
theorem exec_brk : exec .brk s = execBrk s := rfl
theorem exec_halt (a : BitVec 5) (b : BitVec 5) : exec (.halt a b) s = execHalt a b s := rfl
theorem exec_idle : exec .idle s = execIdle s := rfl
theorem exec_bmmask (a : BitVec 5) (b : BitVec 5) : exec (.bmmask a b) s = execBmmask a b s := rfl
theorem exec_udf (x : BitVec 24) : exec (.udf x) s = execUdf x s := rfl
theorem exec_ill : exec .ill s = execIll s := rfl
theorem exec_cNop : exec .cNop s = execCNop s := rfl
theorem exec_cNend : exec .cNend s = execCNend s := rfl
theorem exec_cRet : exec .cRet s = execCRet s := rfl
theorem exec_cMov (d : BitVec 4) (a : BitVec 4) : exec (.cMov d a) s = execCMov d a s := rfl
theorem exec_cAddi (d : BitVec 4) (imm : BitVec 8) : exec (.cAddi d imm) s = execCAddi d imm s := rfl
theorem exec_cLi (d : BitVec 4) (imm : BitVec 8) : exec (.cLi d imm) s = execCLi d imm s := rfl
theorem exec_cAdd (d : BitVec 4) (a : BitVec 4) (b : BitVec 4) : exec (.cAdd d a b) s = execCAdd d a b s := rfl
theorem exec_cSub (d : BitVec 4) (a : BitVec 4) (b : BitVec 4) : exec (.cSub d a b) s = execCSub d a b s := rfl
theorem exec_cLdw (d : BitVec 4) (a : BitVec 4) (off : BitVec 4) : exec (.cLdw d a off) s = execCLdw d a off s := rfl
theorem exec_cStw (t : BitVec 4) (a : BitVec 4) (off : BitVec 4) : exec (.cStw t a off) s = execCStw t a off s := rfl
theorem exec_cBeqz (a : BitVec 4) (off : BitVec 8) : exec (.cBeqz a off) s = execCBeqz a off s := rfl
theorem exec_cBnez (a : BitVec 4) (off : BitVec 8) : exec (.cBnez a off) s = execCBnez a off s := rfl
theorem exec_cBr (off : BitVec 12) : exec (.cBr off) s = execCBr off s := rfl
theorem exec_cShli (d : BitVec 4) (amt : BitVec 6) : exec (.cShli d amt) s = execCShli d amt s := rfl
theorem exec_sqtailNotify (p : Nat) (q : Nat) (v : BitVec 32) : exec (.sqtailNotify p q v) s = execSqtailNotify p q v s := rfl
theorem exec_queueSlotMap (p : Nat) : exec (.queueSlotMap p) s = execQueueSlotMap p s := rfl
theorem exec_launchRecord (p : Nat) : exec (.launchRecord p) s = execLaunchRecord p s := rfl
theorem exec_haltRecord (p : Nat) : exec (.haltRecord p) s = execHaltRecord p s := rfl
theorem exec_resumeRecord (p : Nat) : exec (.resumeRecord p) s = execResumeRecord p s := rfl
theorem exec_cancelRecord (p : Nat) : exec (.cancelRecord p) s = execCancelRecord p s := rfl
theorem exec_cqhead (p : Nat) (q : Nat) (v : BitVec 32) : exec (.cqhead p q v) s = execCqhead p q v s := rfl
theorem exec_nodeStart (dt : Nat) (stg : Bool) : exec (.nodeStart dt stg) s = execNodeStart dt stg s := rfl
theorem exec_urgentStart (dt : Nat) (stg : Bool) : exec (.urgentStart dt stg) s = execUrgentStart dt stg s := rfl
theorem exec_commit (key : Nat) : exec (.commit key) s = execCommit key s := rfl
theorem exec_borrow (key : Nat) : exec (.borrow key) s = execBorrow key s := rfl
theorem exec_epochAck (dt : Nat) : exec (.epochAck dt) s = execEpochAck dt s := rfl
theorem exec_token (n : Nat) : exec (.token n) s = execToken n s := rfl
theorem exec_restoreItem (n : Nat) : exec (.restoreItem n) s = execRestoreItem n s := rfl
theorem exec_beadReturn (n : Nat) : exec (.beadReturn n) s = execBeadReturn n s := rfl
theorem exec_nodeRetry (key : Nat) : exec (.nodeRetry key) s = execNodeRetry key s := rfl
theorem exec_budgetExpiry (key : Nat) : exec (.budgetExpiry key) s = execBudgetExpiry key s := rfl
theorem exec_accessResponse (n : Nat) : exec (.accessResponse n) s = execAccessResponse n s := rfl
theorem exec_trapMessage (n : Nat) : exec (.trapMessage n) s = execTrapMessage n s := rfl
theorem exec_remoteRodAdd (n : Nat) : exec (.remoteRodAdd n) s = execRemoteRodAdd n s := rfl
theorem exec_copyPost (c : Nat) : exec (.copyPost c) s = execCopyPost c s := rfl
theorem exec_copySegment (c : Nat) : exec (.copySegment c) s = execCopySegment c s := rfl
theorem exec_segmentDelivery (c : Nat) (k : Nat) : exec (.segmentDelivery c k) s = execSegmentDelivery c k s := rfl
theorem exec_copyQueuePush (c : Nat) : exec (.copyQueuePush c) s = execCopyQueuePush c s := rfl
theorem exec_copyEnd (c : Nat) : exec (.copyEnd c) s = execCopyEnd c s := rfl
theorem exec_beamRaise (p : Nat) (g : Nat) (vt : Nat) : exec (.beamRaise p g vt) s = execBeamRaise p g vt s := rfl
theorem exec_beamRelease (p : Nat) (g : Nat) (vt : Nat) : exec (.beamRelease p g vt) s = execBeamRelease p g vt s := rfl
theorem exec_routerDeath (p : Nat) (pt : Nat) : exec (.routerDeath p pt) s = execRouterDeath p pt s := rfl
theorem exec_beamRecombine (p : Nat) (die : Nat) : exec (.beamRecombine p die) s = execBeamRecombine p die s := rfl
theorem exec_rotcmdGo (p : Nat) (die : Nat) (v : BitVec 64) : exec (.rotcmdGo p die v) s = execRotcmdGo p die v s := rfl
theorem exec_rotcmdEmerg (p : Nat) (die : Nat) (v : BitVec 64) : exec (.rotcmdEmerg p die v) s = execRotcmdEmerg p die v s := rfl
theorem exec_drainEnd (p : Nat) (die : Nat) : exec (.drainEnd p die) s = execDrainEnd p die s := rfl
theorem exec_drainLimitExpiry (p : Nat) (die : Nat) : exec (.drainLimitExpiry p die) s = execDrainLimitExpiry p die s := rfl
theorem exec_remap (p : Nat) (die : Nat) : exec (.remap p die) s = execRemap p die s := rfl
theorem exec_mapGenerationApply (p : Nat) (r : Nat) : exec (.mapGenerationApply p r) s = execMapGenerationApply p r s := rfl
theorem exec_marker (p : Nat) (r : Nat) : exec (.marker p r) s = execMarker p r s := rfl
theorem exec_selfTestDone (p : Nat) (pt : Nat) (pass : Bool) (vmin : BitVec 64) : exec (.selfTestDone p pt pass vmin) s = execSelfTestDone p pt pass vmin s := rfl
theorem exec_epochTimer (dt : Nat) : exec (.epochTimer dt) s = execEpochTimer dt s := rfl
theorem exec_epochApply (dt : Nat) : exec (.epochApply dt) s = execEpochApply dt s := rfl
theorem exec_durableAck (n : Nat) : exec (.durableAck n) s = execDurableAck n s := rfl
theorem exec_tileLoss (p : Nat) (pt : Nat) : exec (.tileLoss p pt) s = execTileLoss p pt s := rfl
theorem exec_restoreNotice (dt : Nat) (lost : Nat) : exec (.restoreNotice dt lost) s = execRestoreNotice dt lost s := rfl
theorem exec_restoreResend (dt : Nat) : exec (.restoreResend dt) s = execRestoreResend dt s := rfl
theorem exec_screenCompare (key : Nat) : exec (.screenCompare key) s = execScreenCompare key s := rfl
theorem exec_silenceProbe (p : Nat) (pt : Nat) : exec (.silenceProbe p pt) s = execSilenceProbe p pt s := rfl
theorem exec_probeAnswer (p : Nat) (pt : Nat) : exec (.probeAnswer p pt) s = execProbeAnswer p pt s := rfl
theorem exec_probeTimeout (p : Nat) (pt : Nat) : exec (.probeTimeout p pt) s = execProbeTimeout p pt s := rfl
theorem exec_quantaGrant (dt : Nat) : exec (.quantaGrant dt) s = execQuantaGrant dt s := rfl
theorem exec_reserveShare (dt : Nat) : exec (.reserveShare dt) s = execReserveShare dt s := rfl
theorem exec_migrationGo (p : Nat) (die : Nat) (v : BitVec 64) : exec (.migrationGo p die v) s = execMigrationGo p die v s := rfl
theorem exec_migrationRoundEnd (p : Nat) (die : Nat) : exec (.migrationRoundEnd p die) s = execMigrationRoundEnd p die s := rfl
theorem exec_ptcmdSpareToReplica (p : Nat) (die : Nat) (v : BitVec 64) : exec (.ptcmdSpareToReplica p die v) s = execPtcmdSpareToReplica p die v s := rfl
theorem exec_ptcmdReplicaToSpare (p : Nat) (die : Nat) (v : BitVec 64) : exec (.ptcmdReplicaToSpare p die v) s = execPtcmdReplicaToSpare p die v s := rfl
theorem exec_ptcmdSpareToSelfTest (p : Nat) (die : Nat) (v : BitVec 64) : exec (.ptcmdSpareToSelfTest p die v) s = execPtcmdSpareToSelfTest p die v s := rfl
theorem exec_l2gate (p : Nat) (die : Nat) (v : BitVec 64) : exec (.l2gate p die v) s = execL2gate p die v s := rfl
theorem exec_seedWrite (v : BitVec 64) : exec (.seedWrite v) s = execSeedWrite v s := rfl
theorem exec_counterEvent (dt : Nat) (b : Nat) : exec (.counterEvent dt b) s = execCounterEvent dt b s := rfl
theorem exec_idleWake (fw : Nat) : exec (.idleWake fw) s = execIdleWake fw s := rfl
theorem exec_debuggerTrigger (p : Nat) (g : Nat) (rel : Bool) : exec (.debuggerTrigger p g rel) s = execDebuggerTrigger p g rel s := rfl
theorem exec_firmwareCoreReset (fw : Nat) : exec (.firmwareCoreReset fw) s = execFirmwareCoreReset fw s := rfl
theorem exec_flit (p : Nat) (port : Nat) (seq : BitVec 16) (ack : BitVec 16) (crcOk : Bool) (room : Bool) (lane : Nat) : exec (.flit p port seq ack crcOk room lane) s = execFlit p port seq ack crcOk room lane s := rfl
theorem exec_replayRequest (p : Nat) (port : Nat) (e : BitVec 16) : exec (.replayRequest p port e) s = execReplayRequest p port e s := rfl
theorem exec_idleFlit (p : Nat) (port : Nat) : exec (.idleFlit p port) s = execIdleFlit p port s := rfl
theorem exec_retrainEnd (p : Nat) (port : Nat) (good : Nat) : exec (.retrainEnd p port good) s = execRetrainEnd p port good s := rfl
theorem exec_panelShrink (p : Nat) : exec (.panelShrink p) s = execPanelShrink p s := rfl
theorem exec_boot (p : Nat) (rep : BootReport) : exec (.boot p rep) s = execBoot p rep s := rfl
theorem exec_capw (p : Nat) (v : BitVec 16) : exec (.capw p v) s = execCapw p v s := rfl
theorem exec_swbrake (p : Nat) (on : Bool) : exec (.swbrake p on) s = execSwbrake p on s := rfl
theorem exec_brkpin (p : Nat) (on : Bool) : exec (.brkpin p on) s = execBrkpin p on s := rfl
theorem exec_attestationRequest (p : Nat) (nonce : BitVec 256) : exec (.attestationRequest p nonce) s = execAttestationRequest p nonce s := rfl
theorem exec_hostRequest (p : Nat) (req : HostAccess) : exec (.hostRequest p req) s = execHostRequest p req s := rfl
theorem exec_mailboxRequest (p : Nat) (req : MailboxRequest) : exec (.mailboxRequest p req) s = execMailboxRequest p req s := rfl
theorem exec_eccError (place : EccPlace) (correctable : Bool) : exec (.eccError place correctable) s = execEccError place correctable s := rfl
theorem exec_registerWrite (p : Nat) (off : Nat) (v : BitVec 64) : exec (.registerWrite p off v) s = execRegisterWrite p off v s := rfl
theorem exec_trayAddBack (p : Nat) : exec (.trayAddBack p) s = execTrayAddBack p s := rfl
theorem exec_powerRemoval (p : Nat) : exec (.powerRemoval p) s = execPowerRemoval p s := rfl

end Sys2Proof.Machine
end

