-- ==== Sys2Proof/Laws/Tables.lean ====
section
/-! SUPPORT. The laws of tables and of byte memories: reading after writing, writing twice, and that every memory
operation keeps the canonical form. -/

namespace Sys2Proof.Machine

/-! ### Tables -/

/-- The entry just set is found. -/
@[simp] theorem tabFind_tabSet_same {α : Type} (t : List (Nat × α)) (k : Nat) (x : α) :
    tabFind (tabSet t k x) k = some x := by
  induction t with
  | nil => simp [tabSet, tabFind]
  | cons e t ih =>
    obtain ⟨j, y⟩ := e
    simp only [tabSet]
    split
    · simp [tabFind]
    · split
      · simp [tabFind]
      · rename_i h _
        simp [tabFind, h, ih]

/-- Other entries stay. -/
theorem tabFind_tabSet_ne {α : Type} (t : List (Nat × α)) {k j : Nat} (x : α) (h : j ≠ k) :
    tabFind (tabSet t k x) j = tabFind t j := by
  induction t with
  | nil => simp [tabSet, tabFind, Ne.symm h]
  | cons e t ih =>
    obtain ⟨i, y⟩ := e
    simp only [tabSet]
    split
    · rename_i hik
      subst hik
      simp [tabFind, Ne.symm h]
    · split
      · simp [tabFind, Ne.symm h]
      · simp [tabFind, ih]

/-- The second of two settings of one entry prevails. -/
@[simp] theorem tabSet_tabSet_same {α : Type} (t : List (Nat × α)) (k : Nat) (x y : α) :
    tabSet (tabSet t k x) k y = tabSet t k y := by
  induction t with
  | nil => simp [tabSet]
  | cons e t ih =>
    obtain ⟨j, z⟩ := e
    simp only [tabSet]
    split
    · simp [tabSet]
    · split
      · simp [tabSet]
      · rename_i h1 h2
        simp [tabSet, h1, h2, ih]

/-- Setting an entry to what it holds changes nothing. -/
theorem tabSet_self {α : Type} (t : List (Nat × α)) (k : Nat) (x : α)
    (h : tabFind t k = some x) (hs : t.Pairwise (fun a b => a.1 < b.1)) : tabSet t k x = t := by
  induction t with
  | nil => simp [tabFind] at h
  | cons e t ih =>
    obtain ⟨j, z⟩ := e
    simp only [tabFind] at h
    simp only [tabSet]
    split
    · rename_i hj
      subst hj
      simp at h
      simp [h]
    · rename_i hj
      simp only [hj, if_false] at h
      have hp := List.pairwise_cons.mp hs
      have hm : ∃ y, (k, y) ∈ t := by
        clear ih hp hs
        induction t with
        | nil => simp [tabFind] at h
        | cons e t ih2 =>
          obtain ⟨i, w⟩ := e
          simp only [tabFind] at h
          split at h
          · rename_i hi; subst hi; exact ⟨w, by simp⟩
          · obtain ⟨y, hy⟩ := ih2 h; exact ⟨y, by simp [hy]⟩
      obtain ⟨y, hy⟩ := hm
      have hlt : j < k := hp.1 _ hy
      split
      · omega
      · rw [ih h hp.2]

/-! ### Byte memories -/

/-- Every key of a memory is above a bound. -/
def Memory.above (b : Nat) (m : List Host.Cell) : Prop := ∀ c ∈ m, b < c.1

/-- The canonical form of a memory with a first cell. -/
theorem Memory.wf_cons (a : Nat) (x : Byte) (t : List Host.Cell) :
    Memory.wf ((a, x) :: t) = true ↔ x ≠ 0 ∧ Memory.above a t ∧ Memory.wf t = true := by
  induction t generalizing a x with
  | nil => simp [Memory.wf, Memory.above]
  | cons c t ih =>
    obtain ⟨b, y⟩ := c
    simp only [Memory.wf, Bool.and_eq_true, bne_iff_ne, ne_eq, decide_eq_true_eq]
    constructor
    · rintro ⟨⟨hx, hab⟩, hw⟩
      refine ⟨hx, ?_, hw⟩
      intro c hc
      rcases List.mem_cons.mp hc with rfl | hc
      · exact hab
      · exact Nat.lt_trans hab (((ih b y).mp hw).2.1 c hc)
    · rintro ⟨hx, ha, hw⟩
      exact ⟨⟨hx, ha (b, y) (by simp)⟩, hw⟩

/-- Writing a byte above a bound keeps the cells above it. -/
theorem Memory.above_memWrite {b : Nat} {m : List Host.Cell} (h : Memory.above b m) {a : Nat} (ha : b < a) (v : Byte) :
    Memory.above b (memWrite m a v) := by
  induction m with
  | nil =>
    simp only [memWrite]
    split
    · intro c hc; simp at hc
    · intro c hc; simp at hc; subst hc; exact ha
  | cons c t ih =>
    obtain ⟨i, x⟩ := c
    have ht : Memory.above b t := fun c hc => h c (by simp [hc])
    have hi : b < i := h (i, x) (by simp)
    simp only [memWrite]
    split
    · split
      · exact ht
      · intro c hc
        rcases List.mem_cons.mp hc with rfl | hc
        · exact ha
        · exact ht c hc
    · split
      · split
        · exact h
        · intro c hc
          rcases List.mem_cons.mp hc with rfl | hc
          · exact ha
          · exact h c hc
      · intro c hc
        rcases List.mem_cons.mp hc with rfl | hc
        · exact hi
        · exact ih ht c hc

/-- A write keeps the canonical form. -/
theorem Memory.wf_memWrite {m : List Host.Cell} (h : Memory.wf m = true) (a : Nat) (v : Byte) :
    Memory.wf (memWrite m a v) = true := by
  induction m with
  | nil =>
    simp only [memWrite]
    split <;> simp_all [Memory.wf]
  | cons c t ih =>
    obtain ⟨i, x⟩ := c
    obtain ⟨hx, hab, hw⟩ := (Memory.wf_cons i x t).mp h
    simp only [memWrite]
    split
    · rename_i hi
      split
      · exact hw
      · rename_i hv
        subst hi
        exact (Memory.wf_cons _ _ _).mpr ⟨hv, hab, hw⟩
    · split
      · rename_i hlt
        split
        · exact h
        · rename_i hv
          refine (Memory.wf_cons _ _ _).mpr ⟨hv, ?_, h⟩
          intro c hc
          rcases List.mem_cons.mp hc with rfl | hc
          · exact hlt
          · exact Nat.lt_trans hlt (hab c hc)
      · exact (Memory.wf_cons _ _ _).mpr ⟨hx, Memory.above_memWrite hab (by omega) v, ih hw⟩

/-- Writing bytes keeps the canonical form. -/
theorem Memory.wf_memWriteBytes (bs : List Byte) {m : List Host.Cell} (h : Memory.wf m = true) (a : Nat) :
    Memory.wf (memWriteBytes m a bs) = true := by
  induction bs generalizing m a with
  | nil => exact h
  | cons b t ih => exact ih (Memory.wf_memWrite h a b) (a + 1)

/-- A part of a canonical memory is canonical. -/
theorem Memory.wf_filter {m : List Host.Cell} (h : Memory.wf m = true) (p : Host.Cell → Bool) :
    Memory.wf (m.filter p) = true := by
  induction m with
  | nil => rfl
  | cons c t ih =>
    obtain ⟨i, x⟩ := c
    obtain ⟨hx, hab, hw⟩ := (Memory.wf_cons i x t).mp h
    simp only [List.filter]
    split
    · exact (Memory.wf_cons _ _ _).mpr ⟨hx, fun c hc => hab c (List.mem_filter.mp hc).1, ih hw⟩
    · exact ih hw

/-- Reading below every listed address gives zero. -/
theorem memRead_above {b : Nat} {m : List Host.Cell} (h : Memory.above b m) : memRead m b = 0 := by
  cases m with
  | nil => rfl
  | cons c t =>
    obtain ⟨i, x⟩ := c
    have hi : b < i := h (i, x) (by simp)
    have : i ≠ b := by omega
    simp [memRead, this, hi]

/-- A read after a write to the same address gives what was written. -/
@[simp] theorem memRead_memWrite_same {m : List Host.Cell} (h : Memory.wf m = true) (a : Nat) (v : Byte) :
    memRead (memWrite m a v) a = v := by
  induction m with
  | nil =>
    simp only [memWrite]
    split
    · rename_i hv; simp [memRead, hv]
    · simp [memRead]
  | cons c t ih =>
    obtain ⟨i, x⟩ := c
    obtain ⟨hx, hab, hw⟩ := (Memory.wf_cons i x t).mp h
    simp only [memWrite]
    split
    · rename_i hi
      subst hi
      split
      · rename_i hv; rw [memRead_above hab, hv]
      · simp [memRead]
    · rename_i hi
      split
      · rename_i hlt
        split
        · rename_i hv; simp [memRead, hi, hlt, hv]
        · simp [memRead]
      · rename_i hlt
        simp [memRead, hi, hlt, ih hw]

/-- A write leaves every other address alone. -/
theorem memRead_memWrite_ne {m : List Host.Cell} (h : Memory.wf m = true) {a b : Nat} (v : Byte) (hab : b ≠ a) :
    memRead (memWrite m a v) b = memRead m b := by
  induction m with
  | nil =>
    simp only [memWrite]
    split
    · rfl
    · simp [memRead, Ne.symm hab]
  | cons c t ih =>
    obtain ⟨i, x⟩ := c
    obtain ⟨hx, hup, hw⟩ := (Memory.wf_cons i x t).mp h
    simp only [memWrite]
    split
    · rename_i hi
      subst hi
      split
      · rename_i hv
        by_cases hb : b < i
        · have hub : Memory.above b t := fun c hc => Nat.lt_trans hb (hup c hc)
          simp [memRead, Ne.symm hab, hb, memRead_above hub]
        · simp [memRead, Ne.symm hab, hb]
      · simp [memRead, Ne.symm hab]
    · rename_i hi
      split
      · rename_i hlt
        split
        · rfl
        · simp only [memRead, Ne.symm hab, if_false]
          split
          · have h1 : i ≠ b := by omega
            have h2 : b < i := by omega
            simp [h1, h2]
          · rfl
      · simp only [memRead, ih hw]

/-- Reading after writing bytes: inside the written range the byte written, elsewhere the old one. -/
theorem memRead_memWriteBytes (bs : List Byte) {m : List Host.Cell} (h : Memory.wf m = true) (a b : Nat) :
    memRead (memWriteBytes m a bs) b = if a ≤ b ∧ b < a + bs.length then bs.getD (b - a) 0 else memRead m b := by
  induction bs generalizing m a with
  | nil =>
    have : ¬ (a ≤ b ∧ b < a + ([] : List Byte).length) := by rw [List.length_nil]; omega
    rw [if_neg this]
    rfl
  | cons x t ih =>
    simp only [memWriteBytes]
    rw [ih (Memory.wf_memWrite h a x)]
    by_cases hb : b = a
    · subst hb
      have h1 : ¬ (b + 1 ≤ b ∧ b < b + 1 + t.length) := by omega
      rw [if_neg h1, memRead_memWrite_same h]
      simp
    · rw [memRead_memWrite_ne h x hb]
      by_cases h2 : a + 1 ≤ b ∧ b < a + 1 + t.length
      · have h3 : a ≤ b ∧ b < a + (x :: t).length := by rw [List.length_cons]; omega
        rw [if_pos h2, if_pos h3]
        have : b - a = (b - (a + 1)) + 1 := by omega
        rw [this, List.getD_cons_succ]
      · have h3 : ¬ (a ≤ b ∧ b < a + (x :: t).length) := by rw [List.length_cons]; omega
        rw [if_neg h2, if_neg h3]

end Sys2Proof.Machine
end

