-- ==== Sys2Proof/Laws/State.lean ====
section
/-! SUPPORT. What each update of a part of the state leaves of every field: one lemma per field and update, true by
definition, and what reading a part gives after writing it. -/

namespace Sys2Proof.Machine

/-! ### setTile -/

@[simp] theorem State.setTile_cur (s : State) (dt : Nat) (x : Tile) : (s.setTile dt x).cur = s.cur := rfl
@[simp] theorem State.setTile_sched (s : State) (dt : Nat) (x : Tile) : (s.setTile dt x).sched = s.sched := rfl
@[simp] theorem State.setTile_tick (s : State) (dt : Nat) (x : Tile) : (s.setTile dt x).tick = s.tick := rfl
@[simp] theorem State.setTile_upset (s : State) (dt : Nat) (x : Tile) : (s.setTile dt x).upset = s.upset := rfl
@[simp] theorem State.setTile_nextId (s : State) (dt : Nat) (x : Tile) : (s.setTile dt x).nextId = s.nextId := rfl
@[simp] theorem State.setTile_acts (s : State) (dt : Nat) (x : Tile) : (s.setTile dt x).acts = s.acts := rfl
@[simp] theorem State.setTile_tiles (s : State) (dt : Nat) (x : Tile) : (s.setTile dt x).tiles = tabSet s.tiles dt x := rfl
@[simp] theorem State.setTile_panels (s : State) (dt : Nat) (x : Tile) : (s.setTile dt x).panels = s.panels := rfl
@[simp] theorem State.setTile_pts (s : State) (dt : Nat) (x : Tile) : (s.setTile dt x).pts = s.pts := rfl
@[simp] theorem State.setTile_dies (s : State) (dt : Nat) (x : Tile) : (s.setTile dt x).dies = s.dies := rfl
@[simp] theorem State.setTile_fws (s : State) (dt : Nat) (x : Tile) : (s.setTile dt x).fws = s.fws := rfl
@[simp] theorem State.setTile_phys (s : State) (dt : Nat) (x : Tile) : (s.setTile dt x).phys = s.phys := rfl
@[simp] theorem State.setTile_poison (s : State) (dt : Nat) (x : Tile) : (s.setTile dt x).poison = s.poison := rfl
@[simp] theorem State.setTile_keys (s : State) (dt : Nat) (x : Tile) : (s.setTile dt x).keys = s.keys := rfl
@[simp] theorem State.setTile_pages (s : State) (dt : Nat) (x : Tile) : (s.setTile dt x).pages = s.pages := rfl
@[simp] theorem State.setTile_moved (s : State) (dt : Nat) (x : Tile) : (s.setTile dt x).moved = s.moved := rfl
@[simp] theorem State.setTile_held (s : State) (dt : Nat) (x : Tile) : (s.setTile dt x).held = s.held := rfl
@[simp] theorem State.setTile_graphs (s : State) (dt : Nat) (x : Tile) : (s.setTile dt x).graphs = s.graphs := rfl
@[simp] theorem State.setTile_reqs (s : State) (dt : Nat) (x : Tile) : (s.setTile dt x).reqs = s.reqs := rfl
@[simp] theorem State.setTile_early (s : State) (dt : Nat) (x : Tile) : (s.setTile dt x).early = s.early := rfl
@[simp] theorem State.setTile_msgs (s : State) (dt : Nat) (x : Tile) : (s.setTile dt x).msgs = s.msgs := rfl
@[simp] theorem State.setTile_copies (s : State) (dt : Nat) (x : Tile) : (s.setTile dt x).copies = s.copies := rfl

/-! ### setAct -/

@[simp] theorem State.setAct_cur (s : State) (k : Nat) (x : Act) : (s.setAct k x).cur = s.cur := rfl
@[simp] theorem State.setAct_sched (s : State) (k : Nat) (x : Act) : (s.setAct k x).sched = s.sched := rfl
@[simp] theorem State.setAct_tick (s : State) (k : Nat) (x : Act) : (s.setAct k x).tick = s.tick := rfl
@[simp] theorem State.setAct_upset (s : State) (k : Nat) (x : Act) : (s.setAct k x).upset = s.upset := rfl
@[simp] theorem State.setAct_nextId (s : State) (k : Nat) (x : Act) : (s.setAct k x).nextId = s.nextId := rfl
@[simp] theorem State.setAct_acts (s : State) (k : Nat) (x : Act) : (s.setAct k x).acts = tabSet s.acts k x := rfl
@[simp] theorem State.setAct_tiles (s : State) (k : Nat) (x : Act) : (s.setAct k x).tiles = s.tiles := rfl
@[simp] theorem State.setAct_panels (s : State) (k : Nat) (x : Act) : (s.setAct k x).panels = s.panels := rfl
@[simp] theorem State.setAct_pts (s : State) (k : Nat) (x : Act) : (s.setAct k x).pts = s.pts := rfl
@[simp] theorem State.setAct_dies (s : State) (k : Nat) (x : Act) : (s.setAct k x).dies = s.dies := rfl
@[simp] theorem State.setAct_fws (s : State) (k : Nat) (x : Act) : (s.setAct k x).fws = s.fws := rfl
@[simp] theorem State.setAct_phys (s : State) (k : Nat) (x : Act) : (s.setAct k x).phys = s.phys := rfl
@[simp] theorem State.setAct_poison (s : State) (k : Nat) (x : Act) : (s.setAct k x).poison = s.poison := rfl
@[simp] theorem State.setAct_keys (s : State) (k : Nat) (x : Act) : (s.setAct k x).keys = s.keys := rfl
@[simp] theorem State.setAct_pages (s : State) (k : Nat) (x : Act) : (s.setAct k x).pages = s.pages := rfl
@[simp] theorem State.setAct_moved (s : State) (k : Nat) (x : Act) : (s.setAct k x).moved = s.moved := rfl
@[simp] theorem State.setAct_held (s : State) (k : Nat) (x : Act) : (s.setAct k x).held = s.held := rfl
@[simp] theorem State.setAct_graphs (s : State) (k : Nat) (x : Act) : (s.setAct k x).graphs = s.graphs := rfl
@[simp] theorem State.setAct_reqs (s : State) (k : Nat) (x : Act) : (s.setAct k x).reqs = s.reqs := rfl
@[simp] theorem State.setAct_early (s : State) (k : Nat) (x : Act) : (s.setAct k x).early = s.early := rfl
@[simp] theorem State.setAct_msgs (s : State) (k : Nat) (x : Act) : (s.setAct k x).msgs = s.msgs := rfl
@[simp] theorem State.setAct_copies (s : State) (k : Nat) (x : Act) : (s.setAct k x).copies = s.copies := rfl

/-! ### setPanel -/

@[simp] theorem State.setPanel_cur (s : State) (k : Nat) (x : Panel) : (s.setPanel k x).cur = s.cur := rfl
@[simp] theorem State.setPanel_sched (s : State) (k : Nat) (x : Panel) : (s.setPanel k x).sched = s.sched := rfl
@[simp] theorem State.setPanel_tick (s : State) (k : Nat) (x : Panel) : (s.setPanel k x).tick = s.tick := rfl
@[simp] theorem State.setPanel_upset (s : State) (k : Nat) (x : Panel) : (s.setPanel k x).upset = s.upset := rfl
@[simp] theorem State.setPanel_nextId (s : State) (k : Nat) (x : Panel) : (s.setPanel k x).nextId = s.nextId := rfl
@[simp] theorem State.setPanel_acts (s : State) (k : Nat) (x : Panel) : (s.setPanel k x).acts = s.acts := rfl
@[simp] theorem State.setPanel_tiles (s : State) (k : Nat) (x : Panel) : (s.setPanel k x).tiles = s.tiles := rfl
@[simp] theorem State.setPanel_panels (s : State) (k : Nat) (x : Panel) : (s.setPanel k x).panels = tabSet s.panels k x := rfl
@[simp] theorem State.setPanel_pts (s : State) (k : Nat) (x : Panel) : (s.setPanel k x).pts = s.pts := rfl
@[simp] theorem State.setPanel_dies (s : State) (k : Nat) (x : Panel) : (s.setPanel k x).dies = s.dies := rfl
@[simp] theorem State.setPanel_fws (s : State) (k : Nat) (x : Panel) : (s.setPanel k x).fws = s.fws := rfl
@[simp] theorem State.setPanel_phys (s : State) (k : Nat) (x : Panel) : (s.setPanel k x).phys = s.phys := rfl
@[simp] theorem State.setPanel_poison (s : State) (k : Nat) (x : Panel) : (s.setPanel k x).poison = s.poison := rfl
@[simp] theorem State.setPanel_keys (s : State) (k : Nat) (x : Panel) : (s.setPanel k x).keys = s.keys := rfl
@[simp] theorem State.setPanel_pages (s : State) (k : Nat) (x : Panel) : (s.setPanel k x).pages = s.pages := rfl
@[simp] theorem State.setPanel_moved (s : State) (k : Nat) (x : Panel) : (s.setPanel k x).moved = s.moved := rfl
@[simp] theorem State.setPanel_held (s : State) (k : Nat) (x : Panel) : (s.setPanel k x).held = s.held := rfl
@[simp] theorem State.setPanel_graphs (s : State) (k : Nat) (x : Panel) : (s.setPanel k x).graphs = s.graphs := rfl
@[simp] theorem State.setPanel_reqs (s : State) (k : Nat) (x : Panel) : (s.setPanel k x).reqs = s.reqs := rfl
@[simp] theorem State.setPanel_early (s : State) (k : Nat) (x : Panel) : (s.setPanel k x).early = s.early := rfl
@[simp] theorem State.setPanel_msgs (s : State) (k : Nat) (x : Panel) : (s.setPanel k x).msgs = s.msgs := rfl
@[simp] theorem State.setPanel_copies (s : State) (k : Nat) (x : Panel) : (s.setPanel k x).copies = s.copies := rfl

/-! ### setPt -/

@[simp] theorem State.setPt_cur (s : State) (k : Nat) (x : Pt) : (s.setPt k x).cur = s.cur := rfl
@[simp] theorem State.setPt_sched (s : State) (k : Nat) (x : Pt) : (s.setPt k x).sched = s.sched := rfl
@[simp] theorem State.setPt_tick (s : State) (k : Nat) (x : Pt) : (s.setPt k x).tick = s.tick := rfl
@[simp] theorem State.setPt_upset (s : State) (k : Nat) (x : Pt) : (s.setPt k x).upset = s.upset := rfl
@[simp] theorem State.setPt_nextId (s : State) (k : Nat) (x : Pt) : (s.setPt k x).nextId = s.nextId := rfl
@[simp] theorem State.setPt_acts (s : State) (k : Nat) (x : Pt) : (s.setPt k x).acts = s.acts := rfl
@[simp] theorem State.setPt_tiles (s : State) (k : Nat) (x : Pt) : (s.setPt k x).tiles = s.tiles := rfl
@[simp] theorem State.setPt_panels (s : State) (k : Nat) (x : Pt) : (s.setPt k x).panels = s.panels := rfl
@[simp] theorem State.setPt_pts (s : State) (k : Nat) (x : Pt) : (s.setPt k x).pts = tabSet s.pts k x := rfl
@[simp] theorem State.setPt_dies (s : State) (k : Nat) (x : Pt) : (s.setPt k x).dies = s.dies := rfl
@[simp] theorem State.setPt_fws (s : State) (k : Nat) (x : Pt) : (s.setPt k x).fws = s.fws := rfl
@[simp] theorem State.setPt_phys (s : State) (k : Nat) (x : Pt) : (s.setPt k x).phys = s.phys := rfl
@[simp] theorem State.setPt_poison (s : State) (k : Nat) (x : Pt) : (s.setPt k x).poison = s.poison := rfl
@[simp] theorem State.setPt_keys (s : State) (k : Nat) (x : Pt) : (s.setPt k x).keys = s.keys := rfl
@[simp] theorem State.setPt_pages (s : State) (k : Nat) (x : Pt) : (s.setPt k x).pages = s.pages := rfl
@[simp] theorem State.setPt_moved (s : State) (k : Nat) (x : Pt) : (s.setPt k x).moved = s.moved := rfl
@[simp] theorem State.setPt_held (s : State) (k : Nat) (x : Pt) : (s.setPt k x).held = s.held := rfl
@[simp] theorem State.setPt_graphs (s : State) (k : Nat) (x : Pt) : (s.setPt k x).graphs = s.graphs := rfl
@[simp] theorem State.setPt_reqs (s : State) (k : Nat) (x : Pt) : (s.setPt k x).reqs = s.reqs := rfl
@[simp] theorem State.setPt_early (s : State) (k : Nat) (x : Pt) : (s.setPt k x).early = s.early := rfl
@[simp] theorem State.setPt_msgs (s : State) (k : Nat) (x : Pt) : (s.setPt k x).msgs = s.msgs := rfl
@[simp] theorem State.setPt_copies (s : State) (k : Nat) (x : Pt) : (s.setPt k x).copies = s.copies := rfl

/-! ### setDie -/

@[simp] theorem State.setDie_cur (s : State) (k : Nat) (x : Die) : (s.setDie k x).cur = s.cur := rfl
@[simp] theorem State.setDie_sched (s : State) (k : Nat) (x : Die) : (s.setDie k x).sched = s.sched := rfl
@[simp] theorem State.setDie_tick (s : State) (k : Nat) (x : Die) : (s.setDie k x).tick = s.tick := rfl
@[simp] theorem State.setDie_upset (s : State) (k : Nat) (x : Die) : (s.setDie k x).upset = s.upset := rfl
@[simp] theorem State.setDie_nextId (s : State) (k : Nat) (x : Die) : (s.setDie k x).nextId = s.nextId := rfl
@[simp] theorem State.setDie_acts (s : State) (k : Nat) (x : Die) : (s.setDie k x).acts = s.acts := rfl
@[simp] theorem State.setDie_tiles (s : State) (k : Nat) (x : Die) : (s.setDie k x).tiles = s.tiles := rfl
@[simp] theorem State.setDie_panels (s : State) (k : Nat) (x : Die) : (s.setDie k x).panels = s.panels := rfl
@[simp] theorem State.setDie_pts (s : State) (k : Nat) (x : Die) : (s.setDie k x).pts = s.pts := rfl
@[simp] theorem State.setDie_dies (s : State) (k : Nat) (x : Die) : (s.setDie k x).dies = tabSet s.dies k x := rfl
@[simp] theorem State.setDie_fws (s : State) (k : Nat) (x : Die) : (s.setDie k x).fws = s.fws := rfl
@[simp] theorem State.setDie_phys (s : State) (k : Nat) (x : Die) : (s.setDie k x).phys = s.phys := rfl
@[simp] theorem State.setDie_poison (s : State) (k : Nat) (x : Die) : (s.setDie k x).poison = s.poison := rfl
@[simp] theorem State.setDie_keys (s : State) (k : Nat) (x : Die) : (s.setDie k x).keys = s.keys := rfl
@[simp] theorem State.setDie_pages (s : State) (k : Nat) (x : Die) : (s.setDie k x).pages = s.pages := rfl
@[simp] theorem State.setDie_moved (s : State) (k : Nat) (x : Die) : (s.setDie k x).moved = s.moved := rfl
@[simp] theorem State.setDie_held (s : State) (k : Nat) (x : Die) : (s.setDie k x).held = s.held := rfl
@[simp] theorem State.setDie_graphs (s : State) (k : Nat) (x : Die) : (s.setDie k x).graphs = s.graphs := rfl
@[simp] theorem State.setDie_reqs (s : State) (k : Nat) (x : Die) : (s.setDie k x).reqs = s.reqs := rfl
@[simp] theorem State.setDie_early (s : State) (k : Nat) (x : Die) : (s.setDie k x).early = s.early := rfl
@[simp] theorem State.setDie_msgs (s : State) (k : Nat) (x : Die) : (s.setDie k x).msgs = s.msgs := rfl
@[simp] theorem State.setDie_copies (s : State) (k : Nat) (x : Die) : (s.setDie k x).copies = s.copies := rfl

/-! ### setFw -/

@[simp] theorem State.setFw_cur (s : State) (k : Nat) (x : FwCore) : (s.setFw k x).cur = s.cur := rfl
@[simp] theorem State.setFw_sched (s : State) (k : Nat) (x : FwCore) : (s.setFw k x).sched = s.sched := rfl
@[simp] theorem State.setFw_tick (s : State) (k : Nat) (x : FwCore) : (s.setFw k x).tick = s.tick := rfl
@[simp] theorem State.setFw_upset (s : State) (k : Nat) (x : FwCore) : (s.setFw k x).upset = s.upset := rfl
@[simp] theorem State.setFw_nextId (s : State) (k : Nat) (x : FwCore) : (s.setFw k x).nextId = s.nextId := rfl
@[simp] theorem State.setFw_acts (s : State) (k : Nat) (x : FwCore) : (s.setFw k x).acts = s.acts := rfl
@[simp] theorem State.setFw_tiles (s : State) (k : Nat) (x : FwCore) : (s.setFw k x).tiles = s.tiles := rfl
@[simp] theorem State.setFw_panels (s : State) (k : Nat) (x : FwCore) : (s.setFw k x).panels = s.panels := rfl
@[simp] theorem State.setFw_pts (s : State) (k : Nat) (x : FwCore) : (s.setFw k x).pts = s.pts := rfl
@[simp] theorem State.setFw_dies (s : State) (k : Nat) (x : FwCore) : (s.setFw k x).dies = s.dies := rfl
@[simp] theorem State.setFw_fws (s : State) (k : Nat) (x : FwCore) : (s.setFw k x).fws = tabSet s.fws k x := rfl
@[simp] theorem State.setFw_phys (s : State) (k : Nat) (x : FwCore) : (s.setFw k x).phys = s.phys := rfl
@[simp] theorem State.setFw_poison (s : State) (k : Nat) (x : FwCore) : (s.setFw k x).poison = s.poison := rfl
@[simp] theorem State.setFw_keys (s : State) (k : Nat) (x : FwCore) : (s.setFw k x).keys = s.keys := rfl
@[simp] theorem State.setFw_pages (s : State) (k : Nat) (x : FwCore) : (s.setFw k x).pages = s.pages := rfl
@[simp] theorem State.setFw_moved (s : State) (k : Nat) (x : FwCore) : (s.setFw k x).moved = s.moved := rfl
@[simp] theorem State.setFw_held (s : State) (k : Nat) (x : FwCore) : (s.setFw k x).held = s.held := rfl
@[simp] theorem State.setFw_graphs (s : State) (k : Nat) (x : FwCore) : (s.setFw k x).graphs = s.graphs := rfl
@[simp] theorem State.setFw_reqs (s : State) (k : Nat) (x : FwCore) : (s.setFw k x).reqs = s.reqs := rfl
@[simp] theorem State.setFw_early (s : State) (k : Nat) (x : FwCore) : (s.setFw k x).early = s.early := rfl
@[simp] theorem State.setFw_msgs (s : State) (k : Nat) (x : FwCore) : (s.setFw k x).msgs = s.msgs := rfl
@[simp] theorem State.setFw_copies (s : State) (k : Nat) (x : FwCore) : (s.setFw k x).copies = s.copies := rfl

/-! ### Act.setW -/

@[simp] theorem Act.setW_fw (a : Act) (i : BitVec 5) (x : Word) : (a.setW i x).fw = a.fw := rfl
@[simp] theorem Act.setW_dt (a : Act) (i : BitVec 5) (x : Word) : (a.setW i x).dt = a.dt := rfl
@[simp] theorem Act.setW_index (a : Act) (i : BitVec 5) (x : Word) : (a.setW i x).index = a.index := rfl
@[simp] theorem Act.setW_tile (a : Act) (i : BitVec 5) (x : Word) : (a.setW i x).tile = a.tile := rfl
@[simp] theorem Act.setW_stg (a : Act) (i : BitVec 5) (x : Word) : (a.setW i x).stg = a.stg := rfl
@[simp] theorem Act.setW_place (a : Act) (i : BitVec 5) (x : Word) : (a.setW i x).place = a.place := rfl
@[simp] theorem Act.setW_wp (a : Act) (i : BitVec 5) (x : Word) : (a.setW i x).wp = a.wp := rfl
@[simp] theorem Act.setW_area (a : Act) (i : BitVec 5) (x : Word) : (a.setW i x).area = a.area := rfl
@[simp] theorem Act.setW_w (a : Act) (i : BitVec 5) (x : Word) : (a.setW i x).w = a.w.set i.toNat x (i.isLt) := rfl
@[simp] theorem Act.setW_v (a : Act) (i : BitVec 5) (x : Word) : (a.setW i x).v = a.v := rfl
@[simp] theorem Act.setW_m (a : Act) (i : BitVec 5) (x : Word) : (a.setW i x).m = a.m := rfl
@[simp] theorem Act.setW_e (a : Act) (i : BitVec 5) (x : Word) : (a.setW i x).e = a.e := rfl
@[simp] theorem Act.setW_pc (a : Act) (i : BitVec 5) (x : Word) : (a.setW i x).pc = a.pc := rfl
@[simp] theorem Act.setW_status (a : Act) (i : BitVec 5) (x : Word) : (a.setW i x).status = a.status := rfl
@[simp] theorem Act.setW_cause (a : Act) (i : BitVec 5) (x : Word) : (a.setW i x).cause = a.cause := rfl
@[simp] theorem Act.setW_value (a : Act) (i : BitVec 5) (x : Word) : (a.setW i x).value = a.value := rfl
@[simp] theorem Act.setW_nref (a : Act) (i : BitVec 5) (x : Word) : (a.setW i x).nref = a.nref := rfl
@[simp] theorem Act.setW_shadow (a : Act) (i : BitVec 5) (x : Word) : (a.setW i x).shadow = a.shadow := rfl
@[simp] theorem Act.setW_leasePtr (a : Act) (i : BitVec 5) (x : Word) : (a.setW i x).leasePtr = a.leasePtr := rfl
@[simp] theorem Act.setW_order (a : Act) (i : BitVec 5) (x : Word) : (a.setW i x).order = a.order := rfl
@[simp] theorem Act.setW_ident (a : Act) (i : BitVec 5) (x : Word) : (a.setW i x).ident = a.ident := rfl
@[simp] theorem Act.setW_nsucc (a : Act) (i : BitVec 5) (x : Word) : (a.setW i x).nsucc = a.nsucc := rfl
@[simp] theorem Act.setW_screen (a : Act) (i : BitVec 5) (x : Word) : (a.setW i x).screen = a.screen := rfl
@[simp] theorem Act.setW_seed (a : Act) (i : BitVec 5) (x : Word) : (a.setW i x).seed = a.seed := rfl
@[simp] theorem Act.setW_fpflags (a : Act) (i : BitVec 5) (x : Word) : (a.setW i x).fpflags = a.fpflags := rfl
@[simp] theorem Act.setW_trapnv (a : Act) (i : BitVec 5) (x : Word) : (a.setW i x).trapnv = a.trapnv := rfl
@[simp] theorem Act.setW_mxinj (a : Act) (i : BitVec 5) (x : Word) : (a.setW i x).mxinj = a.mxinj := rfl
@[simp] theorem Act.setW_sig (a : Act) (i : BitVec 5) (x : Word) : (a.setW i x).sig = a.sig := rfl
@[simp] theorem Act.setW_rodRec (a : Act) (i : BitVec 5) (x : Word) : (a.setW i x).rodRec = a.rodRec := rfl
@[simp] theorem Act.setW_beamRec (a : Act) (i : BitVec 5) (x : Word) : (a.setW i x).beamRec = a.beamRec := rfl
@[simp] theorem Act.setW_items (a : Act) (i : BitVec 5) (x : Word) : (a.setW i x).items = a.items := rfl
@[simp] theorem Act.setW_adds (a : Act) (i : BitVec 5) (x : Word) : (a.setW i x).adds = a.adds := rfl
@[simp] theorem Act.setW_rods (a : Act) (i : BitVec 5) (x : Word) : (a.setW i x).rods = a.rods := rfl
@[simp] theorem Act.setW_wait (a : Act) (i : BitVec 5) (x : Word) : (a.setW i x).wait = a.wait := rfl
@[simp] theorem Act.setW_block (a : Act) (i : BitVec 5) (x : Word) : (a.setW i x).block = a.block := rfl
@[simp] theorem Act.setW_leases (a : Act) (i : BitVec 5) (x : Word) : (a.setW i x).leases = a.leases := rfl
@[simp] theorem Act.setW_used (a : Act) (i : BitVec 5) (x : Word) : (a.setW i x).used = a.used := rfl
@[simp] theorem Act.setW_budget (a : Act) (i : BitVec 5) (x : Word) : (a.setW i x).budget = a.budget := rfl
@[simp] theorem Act.setW_asid (a : Act) (i : BitVec 5) (x : Word) : (a.setW i x).asid = a.asid := rfl
@[simp] theorem Act.setW_key (a : Act) (i : BitVec 5) (x : Word) : (a.setW i x).key = a.key := rfl
@[simp] theorem Act.setW_gid (a : Act) (i : BitVec 5) (x : Word) : (a.setW i x).gid = a.gid := rfl
@[simp] theorem Act.setW_parkTch (a : Act) (i : BitVec 5) (x : Word) : (a.setW i x).parkTch = a.parkTch := rfl
@[simp] theorem Act.setW_dispBy (a : Act) (i : BitVec 5) (x : Word) : (a.setW i x).dispBy = a.dispBy := rfl
@[simp] theorem Act.setW_commit (a : Act) (i : BitVec 5) (x : Word) : (a.setW i x).commit = a.commit := rfl
@[simp] theorem Act.setW_replica (a : Act) (i : BitVec 5) (x : Word) : (a.setW i x).replica = a.replica := rfl
@[simp] theorem Act.setW_twin (a : Act) (i : BitVec 5) (x : Word) : (a.setW i x).twin = a.twin := rfl
@[simp] theorem Act.setW_atEnd (a : Act) (i : BitVec 5) (x : Word) : (a.setW i x).atEnd = a.atEnd := rfl
@[simp] theorem Act.setW_mate (a : Act) (i : BitVec 5) (x : Word) : (a.setW i x).mate = a.mate := rfl
@[simp] theorem Act.setW_poisons (a : Act) (i : BitVec 5) (x : Word) : (a.setW i x).poisons = a.poisons := rfl
@[simp] theorem Act.setW_hasty (a : Act) (i : BitVec 5) (x : Word) : (a.setW i x).hasty = a.hasty := rfl
@[simp] theorem Act.setW_lazy (a : Act) (i : BitVec 5) (x : Word) : (a.setW i x).lazy = a.lazy := rfl
@[simp] theorem Act.setW_preread (a : Act) (i : BitVec 5) (x : Word) : (a.setW i x).preread = a.preread := rfl

/-! ### Act.setV -/

@[simp] theorem Act.setV_fw (a : Act) (i : BitVec 4) (x : Vec) : (a.setV i x).fw = a.fw := rfl
@[simp] theorem Act.setV_dt (a : Act) (i : BitVec 4) (x : Vec) : (a.setV i x).dt = a.dt := rfl
@[simp] theorem Act.setV_index (a : Act) (i : BitVec 4) (x : Vec) : (a.setV i x).index = a.index := rfl
@[simp] theorem Act.setV_tile (a : Act) (i : BitVec 4) (x : Vec) : (a.setV i x).tile = a.tile := rfl
@[simp] theorem Act.setV_stg (a : Act) (i : BitVec 4) (x : Vec) : (a.setV i x).stg = a.stg := rfl
@[simp] theorem Act.setV_place (a : Act) (i : BitVec 4) (x : Vec) : (a.setV i x).place = a.place := rfl
@[simp] theorem Act.setV_wp (a : Act) (i : BitVec 4) (x : Vec) : (a.setV i x).wp = a.wp := rfl
@[simp] theorem Act.setV_area (a : Act) (i : BitVec 4) (x : Vec) : (a.setV i x).area = a.area := rfl
@[simp] theorem Act.setV_w (a : Act) (i : BitVec 4) (x : Vec) : (a.setV i x).w = a.w := rfl
@[simp] theorem Act.setV_v (a : Act) (i : BitVec 4) (x : Vec) : (a.setV i x).v = a.v.set i.toNat x (i.isLt) := rfl
@[simp] theorem Act.setV_m (a : Act) (i : BitVec 4) (x : Vec) : (a.setV i x).m = a.m := rfl
@[simp] theorem Act.setV_e (a : Act) (i : BitVec 4) (x : Vec) : (a.setV i x).e = a.e := rfl
@[simp] theorem Act.setV_pc (a : Act) (i : BitVec 4) (x : Vec) : (a.setV i x).pc = a.pc := rfl
@[simp] theorem Act.setV_status (a : Act) (i : BitVec 4) (x : Vec) : (a.setV i x).status = a.status := rfl
@[simp] theorem Act.setV_cause (a : Act) (i : BitVec 4) (x : Vec) : (a.setV i x).cause = a.cause := rfl
@[simp] theorem Act.setV_value (a : Act) (i : BitVec 4) (x : Vec) : (a.setV i x).value = a.value := rfl
@[simp] theorem Act.setV_nref (a : Act) (i : BitVec 4) (x : Vec) : (a.setV i x).nref = a.nref := rfl
@[simp] theorem Act.setV_shadow (a : Act) (i : BitVec 4) (x : Vec) : (a.setV i x).shadow = a.shadow := rfl
@[simp] theorem Act.setV_leasePtr (a : Act) (i : BitVec 4) (x : Vec) : (a.setV i x).leasePtr = a.leasePtr := rfl
@[simp] theorem Act.setV_order (a : Act) (i : BitVec 4) (x : Vec) : (a.setV i x).order = a.order := rfl
@[simp] theorem Act.setV_ident (a : Act) (i : BitVec 4) (x : Vec) : (a.setV i x).ident = a.ident := rfl
@[simp] theorem Act.setV_nsucc (a : Act) (i : BitVec 4) (x : Vec) : (a.setV i x).nsucc = a.nsucc := rfl
@[simp] theorem Act.setV_screen (a : Act) (i : BitVec 4) (x : Vec) : (a.setV i x).screen = a.screen := rfl
@[simp] theorem Act.setV_seed (a : Act) (i : BitVec 4) (x : Vec) : (a.setV i x).seed = a.seed := rfl
@[simp] theorem Act.setV_fpflags (a : Act) (i : BitVec 4) (x : Vec) : (a.setV i x).fpflags = a.fpflags := rfl
@[simp] theorem Act.setV_trapnv (a : Act) (i : BitVec 4) (x : Vec) : (a.setV i x).trapnv = a.trapnv := rfl
@[simp] theorem Act.setV_mxinj (a : Act) (i : BitVec 4) (x : Vec) : (a.setV i x).mxinj = a.mxinj := rfl
@[simp] theorem Act.setV_sig (a : Act) (i : BitVec 4) (x : Vec) : (a.setV i x).sig = a.sig := rfl
@[simp] theorem Act.setV_rodRec (a : Act) (i : BitVec 4) (x : Vec) : (a.setV i x).rodRec = a.rodRec := rfl
@[simp] theorem Act.setV_beamRec (a : Act) (i : BitVec 4) (x : Vec) : (a.setV i x).beamRec = a.beamRec := rfl
@[simp] theorem Act.setV_items (a : Act) (i : BitVec 4) (x : Vec) : (a.setV i x).items = a.items := rfl
@[simp] theorem Act.setV_adds (a : Act) (i : BitVec 4) (x : Vec) : (a.setV i x).adds = a.adds := rfl
@[simp] theorem Act.setV_rods (a : Act) (i : BitVec 4) (x : Vec) : (a.setV i x).rods = a.rods := rfl
@[simp] theorem Act.setV_wait (a : Act) (i : BitVec 4) (x : Vec) : (a.setV i x).wait = a.wait := rfl
@[simp] theorem Act.setV_block (a : Act) (i : BitVec 4) (x : Vec) : (a.setV i x).block = a.block := rfl
@[simp] theorem Act.setV_leases (a : Act) (i : BitVec 4) (x : Vec) : (a.setV i x).leases = a.leases := rfl
@[simp] theorem Act.setV_used (a : Act) (i : BitVec 4) (x : Vec) : (a.setV i x).used = a.used := rfl
@[simp] theorem Act.setV_budget (a : Act) (i : BitVec 4) (x : Vec) : (a.setV i x).budget = a.budget := rfl
@[simp] theorem Act.setV_asid (a : Act) (i : BitVec 4) (x : Vec) : (a.setV i x).asid = a.asid := rfl
@[simp] theorem Act.setV_key (a : Act) (i : BitVec 4) (x : Vec) : (a.setV i x).key = a.key := rfl
@[simp] theorem Act.setV_gid (a : Act) (i : BitVec 4) (x : Vec) : (a.setV i x).gid = a.gid := rfl
@[simp] theorem Act.setV_parkTch (a : Act) (i : BitVec 4) (x : Vec) : (a.setV i x).parkTch = a.parkTch := rfl
@[simp] theorem Act.setV_dispBy (a : Act) (i : BitVec 4) (x : Vec) : (a.setV i x).dispBy = a.dispBy := rfl
@[simp] theorem Act.setV_commit (a : Act) (i : BitVec 4) (x : Vec) : (a.setV i x).commit = a.commit := rfl
@[simp] theorem Act.setV_replica (a : Act) (i : BitVec 4) (x : Vec) : (a.setV i x).replica = a.replica := rfl
@[simp] theorem Act.setV_twin (a : Act) (i : BitVec 4) (x : Vec) : (a.setV i x).twin = a.twin := rfl
@[simp] theorem Act.setV_atEnd (a : Act) (i : BitVec 4) (x : Vec) : (a.setV i x).atEnd = a.atEnd := rfl
@[simp] theorem Act.setV_mate (a : Act) (i : BitVec 4) (x : Vec) : (a.setV i x).mate = a.mate := rfl
@[simp] theorem Act.setV_poisons (a : Act) (i : BitVec 4) (x : Vec) : (a.setV i x).poisons = a.poisons := rfl
@[simp] theorem Act.setV_hasty (a : Act) (i : BitVec 4) (x : Vec) : (a.setV i x).hasty = a.hasty := rfl
@[simp] theorem Act.setV_lazy (a : Act) (i : BitVec 4) (x : Vec) : (a.setV i x).lazy = a.lazy := rfl
@[simp] theorem Act.setV_preread (a : Act) (i : BitVec 4) (x : Vec) : (a.setV i x).preread = a.preread := rfl

/-! ### Act.setM -/

@[simp] theorem Act.setM_fw (a : Act) (i : BitVec 3) (x : Word) : (a.setM i x).fw = a.fw := rfl
@[simp] theorem Act.setM_dt (a : Act) (i : BitVec 3) (x : Word) : (a.setM i x).dt = a.dt := rfl
@[simp] theorem Act.setM_index (a : Act) (i : BitVec 3) (x : Word) : (a.setM i x).index = a.index := rfl
@[simp] theorem Act.setM_tile (a : Act) (i : BitVec 3) (x : Word) : (a.setM i x).tile = a.tile := rfl
@[simp] theorem Act.setM_stg (a : Act) (i : BitVec 3) (x : Word) : (a.setM i x).stg = a.stg := rfl
@[simp] theorem Act.setM_place (a : Act) (i : BitVec 3) (x : Word) : (a.setM i x).place = a.place := rfl
@[simp] theorem Act.setM_wp (a : Act) (i : BitVec 3) (x : Word) : (a.setM i x).wp = a.wp := rfl
@[simp] theorem Act.setM_area (a : Act) (i : BitVec 3) (x : Word) : (a.setM i x).area = a.area := rfl
@[simp] theorem Act.setM_w (a : Act) (i : BitVec 3) (x : Word) : (a.setM i x).w = a.w := rfl
@[simp] theorem Act.setM_v (a : Act) (i : BitVec 3) (x : Word) : (a.setM i x).v = a.v := rfl
@[simp] theorem Act.setM_m (a : Act) (i : BitVec 3) (x : Word) : (a.setM i x).m = a.m.set i.toNat x (i.isLt) := rfl
@[simp] theorem Act.setM_e (a : Act) (i : BitVec 3) (x : Word) : (a.setM i x).e = a.e := rfl
@[simp] theorem Act.setM_pc (a : Act) (i : BitVec 3) (x : Word) : (a.setM i x).pc = a.pc := rfl
@[simp] theorem Act.setM_status (a : Act) (i : BitVec 3) (x : Word) : (a.setM i x).status = a.status := rfl
@[simp] theorem Act.setM_cause (a : Act) (i : BitVec 3) (x : Word) : (a.setM i x).cause = a.cause := rfl
@[simp] theorem Act.setM_value (a : Act) (i : BitVec 3) (x : Word) : (a.setM i x).value = a.value := rfl
@[simp] theorem Act.setM_nref (a : Act) (i : BitVec 3) (x : Word) : (a.setM i x).nref = a.nref := rfl
@[simp] theorem Act.setM_shadow (a : Act) (i : BitVec 3) (x : Word) : (a.setM i x).shadow = a.shadow := rfl
@[simp] theorem Act.setM_leasePtr (a : Act) (i : BitVec 3) (x : Word) : (a.setM i x).leasePtr = a.leasePtr := rfl
@[simp] theorem Act.setM_order (a : Act) (i : BitVec 3) (x : Word) : (a.setM i x).order = a.order := rfl
@[simp] theorem Act.setM_ident (a : Act) (i : BitVec 3) (x : Word) : (a.setM i x).ident = a.ident := rfl
@[simp] theorem Act.setM_nsucc (a : Act) (i : BitVec 3) (x : Word) : (a.setM i x).nsucc = a.nsucc := rfl
@[simp] theorem Act.setM_screen (a : Act) (i : BitVec 3) (x : Word) : (a.setM i x).screen = a.screen := rfl
@[simp] theorem Act.setM_seed (a : Act) (i : BitVec 3) (x : Word) : (a.setM i x).seed = a.seed := rfl
@[simp] theorem Act.setM_fpflags (a : Act) (i : BitVec 3) (x : Word) : (a.setM i x).fpflags = a.fpflags := rfl
@[simp] theorem Act.setM_trapnv (a : Act) (i : BitVec 3) (x : Word) : (a.setM i x).trapnv = a.trapnv := rfl
@[simp] theorem Act.setM_mxinj (a : Act) (i : BitVec 3) (x : Word) : (a.setM i x).mxinj = a.mxinj := rfl
@[simp] theorem Act.setM_sig (a : Act) (i : BitVec 3) (x : Word) : (a.setM i x).sig = a.sig := rfl
@[simp] theorem Act.setM_rodRec (a : Act) (i : BitVec 3) (x : Word) : (a.setM i x).rodRec = a.rodRec := rfl
@[simp] theorem Act.setM_beamRec (a : Act) (i : BitVec 3) (x : Word) : (a.setM i x).beamRec = a.beamRec := rfl
@[simp] theorem Act.setM_items (a : Act) (i : BitVec 3) (x : Word) : (a.setM i x).items = a.items := rfl
@[simp] theorem Act.setM_adds (a : Act) (i : BitVec 3) (x : Word) : (a.setM i x).adds = a.adds := rfl
@[simp] theorem Act.setM_rods (a : Act) (i : BitVec 3) (x : Word) : (a.setM i x).rods = a.rods := rfl
@[simp] theorem Act.setM_wait (a : Act) (i : BitVec 3) (x : Word) : (a.setM i x).wait = a.wait := rfl
@[simp] theorem Act.setM_block (a : Act) (i : BitVec 3) (x : Word) : (a.setM i x).block = a.block := rfl
@[simp] theorem Act.setM_leases (a : Act) (i : BitVec 3) (x : Word) : (a.setM i x).leases = a.leases := rfl
@[simp] theorem Act.setM_used (a : Act) (i : BitVec 3) (x : Word) : (a.setM i x).used = a.used := rfl
@[simp] theorem Act.setM_budget (a : Act) (i : BitVec 3) (x : Word) : (a.setM i x).budget = a.budget := rfl
@[simp] theorem Act.setM_asid (a : Act) (i : BitVec 3) (x : Word) : (a.setM i x).asid = a.asid := rfl
@[simp] theorem Act.setM_key (a : Act) (i : BitVec 3) (x : Word) : (a.setM i x).key = a.key := rfl
@[simp] theorem Act.setM_gid (a : Act) (i : BitVec 3) (x : Word) : (a.setM i x).gid = a.gid := rfl
@[simp] theorem Act.setM_parkTch (a : Act) (i : BitVec 3) (x : Word) : (a.setM i x).parkTch = a.parkTch := rfl
@[simp] theorem Act.setM_dispBy (a : Act) (i : BitVec 3) (x : Word) : (a.setM i x).dispBy = a.dispBy := rfl
@[simp] theorem Act.setM_commit (a : Act) (i : BitVec 3) (x : Word) : (a.setM i x).commit = a.commit := rfl
@[simp] theorem Act.setM_replica (a : Act) (i : BitVec 3) (x : Word) : (a.setM i x).replica = a.replica := rfl
@[simp] theorem Act.setM_twin (a : Act) (i : BitVec 3) (x : Word) : (a.setM i x).twin = a.twin := rfl
@[simp] theorem Act.setM_atEnd (a : Act) (i : BitVec 3) (x : Word) : (a.setM i x).atEnd = a.atEnd := rfl
@[simp] theorem Act.setM_mate (a : Act) (i : BitVec 3) (x : Word) : (a.setM i x).mate = a.mate := rfl
@[simp] theorem Act.setM_poisons (a : Act) (i : BitVec 3) (x : Word) : (a.setM i x).poisons = a.poisons := rfl
@[simp] theorem Act.setM_hasty (a : Act) (i : BitVec 3) (x : Word) : (a.setM i x).hasty = a.hasty := rfl
@[simp] theorem Act.setM_lazy (a : Act) (i : BitVec 3) (x : Word) : (a.setM i x).lazy = a.lazy := rfl
@[simp] theorem Act.setM_preread (a : Act) (i : BitVec 3) (x : Word) : (a.setM i x).preread = a.preread := rfl

/-! ### Act.setE -/

@[simp] theorem Act.setE_fw (a : Act) (i : BitVec 3) (x : Word) : (a.setE i x).fw = a.fw := rfl
@[simp] theorem Act.setE_dt (a : Act) (i : BitVec 3) (x : Word) : (a.setE i x).dt = a.dt := rfl
@[simp] theorem Act.setE_index (a : Act) (i : BitVec 3) (x : Word) : (a.setE i x).index = a.index := rfl
@[simp] theorem Act.setE_tile (a : Act) (i : BitVec 3) (x : Word) : (a.setE i x).tile = a.tile := rfl
@[simp] theorem Act.setE_stg (a : Act) (i : BitVec 3) (x : Word) : (a.setE i x).stg = a.stg := rfl
@[simp] theorem Act.setE_place (a : Act) (i : BitVec 3) (x : Word) : (a.setE i x).place = a.place := rfl
@[simp] theorem Act.setE_wp (a : Act) (i : BitVec 3) (x : Word) : (a.setE i x).wp = a.wp := rfl
@[simp] theorem Act.setE_area (a : Act) (i : BitVec 3) (x : Word) : (a.setE i x).area = a.area := rfl
@[simp] theorem Act.setE_w (a : Act) (i : BitVec 3) (x : Word) : (a.setE i x).w = a.w := rfl
@[simp] theorem Act.setE_v (a : Act) (i : BitVec 3) (x : Word) : (a.setE i x).v = a.v := rfl
@[simp] theorem Act.setE_m (a : Act) (i : BitVec 3) (x : Word) : (a.setE i x).m = a.m := rfl
@[simp] theorem Act.setE_e (a : Act) (i : BitVec 3) (x : Word) : (a.setE i x).e = a.e.set i.toNat x (i.isLt) := rfl
@[simp] theorem Act.setE_pc (a : Act) (i : BitVec 3) (x : Word) : (a.setE i x).pc = a.pc := rfl
@[simp] theorem Act.setE_status (a : Act) (i : BitVec 3) (x : Word) : (a.setE i x).status = a.status := rfl
@[simp] theorem Act.setE_cause (a : Act) (i : BitVec 3) (x : Word) : (a.setE i x).cause = a.cause := rfl
@[simp] theorem Act.setE_value (a : Act) (i : BitVec 3) (x : Word) : (a.setE i x).value = a.value := rfl
@[simp] theorem Act.setE_nref (a : Act) (i : BitVec 3) (x : Word) : (a.setE i x).nref = a.nref := rfl
@[simp] theorem Act.setE_shadow (a : Act) (i : BitVec 3) (x : Word) : (a.setE i x).shadow = a.shadow := rfl
@[simp] theorem Act.setE_leasePtr (a : Act) (i : BitVec 3) (x : Word) : (a.setE i x).leasePtr = a.leasePtr := rfl
@[simp] theorem Act.setE_order (a : Act) (i : BitVec 3) (x : Word) : (a.setE i x).order = a.order := rfl
@[simp] theorem Act.setE_ident (a : Act) (i : BitVec 3) (x : Word) : (a.setE i x).ident = a.ident := rfl
@[simp] theorem Act.setE_nsucc (a : Act) (i : BitVec 3) (x : Word) : (a.setE i x).nsucc = a.nsucc := rfl
@[simp] theorem Act.setE_screen (a : Act) (i : BitVec 3) (x : Word) : (a.setE i x).screen = a.screen := rfl
@[simp] theorem Act.setE_seed (a : Act) (i : BitVec 3) (x : Word) : (a.setE i x).seed = a.seed := rfl
@[simp] theorem Act.setE_fpflags (a : Act) (i : BitVec 3) (x : Word) : (a.setE i x).fpflags = a.fpflags := rfl
@[simp] theorem Act.setE_trapnv (a : Act) (i : BitVec 3) (x : Word) : (a.setE i x).trapnv = a.trapnv := rfl
@[simp] theorem Act.setE_mxinj (a : Act) (i : BitVec 3) (x : Word) : (a.setE i x).mxinj = a.mxinj := rfl
@[simp] theorem Act.setE_sig (a : Act) (i : BitVec 3) (x : Word) : (a.setE i x).sig = a.sig := rfl
@[simp] theorem Act.setE_rodRec (a : Act) (i : BitVec 3) (x : Word) : (a.setE i x).rodRec = a.rodRec := rfl
@[simp] theorem Act.setE_beamRec (a : Act) (i : BitVec 3) (x : Word) : (a.setE i x).beamRec = a.beamRec := rfl
@[simp] theorem Act.setE_items (a : Act) (i : BitVec 3) (x : Word) : (a.setE i x).items = a.items := rfl
@[simp] theorem Act.setE_adds (a : Act) (i : BitVec 3) (x : Word) : (a.setE i x).adds = a.adds := rfl
@[simp] theorem Act.setE_rods (a : Act) (i : BitVec 3) (x : Word) : (a.setE i x).rods = a.rods := rfl
@[simp] theorem Act.setE_wait (a : Act) (i : BitVec 3) (x : Word) : (a.setE i x).wait = a.wait := rfl
@[simp] theorem Act.setE_block (a : Act) (i : BitVec 3) (x : Word) : (a.setE i x).block = a.block := rfl
@[simp] theorem Act.setE_leases (a : Act) (i : BitVec 3) (x : Word) : (a.setE i x).leases = a.leases := rfl
@[simp] theorem Act.setE_used (a : Act) (i : BitVec 3) (x : Word) : (a.setE i x).used = a.used := rfl
@[simp] theorem Act.setE_budget (a : Act) (i : BitVec 3) (x : Word) : (a.setE i x).budget = a.budget := rfl
@[simp] theorem Act.setE_asid (a : Act) (i : BitVec 3) (x : Word) : (a.setE i x).asid = a.asid := rfl
@[simp] theorem Act.setE_key (a : Act) (i : BitVec 3) (x : Word) : (a.setE i x).key = a.key := rfl
@[simp] theorem Act.setE_gid (a : Act) (i : BitVec 3) (x : Word) : (a.setE i x).gid = a.gid := rfl
@[simp] theorem Act.setE_parkTch (a : Act) (i : BitVec 3) (x : Word) : (a.setE i x).parkTch = a.parkTch := rfl
@[simp] theorem Act.setE_dispBy (a : Act) (i : BitVec 3) (x : Word) : (a.setE i x).dispBy = a.dispBy := rfl
@[simp] theorem Act.setE_commit (a : Act) (i : BitVec 3) (x : Word) : (a.setE i x).commit = a.commit := rfl
@[simp] theorem Act.setE_replica (a : Act) (i : BitVec 3) (x : Word) : (a.setE i x).replica = a.replica := rfl
@[simp] theorem Act.setE_twin (a : Act) (i : BitVec 3) (x : Word) : (a.setE i x).twin = a.twin := rfl
@[simp] theorem Act.setE_atEnd (a : Act) (i : BitVec 3) (x : Word) : (a.setE i x).atEnd = a.atEnd := rfl
@[simp] theorem Act.setE_mate (a : Act) (i : BitVec 3) (x : Word) : (a.setE i x).mate = a.mate := rfl
@[simp] theorem Act.setE_poisons (a : Act) (i : BitVec 3) (x : Word) : (a.setE i x).poisons = a.poisons := rfl
@[simp] theorem Act.setE_hasty (a : Act) (i : BitVec 3) (x : Word) : (a.setE i x).hasty = a.hasty := rfl
@[simp] theorem Act.setE_lazy (a : Act) (i : BitVec 3) (x : Word) : (a.setE i x).lazy = a.lazy := rfl
@[simp] theorem Act.setE_preread (a : Act) (i : BitVec 3) (x : Word) : (a.setE i x).preread = a.preread := rfl

/-! ### Reading a part after writing it -/

@[simp] theorem State.act?_setAct_same (s : State) (k : Nat) (x : Act) : (s.setAct k x).act? k = some x := by
  simp [State.act?, State.setAct]

theorem State.act?_setAct_ne (s : State) {k j : Nat} (x : Act) (h : j ≠ k) : (s.setAct k x).act? j = s.act? j := by
  simp [State.act?, State.setAct, tabFind_tabSet_ne _ x h]

@[simp] theorem State.act_setAct_same (s : State) (k : Nat) (x : Act) : (s.setAct k x).act k = x := by
  simp [State.act]

@[simp] theorem State.setAct_setAct (s : State) (k : Nat) (x y : Act) : (s.setAct k x).setAct k y = s.setAct k y := by
  simp [State.setAct]

@[simp] theorem State.tile_setTile_same (s : State) (k : Nat) (x : Tile) : (s.setTile k x).tile k = x := by
  simp [State.tile, State.setTile]

theorem State.tile_setTile_ne (s : State) {k j : Nat} (x : Tile) (h : j ≠ k) : (s.setTile k x).tile j = s.tile j := by
  simp [State.tile, State.setTile, tabFind_tabSet_ne _ x h]

@[simp] theorem State.setTile_setTile (s : State) (k : Nat) (x y : Tile) :
    (s.setTile k x).setTile k y = s.setTile k y := by
  simp [State.setTile]

@[simp] theorem State.act?_setTile (s : State) (k j : Nat) (x : Tile) : (s.setTile k x).act? j = s.act? j := rfl
@[simp] theorem State.act?_setPanel (s : State) (k j : Nat) (x : Panel) : (s.setPanel k x).act? j = s.act? j := rfl
@[simp] theorem State.act?_setPt (s : State) (k j : Nat) (x : Pt) : (s.setPt k x).act? j = s.act? j := rfl
@[simp] theorem State.act?_setDie (s : State) (k j : Nat) (x : Die) : (s.setDie k x).act? j = s.act? j := rfl
@[simp] theorem State.act?_setFw (s : State) (k j : Nat) (x : FwCore) : (s.setFw k x).act? j = s.act? j := rfl
@[simp] theorem State.here_setTile (s : State) (k : Nat) (x : Tile) : (s.setTile k x).here = s.here := rfl
@[simp] theorem State.here_setPanel (s : State) (k : Nat) (x : Panel) : (s.setPanel k x).here = s.here := rfl
@[simp] theorem State.here_setPt (s : State) (k : Nat) (x : Pt) : (s.setPt k x).here = s.here := rfl
@[simp] theorem State.here_setDie (s : State) (k : Nat) (x : Die) : (s.setDie k x).here = s.here := rfl
@[simp] theorem State.here_setFw (s : State) (k : Nat) (x : FwCore) : (s.setFw k x).here = s.here := rfl
@[simp] theorem State.tile_setAct (s : State) (k j : Nat) (x : Act) : (s.setAct k x).tile j = s.tile j := rfl
@[simp] theorem State.tile_setPanel (s : State) (k j : Nat) (x : Panel) : (s.setPanel k x).tile j = s.tile j := rfl
@[simp] theorem State.tile_setPt (s : State) (k j : Nat) (x : Pt) : (s.setPt k x).tile j = s.tile j := rfl
@[simp] theorem State.tile_setDie (s : State) (k j : Nat) (x : Die) : (s.setDie k x).tile j = s.tile j := rfl
@[simp] theorem State.tile_setFw (s : State) (k j : Nat) (x : FwCore) : (s.setFw k x).tile j = s.tile j := rfl

@[simp] theorem State.pt_setPt_same (s : State) (k : Nat) (x : Pt) : (s.setPt k x).pt k = x := by
  simp [State.pt, State.setPt]

@[simp] theorem State.die_setDie_same (s : State) (k : Nat) (x : Die) : (s.setDie k x).die k = x := by
  simp [State.die, State.setDie]

@[simp] theorem State.panel_setPanel_same (s : State) (k : Nat) (x : Panel) : (s.setPanel k x).panel k = x := by
  simp [State.panel, State.setPanel]

@[simp] theorem State.fwCore_setFw_same (s : State) (k : Nat) (x : FwCore) : (s.setFw k x).fwCore k = x := by
  simp [State.fwCore, State.setFw]

@[simp] theorem State.setDie_setDie (s : State) (k : Nat) (x y : Die) : (s.setDie k x).setDie k y = s.setDie k y := by
  simp [State.setDie]

/-! ### Registers -/

@[simp] theorem Act.wreg_setW_same (a : Act) (i : BitVec 5) (x : Word) : (a.setW i x).wreg i = x := by
  simp [Act.wreg, Act.setW]

theorem Act.wreg_setW_ne (a : Act) {i j : BitVec 5} (x : Word) (h : j ≠ i) : (a.setW i x).wreg j = a.wreg j := by
  have : i.toNat ≠ j.toNat := fun e => h (BitVec.eq_of_toNat_eq e.symm)
  simp [Act.wreg, Act.setW, this]

@[simp] theorem Act.vreg_setV_same (a : Act) (i : BitVec 4) (x : Vec) : (a.setV i x).vreg i = x := by
  simp [Act.vreg, Act.setV]

theorem Act.vreg_setV_ne (a : Act) {i j : BitVec 4} (x : Vec) (h : j ≠ i) : (a.setV i x).vreg j = a.vreg j := by
  have : i.toNat ≠ j.toNat := fun e => h (BitVec.eq_of_toNat_eq e.symm)
  simp [Act.vreg, Act.setV, this]

@[simp] theorem Act.mreg_zero (a : Act) : a.mreg 0 = BitVec.allOnes 64 := by simp [Act.mreg]

@[simp] theorem Act.wreg_setV (a : Act) (i : BitVec 4) (x : Vec) (j : BitVec 5) : (a.setV i x).wreg j = a.wreg j := rfl
@[simp] theorem Act.wreg_setM (a : Act) (i : BitVec 3) (x : Word) (j : BitVec 5) : (a.setM i x).wreg j = a.wreg j := rfl
@[simp] theorem Act.wreg_setE (a : Act) (i : BitVec 3) (x : Word) (j : BitVec 5) : (a.setE i x).wreg j = a.wreg j := rfl
@[simp] theorem Act.vreg_setW (a : Act) (i : BitVec 5) (x : Word) (j : BitVec 4) : (a.setW i x).vreg j = a.vreg j := rfl

/-! ### The issuing context -/

/-- Reading the issuing context when `cur` names one. -/
theorem State.here_eq {s : State} {a : Act} (h : s.act? s.cur = some a) : s.here = a := by
  simp [State.here, State.act, h]

/-- Changing the issuing context when `cur` names one. -/
theorem State.updHere_eq {s : State} {a : Act} (h : s.act? s.cur = some a) (f : Act → Act) :
    s.updHere f = s.setAct s.cur (f a) := by
  simp [State.updHere, State.updAct, h]

/-- Setting a w register of the issuing context. -/
theorem State.setW_eq {s : State} {a : Act} (h : s.act? s.cur = some a) (d : BitVec 5) (x : Word) :
    s.setW d x = s.setAct s.cur (a.setW d x) := by
  simp [State.setW, State.updHere_eq h]

/-- Reading a w register of the issuing context. -/
theorem State.w_eq {s : State} {a : Act} (h : s.act? s.cur = some a) (i : BitVec 5) : s.w i = a.wreg i := by
  simp [State.w, State.here_eq h]

/-- The issuing context after it was changed. -/
@[simp] theorem State.here_setAct (s : State) (x : Act) : (s.setAct s.cur x).here = x := by
  simp [State.here]

end Sys2Proof.Machine
end

