-- ==== Sys2Proof/Laws/Issue.lean ====
section
/-! SUPPORT. What issuing an instruction can do (one lemma for each shared operation): the outcome of a word of an
issuing context is its effect followed by the PC's advance, or the fault it took. -/

namespace Sys2Proof.Machine

variable {s t : State} {a b : Act}

/-- A context that issues waits for nothing. -/
theorem Issuing.wait (h : Issuing s a) : a.wait = .none := by
  have := h.runs
  simp [Act.halting] at this
  exact this.1.1

/-- The issuing context, read. -/
theorem Issuing.here_eq (h : Issuing s a) : s.here = a := State.here_eq h.here

/-- An issuing context has no wait to end. -/
theorem Issuing.retrying (h : Issuing s a) : s.retrying a.wait = s := by rw [h.wait]; rfl

/-- A word of an issuing context answers a next state: what its effect gives, or the exception it takes. -/
theorem issue_issuing (h : Issuing s a) (f : State → Res State) : issue s f = .next (s.finish (f s)) := by
  simp [issue, h.here, h.retrying]

/-- Without a context an instruction word faults. -/
theorem issue_none (h : s.act? s.cur = none) (f : State → Res State) : issue s f = .fault .noContext := by
  simp [issue, h]

/-- With a context an instruction word answers a next state. -/
theorem issue_next (h : (s.act? s.cur).isSome) (f : State → Res State) : ∃ t, issue s f = .next t := by
  obtain ⟨a, ha⟩ := Option.isSome_iff_exists.mp h
  exact ⟨_, by simp [issue, ha]; rfl⟩

/-- Without tags an instruction is its effect alone (R116). -/
theorem withRegs_untagged (h : s.hereTags = []) (r w : List Nat) (f : State → Res State) : withRegs r w f s = f s := by
  simp [withRegs, h]

/-- The PC moves past an instruction of a context that goes on. -/
theorem State.done_runs (h : t.act? t.cur = some b) (hb : b.halting = false) (n : Word) : t.done n = t.after b n := by
  simp [State.done, h, hb, State.advance, State.updHere_eq h, State.after]

/-- The PC stays at an instruction of a context that waits, parked or stopped. -/
theorem State.done_halts (h : t.act? t.cur = some b) (hb : b.halting = true) (n : Word) : t.done n = t := by
  simp [State.done, h, hb]

/-- A word with an effect. -/
theorem plainInstr_ok (h : Issuing s a) {f : State → Res State} (hf : f s = .ok t) (r w : List Nat) :
    plainInstr r w f s = .next (t.done 4) := by
  simp [plainInstr, issue_issuing h, withRegs_untagged h.untagged, hf, State.finish, bind, Except.bind, pure, Except.pure]

/-- A word whose checks fail takes its exception. -/
theorem plainInstr_error (h : Issuing s a) {f : State → Res State} {e : Trap} (hf : f s = .error e) (r w : List Nat) :
    plainInstr r w f s = .next (s.takeTrap s.cur e) := by
  simp [plainInstr, issue_issuing h, withRegs_untagged h.untagged, hf, State.finish, bind, Except.bind]

/-- R282: the meaning of a matrix operation begins with its role check. -/
theorem execPure_role {op : PureOp} {e : Trap} (hm : op.isMatrix = true) (he : checkMatrixRole s.here = .error e) :
    execPure op s = .error e := by
  cases op <;> simp [PureOp.isMatrix] at hm <;>
    simp [execPure, matZero, matRead, matWrite, matScale, matCheck, matSkip, matMultiply, tsLoad, tsStore, tsFill, he,
      bind, Except.bind]

/-- The role check made before the registers are read changes nothing for a context without tags. -/
theorem pureInstr_plain (h : Issuing s a) {op : PureOp} : pureInstr op s = plainInstr [] [] (execPure op) s := by
  simp only [pureInstr, plainInstr, issue_issuing h, withRegs_untagged h.untagged]
  unfold PureOp.checkRole
  split
  · rename_i hm
    cases he : checkMatrixRole s.here with
    | ok _ => rfl
    | error e => simp [execPure_role hm he, bind, Except.bind]
  · rfl

/-- A register-only operation with an effect. -/
theorem pureInstr_ok (h : Issuing s a) {op : PureOp} (hf : execPure op s = .ok t) :
    pureInstr op s = .next (t.done 4) := by rw [pureInstr_plain h]; exact plainInstr_ok h hf _ _

/-- A register-only operation whose checks fail. -/
theorem pureInstr_error (h : Issuing s a) {op : PureOp} {e : Trap} (hf : execPure op s = .error e) :
    pureInstr op s = .next (s.takeTrap s.cur e) := by
  rw [pureInstr_plain h]; exact plainInstr_error h hf _ _

/-- A word that changes only the issuing context. -/
theorem plainInstr_act (h : Issuing s a) {f : State → Res State} (hf : f s = .ok (s.setAct s.cur b))
    (hb : b.halting = false) (r w : List Nat) : plainInstr r w f s = .next (s.after b 4) := by
  rw [plainInstr_ok h hf, State.done_runs (b := b) (by simp) hb]
  simp [State.after]

/-- A register-only operation that changes only the issuing context. -/
theorem pureInstr_act (h : Issuing s a) {op : PureOp} (hf : execPure op s = .ok (s.setAct s.cur b))
    (hb : b.halting = false) : pureInstr op s = .next (s.after b 4) := by
  rw [pureInstr_plain h]; exact plainInstr_act h hf hb _ _

/-- A compact register-only operation that changes only the issuing context. -/
theorem compactInstr_act (h : Issuing s a) {op : PureOp} (hf : execPure op s = .ok (s.setAct s.cur b))
    (hb : b.halting = false) : compactInstr op s = .next (s.after b 2) := by
  simp [compactInstr, issue_issuing h, withRegs_untagged h.untagged, hf, State.finish, bind, Except.bind, pure,
    Except.pure, State.done_runs (t := s.setAct s.cur b) (b := b) (by simp) hb, State.after]

@[simp] theorem Act.halting_setW (a : Act) (i : BitVec 5) (x : Word) : (a.setW i x).halting = a.halting := rfl
@[simp] theorem Act.halting_setV (a : Act) (i : BitVec 4) (x : Vec) : (a.setV i x).halting = a.halting := rfl
@[simp] theorem Act.halting_setM (a : Act) (i : BitVec 3) (x : Word) : (a.setM i x).halting = a.halting := rfl
@[simp] theorem Act.halting_setE (a : Act) (i : BitVec 3) (x : Word) : (a.setE i x).halting = a.halting := rfl

/-- A word that writes one w register of the issuing context. -/
theorem plainInstr_setW (h : Issuing s a) {f : State → Res State} {d : BitVec 5} {x : Word}
    (hf : f s = .ok (s.setW d x)) (r w : List Nat) : plainInstr r w f s = .next (s.after (a.setW d x) 4) :=
  plainInstr_act h (by rw [hf, State.setW_eq h.here]) (by simp [h.runs]) r w

/-- A register-only operation that writes one w register. -/
theorem pureInstr_setW (h : Issuing s a) {op : PureOp} {d : BitVec 5} {x : Word}
    (hf : execPure op s = .ok (s.setW d x)) : pureInstr op s = .next (s.after (a.setW d x) 4) := by
  rw [pureInstr_plain h]; exact plainInstr_setW h hf _ _

/-! ### Vector operands (R107, R108) -/

/-- An instruction whose vector operands are at hand: its scalar checks, the pops, its effect. -/
theorem vectorInstr_ready (ha : s.here = a) {srcs dsts : List (BitVec 5)} (hv : VectorReady s a srcs dsts)
    {pre : State → Res Unit} (hp : pre s = .ok ()) {f : List Vec → State → Res State} {u : State}
    (hf : f (s.readFields srcs).1 (s.readFields srcs).2 = .ok u) : vectorInstr srcs dsts pre f s = .ok u := by
  have ho := hv.original
  simp only [vectorInstr, ha, hv.allowed, hp, bind, Except.bind, hv.ready, hf, pure, Except.pure, ho]
  rfl

/-- Reading fields that name no queue changes nothing. -/
theorem readFields_regs (s : State) (l : List (BitVec 5)) (h : ∀ f ∈ l, queueOf f = none) :
    s.readFields l = (l.map (fun f => s.here.vreg (f.setWidth 4)), s) := by
  induction l with
  | nil => rfl
  | cons f t ih =>
    simp [State.readFields, h f (by simp), ih (fun g hg => h g (by simp [hg]))]

/-- Popping a queue leaves the issuing context. -/
@[simp] theorem popQueue_acts (s : State) (q : Fin 8) : (s.popQueue q).2.acts = s.acts ∧ (s.popQueue q).2.cur = s.cur := by
  simp only [State.popQueue]
  split <;> simp

/-- Reading fields leaves every activation. -/
theorem readFields_acts (s : State) (l : List (BitVec 5)) :
    (s.readFields l).2.acts = s.acts ∧ (s.readFields l).2.cur = s.cur := by
  induction l generalizing s with
  | nil => simp [State.readFields]
  | cons f t ih =>
    simp only [State.readFields]
    split
    · rename_i q _
      have := ih (s.popQueue q).2
      simp [this]
    · simp [ih]

/-- Reading fields leaves the issuing context. -/
theorem readFields_act? (s : State) (l : List (BitVec 5)) (k : Nat) : (s.readFields l).2.act? k = s.act? k := by
  simp [State.act?, readFields_acts]

/-! ### Elements -/

/-- The element k of packed elements is the k-th, at its width. -/
theorem elemOf_packElems (W : Nat) (xs : List Nat) (h : W * xs.length ≤ 2048) (k : Nat) (hk : k < xs.length) :
    elemOf W (BitVec.ofNat 2048 (packElems W xs)) k = xs[k] % 2 ^ W := by
  have key : ∀ (xs : List Nat) (k : Nat), packElems W xs / 2 ^ (W * k) % 2 ^ W = (xs.getD k 0) % 2 ^ W := by
    intro xs
    induction xs with
    | nil => intro k; simp [packElems]
    | cons x t ih =>
      intro k
      have hp : packElems W (x :: t) = x % 2 ^ W + 2 ^ W * packElems W t := rfl
      cases k with
      | zero =>
        simp [hp]
      | succ k =>
        have hpos : 0 < 2 ^ W := Nat.two_pow_pos W
        have h1 : packElems W (x :: t) / 2 ^ W = packElems W t := by
          rw [hp, Nat.add_mul_div_left _ _ hpos, Nat.div_eq_of_lt (Nat.mod_lt _ hpos), Nat.zero_add]
        have h2 : W * (k + 1) = W + W * k := by rw [Nat.mul_succ, Nat.add_comm]
        rw [h2, Nat.pow_add, ← Nat.div_div_eq_div_mul, h1, ih k, List.getD_cons_succ]
  have hlt : ∀ (xs : List Nat), packElems W xs < 2 ^ (W * xs.length) := by
    intro xs
    induction xs with
    | nil => simp [packElems]
    | cons x t ih =>
      have hp : packElems W (x :: t) = x % 2 ^ W + 2 ^ W * packElems W t := rfl
      have h2 : W * (x :: t).length = W + W * t.length := by rw [List.length_cons, Nat.mul_succ, Nat.add_comm]
      rw [hp, h2, Nat.pow_add]
      have hx : x % 2 ^ W < 2 ^ W := Nat.mod_lt _ (Nat.two_pow_pos W)
      calc x % 2 ^ W + 2 ^ W * packElems W t < 2 ^ W + 2 ^ W * packElems W t := by omega
        _ = 2 ^ W * (packElems W t + 1) := by rw [Nat.mul_succ, Nat.add_comm]
        _ ≤ 2 ^ W * 2 ^ (W * t.length) := Nat.mul_le_mul_left _ ih
  have hb : packElems W xs < 2 ^ 2048 := Nat.lt_of_lt_of_le (hlt xs) (Nat.pow_le_pow_right (by decide) h)
  simp only [elemOf, BitVec.toNat_ofNat, Nat.mod_eq_of_lt hb, Nat.shiftRight_eq_div_pow]
  rw [key]
  simp [List.getD_eq_getElem?_getD, hk]

end Sys2Proof.Machine
end

