-- ==== Sys2Proof/Laws/PerInstr.lean ====
section
/-! SUPPORT. The family Encodes of LAWS.json: the decoder reads back each constructor's own encoding (R29, R36 to R43). -/

namespace Sys2Proof.Laws.Encodes

open Sys2Proof

/-- Bits of the lower part of a word laid out of two. -/
@[simp] theorem extract_low {n m : Nat} (x : BitVec n) (y : BitVec m) (k l : Nat) (h : k + l ≤ m) :
    (no_index (x ++ y)).extractLsb' k l = y.extractLsb' k l := by
  ext i hi
  simp [BitVec.getLsbD_append, show k + i < m by omega]

/-- Bits of the upper part of a word laid out of two. -/
@[simp] theorem extract_high {n m : Nat} (x : BitVec n) (y : BitVec m) (k l : Nat) (h : m ≤ k) :
    (no_index (x ++ y)).extractLsb' k l = x.extractLsb' (k - m) l := by
  ext i hi
  simp [BitVec.getLsbD_append, show ¬ k + i < m by omega, show k + i - m = k - m + i by omega]

/-- One bit of the lower part of a word laid out of two. -/
@[simp] theorem get_low {n m : Nat} (x : BitVec n) (y : BitVec m) (k : Nat) (h : k < m) :
    (no_index (x ++ y)).getLsbD k = y.getLsbD k := by
  simp [BitVec.getLsbD_append, h]

/-- One bit of the upper part of a word laid out of two. -/
@[simp] theorem get_high {n m : Nat} (x : BitVec n) (y : BitVec m) (k : Nat) (h : m ≤ k) :
    (no_index (x ++ y)).getLsbD k = x.getLsbD (k - m) := by
  simp [BitVec.getLsbD_append, show ¬ k < m by omega]

/-- R29: the instruction's encoding is one halfword that does not start a word and reads back as it, or two of which the
first starts a word that reads back as it; an event has none. -/
def Statement (i : Instr) : Prop :=
  match encode i with
  | [] => True
  | [h] => Decode.isLong h = false ∧ Decode.half h = some i
  | [h1, h2] => Decode.isLong h1 = true ∧ Decode.word (h1 ++ h2) = some i
  | _ => False

/-- The two halves of a word are the word. -/
theorem halves_join (w : BitVec 32) : (w.extractLsb' 16 16 ++ w.extractLsb' 0 16 : BitVec 32) = w := by
  apply BitVec.eq_of_getLsbD_eq
  intro i hi
  simp only [BitVec.getLsbD_append, BitVec.getLsbD_extractLsb']
  split
  · simp [*]
  · simp [show i - 16 < 16 by omega, show 16 + (i - 16) = i by omega]

theorem long_of_word {i : Instr} {w : BitVec 32} (hm : w.extractLsb' 30 2 = 3) (hw : Decode.word w = some i)
    (he : encode i = word32 w) : Statement i := by
  simp only [Statement, he, word32, halves_join, hw, and_true]
  have : (w.extractLsb' 16 16).extractLsb' 14 2 = w.extractLsb' 30 2 := by
    ext j hj
    simp [show 14 + j < 16 by omega, show 16 + (14 + j) = 30 + j by omega]
  simp [Decode.isLong, this, hm]

theorem half_of_word {i : Instr} {h : BitVec 16} (hl : Decode.isLong h = false) (hh : Decode.half h = some i)
    (he : encode i = [h]) : Statement i := by
  simp only [Statement, he]
  exact ⟨hl, hh⟩

theorem br (imm) : Statement (.br imm) :=
  long_of_word (w := 0xc0#8 ++ imm) (by simp) (by simp [Decode.word, -BitVec.getLsbD_eq_getElem]) rfl
theorem call (imm) : Statement (.call imm) :=
  long_of_word (w := 0xc1#8 ++ imm) (by simp) (by simp [Decode.word, -BitVec.getLsbD_eq_getElem]) rfl
theorem beq (a b off) : Statement (.beq a b off) :=
  long_of_word (w := 0xc20#12 ++ a ++ b ++ off) (by simp) (by simp [Decode.word, Decode.major02, -BitVec.getLsbD_eq_getElem]) rfl
theorem bne (a b off) : Statement (.bne a b off) :=
  long_of_word (w := 0xc21#12 ++ a ++ b ++ off) (by simp) (by simp [Decode.word, Decode.major02, -BitVec.getLsbD_eq_getElem]) rfl
theorem blt (a b off) : Statement (.blt a b off) :=
  long_of_word (w := 0xc22#12 ++ a ++ b ++ off) (by simp) (by simp [Decode.word, Decode.major02, -BitVec.getLsbD_eq_getElem]) rfl
theorem bge (a b off) : Statement (.bge a b off) :=
  long_of_word (w := 0xc23#12 ++ a ++ b ++ off) (by simp) (by simp [Decode.word, Decode.major02, -BitVec.getLsbD_eq_getElem]) rfl
theorem bltu (a b off) : Statement (.bltu a b off) :=
  long_of_word (w := 0xc24#12 ++ a ++ b ++ off) (by simp) (by simp [Decode.word, Decode.major02, -BitVec.getLsbD_eq_getElem]) rfl
theorem bgeu (a b off) : Statement (.bgeu a b off) :=
  long_of_word (w := 0xc25#12 ++ a ++ b ++ off) (by simp) (by simp [Decode.word, Decode.major02, -BitVec.getLsbD_eq_getElem]) rfl
theorem bbs (a b off) : Statement (.bbs a b off) :=
  long_of_word (w := 0xc26#12 ++ a ++ b ++ off) (by simp) (by simp [Decode.word, Decode.major02, -BitVec.getLsbD_eq_getElem]) rfl
theorem bbc (a b off) : Statement (.bbc a b off) :=
  long_of_word (w := 0xc27#12 ++ a ++ b ++ off) (by simp) (by simp [Decode.word, Decode.major02, -BitVec.getLsbD_eq_getElem]) rfl
theorem jt (a imm) : Statement (.jt a imm) :=
  long_of_word (w := 0x1860#13 ++ a ++ imm) (by simp) (by simp [Decode.word, -BitVec.getLsbD_eq_getElem]) rfl
theorem lpad (lab) : Statement (.lpad lab) :=
  long_of_word (w := 0xc400#16 ++ lab) (by simp) (by simp [Decode.word, -BitVec.getLsbD_eq_getElem]) rfl
theorem ret : Statement (.ret) :=
  long_of_word (w := 0xc5000000#32) rfl rfl rfl
theorem nend : Statement (.nend) :=
  long_of_word (w := 0xc5000001#32) rfl rfl rfl
theorem nabort (a) : Statement (.nabort a) :=
  long_of_word (w := 0x18a0#13 ++ a ++ 0x2#14) (by simp) (by simp [Decode.word, Decode.major05, -BitVec.getLsbD_eq_getElem]) rfl
theorem maskw : Statement (.maskw) :=
  long_of_word (w := 0xc5000003#32) rfl rfl rfl
theorem unmaskw : Statement (.unmaskw) :=
  long_of_word (w := 0xc5000004#32) rfl rfl rfl
theorem rep (cnt len d a b) : Statement (.rep cnt len d a b) :=
  long_of_word (w := 0xc6#8 ++ cnt ++ len ++ d ++ a ++ b ++ 0x0#4) (by simp) (by simp [Decode.word, -BitVec.getLsbD_eq_getElem]) rfl
theorem add (d a b w) : Statement (.add d a b w) :=
  long_of_word (w := 0xc8#8 ++ d ++ a ++ b ++ BitVec.ofBool w ++ 0x0#8) (by simp) (by simp [Decode.word, Decode.major08, -BitVec.getLsbD_eq_getElem]) rfl
theorem sub (d a b w) : Statement (.sub d a b w) :=
  long_of_word (w := 0xc8#8 ++ d ++ a ++ b ++ BitVec.ofBool w ++ 0x1#8) (by simp) (by simp [Decode.word, Decode.major08, -BitVec.getLsbD_eq_getElem]) rfl
theorem and (d a b w) : Statement (.and d a b w) :=
  long_of_word (w := 0xc8#8 ++ d ++ a ++ b ++ BitVec.ofBool w ++ 0x2#8) (by simp) (by simp [Decode.word, Decode.major08, -BitVec.getLsbD_eq_getElem]) rfl
theorem or (d a b w) : Statement (.or d a b w) :=
  long_of_word (w := 0xc8#8 ++ d ++ a ++ b ++ BitVec.ofBool w ++ 0x3#8) (by simp) (by simp [Decode.word, Decode.major08, -BitVec.getLsbD_eq_getElem]) rfl
theorem xor (d a b w) : Statement (.xor d a b w) :=
  long_of_word (w := 0xc8#8 ++ d ++ a ++ b ++ BitVec.ofBool w ++ 0x4#8) (by simp) (by simp [Decode.word, Decode.major08, -BitVec.getLsbD_eq_getElem]) rfl
theorem andn (d a b w) : Statement (.andn d a b w) :=
  long_of_word (w := 0xc8#8 ++ d ++ a ++ b ++ BitVec.ofBool w ++ 0x5#8) (by simp) (by simp [Decode.word, Decode.major08, -BitVec.getLsbD_eq_getElem]) rfl
theorem shl (d a b w) : Statement (.shl d a b w) :=
  long_of_word (w := 0xc8#8 ++ d ++ a ++ b ++ BitVec.ofBool w ++ 0x6#8) (by simp) (by simp [Decode.word, Decode.major08, -BitVec.getLsbD_eq_getElem]) rfl
theorem shr (d a b w) : Statement (.shr d a b w) :=
  long_of_word (w := 0xc8#8 ++ d ++ a ++ b ++ BitVec.ofBool w ++ 0x7#8) (by simp) (by simp [Decode.word, Decode.major08, -BitVec.getLsbD_eq_getElem]) rfl
theorem sha (d a b w) : Statement (.sha d a b w) :=
  long_of_word (w := 0xc8#8 ++ d ++ a ++ b ++ BitVec.ofBool w ++ 0x8#8) (by simp) (by simp [Decode.word, Decode.major08, -BitVec.getLsbD_eq_getElem]) rfl
theorem ror (d a b w) : Statement (.ror d a b w) :=
  long_of_word (w := 0xc8#8 ++ d ++ a ++ b ++ BitVec.ofBool w ++ 0x9#8) (by simp) (by simp [Decode.word, Decode.major08, -BitVec.getLsbD_eq_getElem]) rfl
theorem mul (d a b w) : Statement (.mul d a b w) :=
  long_of_word (w := 0xc8#8 ++ d ++ a ++ b ++ BitVec.ofBool w ++ 0xa#8) (by simp) (by simp [Decode.word, Decode.major08, -BitVec.getLsbD_eq_getElem]) rfl
theorem mulh (d a b w) : Statement (.mulh d a b w) :=
  long_of_word (w := 0xc8#8 ++ d ++ a ++ b ++ BitVec.ofBool w ++ 0xb#8) (by simp) (by simp [Decode.word, Decode.major08, -BitVec.getLsbD_eq_getElem]) rfl
theorem mulhu (d a b w) : Statement (.mulhu d a b w) :=
  long_of_word (w := 0xc8#8 ++ d ++ a ++ b ++ BitVec.ofBool w ++ 0xc#8) (by simp) (by simp [Decode.word, Decode.major08, -BitVec.getLsbD_eq_getElem]) rfl
theorem div (d a b w) : Statement (.div d a b w) :=
  long_of_word (w := 0xc8#8 ++ d ++ a ++ b ++ BitVec.ofBool w ++ 0xd#8) (by simp) (by simp [Decode.word, Decode.major08, -BitVec.getLsbD_eq_getElem]) rfl
theorem divu (d a b w) : Statement (.divu d a b w) :=
  long_of_word (w := 0xc8#8 ++ d ++ a ++ b ++ BitVec.ofBool w ++ 0xe#8) (by simp) (by simp [Decode.word, Decode.major08, -BitVec.getLsbD_eq_getElem]) rfl
theorem rem (d a b w) : Statement (.rem d a b w) :=
  long_of_word (w := 0xc8#8 ++ d ++ a ++ b ++ BitVec.ofBool w ++ 0xf#8) (by simp) (by simp [Decode.word, Decode.major08, -BitVec.getLsbD_eq_getElem]) rfl
theorem remu (d a b w) : Statement (.remu d a b w) :=
  long_of_word (w := 0xc8#8 ++ d ++ a ++ b ++ BitVec.ofBool w ++ 0x10#8) (by simp) (by simp [Decode.word, Decode.major08, -BitVec.getLsbD_eq_getElem]) rfl
theorem min (d a b w) : Statement (.min d a b w) :=
  long_of_word (w := 0xc8#8 ++ d ++ a ++ b ++ BitVec.ofBool w ++ 0x11#8) (by simp) (by simp [Decode.word, Decode.major08, -BitVec.getLsbD_eq_getElem]) rfl
theorem max (d a b w) : Statement (.max d a b w) :=
  long_of_word (w := 0xc8#8 ++ d ++ a ++ b ++ BitVec.ofBool w ++ 0x12#8) (by simp) (by simp [Decode.word, Decode.major08, -BitVec.getLsbD_eq_getElem]) rfl
theorem minu (d a b w) : Statement (.minu d a b w) :=
  long_of_word (w := 0xc8#8 ++ d ++ a ++ b ++ BitVec.ofBool w ++ 0x13#8) (by simp) (by simp [Decode.word, Decode.major08, -BitVec.getLsbD_eq_getElem]) rfl
theorem maxu (d a b w) : Statement (.maxu d a b w) :=
  long_of_word (w := 0xc8#8 ++ d ++ a ++ b ++ BitVec.ofBool w ++ 0x14#8) (by simp) (by simp [Decode.word, Decode.major08, -BitVec.getLsbD_eq_getElem]) rfl
theorem slt (d a b w) : Statement (.slt d a b w) :=
  long_of_word (w := 0xc8#8 ++ d ++ a ++ b ++ BitVec.ofBool w ++ 0x15#8) (by simp) (by simp [Decode.word, Decode.major08, -BitVec.getLsbD_eq_getElem]) rfl
theorem sltu (d a b w) : Statement (.sltu d a b w) :=
  long_of_word (w := 0xc8#8 ++ d ++ a ++ b ++ BitVec.ofBool w ++ 0x16#8) (by simp) (by simp [Decode.word, Decode.major08, -BitVec.getLsbD_eq_getElem]) rfl
theorem seq (d a b w) : Statement (.seq d a b w) :=
  long_of_word (w := 0xc8#8 ++ d ++ a ++ b ++ BitVec.ofBool w ++ 0x17#8) (by simp) (by simp [Decode.word, Decode.major08, -BitVec.getLsbD_eq_getElem]) rfl
theorem clz (d a w) : Statement (.clz d a w) :=
  long_of_word (w := 0xc8#8 ++ d ++ a ++ 0x0#5 ++ BitVec.ofBool w ++ 0x18#8) (by simp) (by simp [Decode.word, Decode.major08, -BitVec.getLsbD_eq_getElem]) rfl
theorem ctz (d a w) : Statement (.ctz d a w) :=
  long_of_word (w := 0xc8#8 ++ d ++ a ++ 0x0#5 ++ BitVec.ofBool w ++ 0x19#8) (by simp) (by simp [Decode.word, Decode.major08, -BitVec.getLsbD_eq_getElem]) rfl
theorem popc (d a w) : Statement (.popc d a w) :=
  long_of_word (w := 0xc8#8 ++ d ++ a ++ 0x0#5 ++ BitVec.ofBool w ++ 0x1a#8) (by simp) (by simp [Decode.word, Decode.major08, -BitVec.getLsbD_eq_getElem]) rfl
theorem brev (d a w) : Statement (.brev d a w) :=
  long_of_word (w := 0xc8#8 ++ d ++ a ++ 0x0#5 ++ BitVec.ofBool w ++ 0x1b#8) (by simp) (by simp [Decode.word, Decode.major08, -BitVec.getLsbD_eq_getElem]) rfl
theorem bswap (d a w) : Statement (.bswap d a w) :=
  long_of_word (w := 0xc8#8 ++ d ++ a ++ 0x0#5 ++ BitVec.ofBool w ++ 0x1c#8) (by simp) (by simp [Decode.word, Decode.major08, -BitVec.getLsbD_eq_getElem]) rfl
theorem sext (d a b) : Statement (.sext d a b) :=
  long_of_word (w := 0xc8#8 ++ d ++ a ++ b ++ 0x1d#9) (by simp) (by simp [Decode.word, Decode.major08, -BitVec.getLsbD_eq_getElem]) rfl
theorem zext (d a b) : Statement (.zext d a b) :=
  long_of_word (w := 0xc8#8 ++ d ++ a ++ b ++ 0x1e#9) (by simp) (by simp [Decode.word, Decode.major08, -BitVec.getLsbD_eq_getElem]) rfl
theorem adds1 (d a b w) : Statement (.adds1 d a b w) :=
  long_of_word (w := 0xc8#8 ++ d ++ a ++ b ++ BitVec.ofBool w ++ 0x1f#8) (by simp) (by simp [Decode.word, Decode.major08, -BitVec.getLsbD_eq_getElem]) rfl
theorem adds2 (d a b w) : Statement (.adds2 d a b w) :=
  long_of_word (w := 0xc8#8 ++ d ++ a ++ b ++ BitVec.ofBool w ++ 0x20#8) (by simp) (by simp [Decode.word, Decode.major08, -BitVec.getLsbD_eq_getElem]) rfl
theorem adds3 (d a b w) : Statement (.adds3 d a b w) :=
  long_of_word (w := 0xc8#8 ++ d ++ a ++ b ++ BitVec.ofBool w ++ 0x21#8) (by simp) (by simp [Decode.word, Decode.major08, -BitVec.getLsbD_eq_getElem]) rfl
theorem vta (d a b) : Statement (.vta d a b) :=
  long_of_word (w := 0xc8#8 ++ d ++ a ++ b ++ 0x22#9) (by simp) (by simp [Decode.word, Decode.major08, -BitVec.getLsbD_eq_getElem]) rfl
theorem sel (d a b) : Statement (.sel d a b) :=
  long_of_word (w := 0xc8#8 ++ d ++ a ++ b ++ 0x23#9) (by simp) (by simp [Decode.word, Decode.major08, -BitVec.getLsbD_eq_getElem]) rfl
theorem addi (d a imm) : Statement (.addi d a imm) :=
  long_of_word (w := 0xc9#8 ++ d ++ a ++ imm) (by simp) (by simp [Decode.word, -BitVec.getLsbD_eq_getElem]) rfl
theorem andi (d a imm) : Statement (.andi d a imm) :=
  long_of_word (w := 0xca#8 ++ d ++ a ++ imm) (by simp) (by simp [Decode.word, -BitVec.getLsbD_eq_getElem]) rfl
theorem ori (d a imm) : Statement (.ori d a imm) :=
  long_of_word (w := 0xcb#8 ++ d ++ a ++ imm) (by simp) (by simp [Decode.word, -BitVec.getLsbD_eq_getElem]) rfl
theorem xori (d a imm) : Statement (.xori d a imm) :=
  long_of_word (w := 0xcc#8 ++ d ++ a ++ imm) (by simp) (by simp [Decode.word, -BitVec.getLsbD_eq_getElem]) rfl
theorem lih (d imm) : Statement (.lih d imm) :=
  long_of_word (w := 0xcd#8 ++ d ++ imm) (by simp) (by simp [Decode.word, -BitVec.getLsbD_eq_getElem]) rfl
theorem shli (d a w amt) : Statement (.shli d a w amt) :=
  long_of_word (w := 0xce#8 ++ d ++ a ++ 0x0#7 ++ BitVec.ofBool w ++ amt) (by simp) (by simp [Decode.word, Decode.major0E, -BitVec.getLsbD_eq_getElem]) rfl
theorem shri (d a w amt) : Statement (.shri d a w amt) :=
  long_of_word (w := 0xce#8 ++ d ++ a ++ 0x20#7 ++ BitVec.ofBool w ++ amt) (by simp) (by simp [Decode.word, Decode.major0E, -BitVec.getLsbD_eq_getElem]) rfl
theorem shai (d a w amt) : Statement (.shai d a w amt) :=
  long_of_word (w := 0xce#8 ++ d ++ a ++ 0x40#7 ++ BitVec.ofBool w ++ amt) (by simp) (by simp [Decode.word, Decode.major0E, -BitVec.getLsbD_eq_getElem]) rfl
theorem rori (d a w amt) : Statement (.rori d a w amt) :=
  long_of_word (w := 0xce#8 ++ d ++ a ++ 0x60#7 ++ BitVec.ofBool w ++ amt) (by simp) (by simp [Decode.word, Decode.major0E, -BitVec.getLsbD_eq_getElem]) rfl
theorem addpc (d imm) : Statement (.addpc d imm) :=
  long_of_word (w := 0xcf#8 ++ d ++ imm) (by simp) (by simp [Decode.word, -BitVec.getLsbD_eq_getElem]) rfl
theorem mfi (d b) : Statement (.mfi d b) :=
  long_of_word (w := 0xd0#8 ++ d ++ 0x0#5 ++ b ++ 0x0#9) (by simp) (by simp [Decode.word, Decode.major10, -BitVec.getLsbD_eq_getElem]) rfl
theorem mfe (d b) : Statement (.mfe d b) :=
  long_of_word (w := 0xd0#8 ++ d ++ 0x0#5 ++ b ++ 0x1#9) (by simp) (by simp [Decode.word, Decode.major10, -BitVec.getLsbD_eq_getElem]) rfl
theorem mte (d a) : Statement (.mte d a) :=
  long_of_word (w := 0xd0#8 ++ d ++ a ++ 0x2#14) (by simp) (by simp [Decode.word, Decode.major10, -BitVec.getLsbD_eq_getElem]) rfl
theorem mfm (d b) : Statement (.mfm d b) :=
  long_of_word (w := 0xd0#8 ++ d ++ 0x0#5 ++ b ++ 0x3#9) (by simp) (by simp [Decode.word, Decode.major10, -BitVec.getLsbD_eq_getElem]) rfl
theorem mtm (d a) : Statement (.mtm d a) :=
  long_of_word (w := 0xd0#8 ++ d ++ a ++ 0x4#14) (by simp) (by simp [Decode.word, Decode.major10, -BitVec.getLsbD_eq_getElem]) rfl
theorem mfqc (d b) : Statement (.mfqc d b) :=
  long_of_word (w := 0xd0#8 ++ d ++ 0x0#5 ++ b ++ 0x5#9) (by simp) (by simp [Decode.word, Decode.major10, -BitVec.getLsbD_eq_getElem]) rfl
theorem wsa (d) : Statement (.wsa d) :=
  long_of_word (w := 0xd0#8 ++ d ++ 0x6#19) (by simp) (by simp [Decode.word, Decode.major10, -BitVec.getLsbD_eq_getElem]) rfl
theorem lde (d a imm) : Statement (.lde d a imm) :=
  long_of_word (w := 0xd1#8 ++ d ++ a ++ imm) (by simp) (by simp [Decode.word, -BitVec.getLsbD_eq_getElem]) rfl
theorem rcpDef (d b) : Statement (.rcpDef d b) :=
  long_of_word (w := 0xd2#8 ++ d ++ 0x0#5 ++ b ++ 0x0#9) (by simp) (by simp [Decode.word, Decode.major12, -BitVec.getLsbD_eq_getElem]) rfl
theorem rcpTagW (d a) : Statement (.rcpTagW d a) :=
  long_of_word (w := 0xd2#8 ++ d ++ a ++ 0x1#14) (by simp) (by simp [Decode.word, Decode.major12, -BitVec.getLsbD_eq_getElem]) rfl
theorem rcpTagV (d a) : Statement (.rcpTagV d a) :=
  long_of_word (w := 0xd2#8 ++ d ++ a ++ 0x2#14) (by simp) (by simp [Decode.word, Decode.major12, -BitVec.getLsbD_eq_getElem]) rfl
theorem rcpUntag (d b) : Statement (.rcpUntag d b) :=
  long_of_word (w := 0xd2#8 ++ d ++ 0x0#5 ++ b ++ 0x3#9) (by simp) (by simp [Decode.word, Decode.major12, -BitVec.getLsbD_eq_getElem]) rfl
theorem rcpDrop (d b) : Statement (.rcpDrop d b) :=
  long_of_word (w := 0xd2#8 ++ d ++ 0x0#5 ++ b ++ 0x4#9) (by simp) (by simp [Decode.word, Decode.major12, -BitVec.getLsbD_eq_getElem]) rfl
theorem rcpMat (d b) : Statement (.rcpMat d b) :=
  long_of_word (w := 0xd2#8 ++ d ++ 0x0#5 ++ b ++ 0x5#9) (by simp) (by simp [Decode.word, Decode.major12, -BitVec.getLsbD_eq_getElem]) rfl
theorem rcpClr (d) : Statement (.rcpClr d) :=
  long_of_word (w := 0xd2#8 ++ d ++ 0x6#19) (by simp) (by simp [Decode.word, Decode.major12, -BitVec.getLsbD_eq_getElem]) rfl
theorem ldL (t a ord sz off) : Statement (.ldL t a ord sz off) :=
  long_of_word (w := 0xd4#8 ++ t ++ a ++ ord ++ sz ++ off) (by simp) (by simp [Decode.word, -BitVec.getLsbD_eq_getElem]) rfl
theorem stL (t a ord sz off) : Statement (.stL t a ord sz off) :=
  long_of_word (w := 0xd5#8 ++ t ++ a ++ ord ++ sz ++ off) (by simp) (by simp [Decode.word, -BitVec.getLsbD_eq_getElem]) rfl
theorem ldG (t a ord sz off) : Statement (.ldG t a ord sz off) :=
  long_of_word (w := 0xd6#8 ++ t ++ a ++ ord ++ sz ++ off) (by simp) (by simp [Decode.word, -BitVec.getLsbD_eq_getElem]) rfl
theorem stG (t a ord sz off) : Statement (.stG t a ord sz off) :=
  long_of_word (w := 0xd7#8 ++ t ++ a ++ ord ++ sz ++ off) (by simp) (by simp [Decode.word, -BitVec.getLsbD_eq_getElem]) rfl
theorem ldT (t a ord sz off) : Statement (.ldT t a ord sz off) :=
  long_of_word (w := 0xd8#8 ++ t ++ a ++ ord ++ sz ++ off) (by simp) (by simp [Decode.word, -BitVec.getLsbD_eq_getElem]) rfl
theorem stT (t a ord sz off) : Statement (.stT t a ord sz off) :=
  long_of_word (w := 0xd9#8 ++ t ++ a ++ ord ++ sz ++ off) (by simp) (by simp [Decode.word, -BitVec.getLsbD_eq_getElem]) rfl
theorem vldL (d a m esz) : Statement (.vldL d a m esz) :=
  long_of_word (w := 0xda#8 ++ d ++ a ++ 0x0#5 ++ m ++ esz ++ 0x0#4) (by simp) (by simp [Decode.word, Decode.major1A, -BitVec.getLsbD_eq_getElem]) rfl
theorem vldG (d a m esz) : Statement (.vldG d a m esz) :=
  long_of_word (w := 0xda#8 ++ d ++ a ++ 0x0#5 ++ m ++ esz ++ 0x1#4) (by simp) (by simp [Decode.word, Decode.major1A, -BitVec.getLsbD_eq_getElem]) rfl
theorem vldT (d a m esz) : Statement (.vldT d a m esz) :=
  long_of_word (w := 0xda#8 ++ d ++ a ++ 0x0#5 ++ m ++ esz ++ 0x2#4) (by simp) (by simp [Decode.word, Decode.major1A, -BitVec.getLsbD_eq_getElem]) rfl
theorem vldsL (d a b m esz) : Statement (.vldsL d a b m esz) :=
  long_of_word (w := 0xda#8 ++ d ++ a ++ b ++ m ++ esz ++ 0x3#4) (by simp) (by simp [Decode.word, Decode.major1A, -BitVec.getLsbD_eq_getElem]) rfl
theorem vldsG (d a b m esz) : Statement (.vldsG d a b m esz) :=
  long_of_word (w := 0xda#8 ++ d ++ a ++ b ++ m ++ esz ++ 0x4#4) (by simp) (by simp [Decode.word, Decode.major1A, -BitVec.getLsbD_eq_getElem]) rfl
theorem vldxL (d a b m esz) : Statement (.vldxL d a b m esz) :=
  long_of_word (w := 0xda#8 ++ d ++ a ++ b ++ m ++ esz ++ 0x5#4) (by simp) (by simp [Decode.word, Decode.major1A, -BitVec.getLsbD_eq_getElem]) rfl
theorem vldxG (d a b m esz) : Statement (.vldxG d a b m esz) :=
  long_of_word (w := 0xda#8 ++ d ++ a ++ b ++ m ++ esz ++ 0x6#4) (by simp) (by simp [Decode.word, Decode.major1A, -BitVec.getLsbD_eq_getElem]) rfl
theorem vstL (d a m esz) : Statement (.vstL d a m esz) :=
  long_of_word (w := 0xda#8 ++ d ++ a ++ 0x0#5 ++ m ++ esz ++ 0x8#4) (by simp) (by simp [Decode.word, Decode.major1A, -BitVec.getLsbD_eq_getElem]) rfl
theorem vstG (d a m esz) : Statement (.vstG d a m esz) :=
  long_of_word (w := 0xda#8 ++ d ++ a ++ 0x0#5 ++ m ++ esz ++ 0x9#4) (by simp) (by simp [Decode.word, Decode.major1A, -BitVec.getLsbD_eq_getElem]) rfl
theorem vstT (d a m esz) : Statement (.vstT d a m esz) :=
  long_of_word (w := 0xda#8 ++ d ++ a ++ 0x0#5 ++ m ++ esz ++ 0xa#4) (by simp) (by simp [Decode.word, Decode.major1A, -BitVec.getLsbD_eq_getElem]) rfl
theorem vstsL (d a b m esz) : Statement (.vstsL d a b m esz) :=
  long_of_word (w := 0xda#8 ++ d ++ a ++ b ++ m ++ esz ++ 0xb#4) (by simp) (by simp [Decode.word, Decode.major1A, -BitVec.getLsbD_eq_getElem]) rfl
theorem vstsG (d a b m esz) : Statement (.vstsG d a b m esz) :=
  long_of_word (w := 0xda#8 ++ d ++ a ++ b ++ m ++ esz ++ 0xc#4) (by simp) (by simp [Decode.word, Decode.major1A, -BitVec.getLsbD_eq_getElem]) rfl
theorem vstxL (d a b m esz) : Statement (.vstxL d a b m esz) :=
  long_of_word (w := 0xda#8 ++ d ++ a ++ b ++ m ++ esz ++ 0xd#4) (by simp) (by simp [Decode.word, Decode.major1A, -BitVec.getLsbD_eq_getElem]) rfl
theorem vstxG (d a b m esz) : Statement (.vstxG d a b m esz) :=
  long_of_word (w := 0xda#8 ++ d ++ a ++ b ++ m ++ esz ++ 0xe#4) (by simp) (by simp [Decode.word, Decode.major1A, -BitVec.getLsbD_eq_getElem]) rfl
theorem tchR (d a b) : Statement (.tchR d a b) :=
  long_of_word (w := 0xdb#8 ++ d ++ a ++ b ++ 0x0#9) (by simp) (by simp [Decode.word, Decode.major1B, -BitVec.getLsbD_eq_getElem]) rfl
theorem tchW (d a b) : Statement (.tchW d a b) :=
  long_of_word (w := 0xdb#8 ++ d ++ a ++ b ++ 0x1#9) (by simp) (by simp [Decode.word, Decode.major1B, -BitVec.getLsbD_eq_getElem]) rfl
theorem trel (a) : Statement (.trel a) :=
  long_of_word (w := 0x1b60#13 ++ a ++ 0x2#14) (by simp) (by simp [Decode.word, Decode.major1B, -BitVec.getLsbD_eq_getElem]) rfl
theorem prefG (a) : Statement (.prefG a) :=
  long_of_word (w := 0x1b60#13 ++ a ++ 0x3#14) (by simp) (by simp [Decode.word, Decode.major1B, -BitVec.getLsbD_eq_getElem]) rfl
theorem aaddL (d a b ord scope sz64) : Statement (.aaddL d a b ord scope sz64) :=
  long_of_word (w := 0xdc#8 ++ d ++ a ++ b ++ ord ++ scope ++ BitVec.ofBool sz64 ++ 0x0#4) (by simp) (by simp [Decode.word, Decode.major1C, -BitVec.getLsbD_eq_getElem]) rfl
theorem aandL (d a b ord scope sz64) : Statement (.aandL d a b ord scope sz64) :=
  long_of_word (w := 0xdc#8 ++ d ++ a ++ b ++ ord ++ scope ++ BitVec.ofBool sz64 ++ 0x1#4) (by simp) (by simp [Decode.word, Decode.major1C, -BitVec.getLsbD_eq_getElem]) rfl
theorem aorL (d a b ord scope sz64) : Statement (.aorL d a b ord scope sz64) :=
  long_of_word (w := 0xdc#8 ++ d ++ a ++ b ++ ord ++ scope ++ BitVec.ofBool sz64 ++ 0x2#4) (by simp) (by simp [Decode.word, Decode.major1C, -BitVec.getLsbD_eq_getElem]) rfl
theorem axorL (d a b ord scope sz64) : Statement (.axorL d a b ord scope sz64) :=
  long_of_word (w := 0xdc#8 ++ d ++ a ++ b ++ ord ++ scope ++ BitVec.ofBool sz64 ++ 0x3#4) (by simp) (by simp [Decode.word, Decode.major1C, -BitVec.getLsbD_eq_getElem]) rfl
theorem aminL (d a b ord scope sz64) : Statement (.aminL d a b ord scope sz64) :=
  long_of_word (w := 0xdc#8 ++ d ++ a ++ b ++ ord ++ scope ++ BitVec.ofBool sz64 ++ 0x4#4) (by simp) (by simp [Decode.word, Decode.major1C, -BitVec.getLsbD_eq_getElem]) rfl
theorem amaxL (d a b ord scope sz64) : Statement (.amaxL d a b ord scope sz64) :=
  long_of_word (w := 0xdc#8 ++ d ++ a ++ b ++ ord ++ scope ++ BitVec.ofBool sz64 ++ 0x5#4) (by simp) (by simp [Decode.word, Decode.major1C, -BitVec.getLsbD_eq_getElem]) rfl
theorem aminuL (d a b ord scope sz64) : Statement (.aminuL d a b ord scope sz64) :=
  long_of_word (w := 0xdc#8 ++ d ++ a ++ b ++ ord ++ scope ++ BitVec.ofBool sz64 ++ 0x6#4) (by simp) (by simp [Decode.word, Decode.major1C, -BitVec.getLsbD_eq_getElem]) rfl
theorem amaxuL (d a b ord scope sz64) : Statement (.amaxuL d a b ord scope sz64) :=
  long_of_word (w := 0xdc#8 ++ d ++ a ++ b ++ ord ++ scope ++ BitVec.ofBool sz64 ++ 0x7#4) (by simp) (by simp [Decode.word, Decode.major1C, -BitVec.getLsbD_eq_getElem]) rfl
theorem aswpL (d a b ord scope sz64) : Statement (.aswpL d a b ord scope sz64) :=
  long_of_word (w := 0xdc#8 ++ d ++ a ++ b ++ ord ++ scope ++ BitVec.ofBool sz64 ++ 0x8#4) (by simp) (by simp [Decode.word, Decode.major1C, -BitVec.getLsbD_eq_getElem]) rfl
theorem acasL (d a b ord scope sz64) : Statement (.acasL d a b ord scope sz64) :=
  long_of_word (w := 0xdc#8 ++ d ++ a ++ b ++ ord ++ scope ++ BitVec.ofBool sz64 ++ 0x9#4) (by simp) (by simp [Decode.word, Decode.major1C, -BitVec.getLsbD_eq_getElem]) rfl
theorem afaddL (d a b ord scope sz64) : Statement (.afaddL d a b ord scope sz64) :=
  long_of_word (w := 0xdc#8 ++ d ++ a ++ b ++ ord ++ scope ++ BitVec.ofBool sz64 ++ 0xa#4) (by simp) (by simp [Decode.word, Decode.major1C, -BitVec.getLsbD_eq_getElem]) rfl
theorem aaddKL (d a b scope sz64) : Statement (.aaddKL d a b scope sz64) :=
  long_of_word (w := 0xdc#8 ++ d ++ a ++ b ++ 0x0#2 ++ scope ++ BitVec.ofBool sz64 ++ 0xb#4) (by simp) (by simp [Decode.word, Decode.major1C, -BitVec.getLsbD_eq_getElem]) rfl
theorem aaddT (d a b ord scope sz64) : Statement (.aaddT d a b ord scope sz64) :=
  long_of_word (w := 0xdd#8 ++ d ++ a ++ b ++ ord ++ scope ++ BitVec.ofBool sz64 ++ 0x0#4) (by simp) (by simp [Decode.word, Decode.major1D, -BitVec.getLsbD_eq_getElem]) rfl
theorem aandT (d a b ord scope sz64) : Statement (.aandT d a b ord scope sz64) :=
  long_of_word (w := 0xdd#8 ++ d ++ a ++ b ++ ord ++ scope ++ BitVec.ofBool sz64 ++ 0x1#4) (by simp) (by simp [Decode.word, Decode.major1D, -BitVec.getLsbD_eq_getElem]) rfl
theorem aorT (d a b ord scope sz64) : Statement (.aorT d a b ord scope sz64) :=
  long_of_word (w := 0xdd#8 ++ d ++ a ++ b ++ ord ++ scope ++ BitVec.ofBool sz64 ++ 0x2#4) (by simp) (by simp [Decode.word, Decode.major1D, -BitVec.getLsbD_eq_getElem]) rfl
theorem axorT (d a b ord scope sz64) : Statement (.axorT d a b ord scope sz64) :=
  long_of_word (w := 0xdd#8 ++ d ++ a ++ b ++ ord ++ scope ++ BitVec.ofBool sz64 ++ 0x3#4) (by simp) (by simp [Decode.word, Decode.major1D, -BitVec.getLsbD_eq_getElem]) rfl
theorem aminT (d a b ord scope sz64) : Statement (.aminT d a b ord scope sz64) :=
  long_of_word (w := 0xdd#8 ++ d ++ a ++ b ++ ord ++ scope ++ BitVec.ofBool sz64 ++ 0x4#4) (by simp) (by simp [Decode.word, Decode.major1D, -BitVec.getLsbD_eq_getElem]) rfl
theorem amaxT (d a b ord scope sz64) : Statement (.amaxT d a b ord scope sz64) :=
  long_of_word (w := 0xdd#8 ++ d ++ a ++ b ++ ord ++ scope ++ BitVec.ofBool sz64 ++ 0x5#4) (by simp) (by simp [Decode.word, Decode.major1D, -BitVec.getLsbD_eq_getElem]) rfl
theorem aminuT (d a b ord scope sz64) : Statement (.aminuT d a b ord scope sz64) :=
  long_of_word (w := 0xdd#8 ++ d ++ a ++ b ++ ord ++ scope ++ BitVec.ofBool sz64 ++ 0x6#4) (by simp) (by simp [Decode.word, Decode.major1D, -BitVec.getLsbD_eq_getElem]) rfl
theorem amaxuT (d a b ord scope sz64) : Statement (.amaxuT d a b ord scope sz64) :=
  long_of_word (w := 0xdd#8 ++ d ++ a ++ b ++ ord ++ scope ++ BitVec.ofBool sz64 ++ 0x7#4) (by simp) (by simp [Decode.word, Decode.major1D, -BitVec.getLsbD_eq_getElem]) rfl
theorem aswpT (d a b ord scope sz64) : Statement (.aswpT d a b ord scope sz64) :=
  long_of_word (w := 0xdd#8 ++ d ++ a ++ b ++ ord ++ scope ++ BitVec.ofBool sz64 ++ 0x8#4) (by simp) (by simp [Decode.word, Decode.major1D, -BitVec.getLsbD_eq_getElem]) rfl
theorem acasT (d a b ord scope sz64) : Statement (.acasT d a b ord scope sz64) :=
  long_of_word (w := 0xdd#8 ++ d ++ a ++ b ++ ord ++ scope ++ BitVec.ofBool sz64 ++ 0x9#4) (by simp) (by simp [Decode.word, Decode.major1D, -BitVec.getLsbD_eq_getElem]) rfl
theorem afaddT (d a b ord scope sz64) : Statement (.afaddT d a b ord scope sz64) :=
  long_of_word (w := 0xdd#8 ++ d ++ a ++ b ++ ord ++ scope ++ BitVec.ofBool sz64 ++ 0xa#4) (by simp) (by simp [Decode.word, Decode.major1D, -BitVec.getLsbD_eq_getElem]) rfl
theorem aaddKT (d a b scope sz64) : Statement (.aaddKT d a b scope sz64) :=
  long_of_word (w := 0xdd#8 ++ d ++ a ++ b ++ 0x0#2 ++ scope ++ BitVec.ofBool sz64 ++ 0xb#4) (by simp) (by simp [Decode.word, Decode.major1D, -BitVec.getLsbD_eq_getElem]) rfl
theorem aaddG (d a b ord scope sz64) : Statement (.aaddG d a b ord scope sz64) :=
  long_of_word (w := 0xde#8 ++ d ++ a ++ b ++ ord ++ scope ++ BitVec.ofBool sz64 ++ 0x0#4) (by simp) (by simp [Decode.word, Decode.major1E, -BitVec.getLsbD_eq_getElem]) rfl
theorem aandG (d a b ord scope sz64) : Statement (.aandG d a b ord scope sz64) :=
  long_of_word (w := 0xde#8 ++ d ++ a ++ b ++ ord ++ scope ++ BitVec.ofBool sz64 ++ 0x1#4) (by simp) (by simp [Decode.word, Decode.major1E, -BitVec.getLsbD_eq_getElem]) rfl
theorem aorG (d a b ord scope sz64) : Statement (.aorG d a b ord scope sz64) :=
  long_of_word (w := 0xde#8 ++ d ++ a ++ b ++ ord ++ scope ++ BitVec.ofBool sz64 ++ 0x2#4) (by simp) (by simp [Decode.word, Decode.major1E, -BitVec.getLsbD_eq_getElem]) rfl
theorem axorG (d a b ord scope sz64) : Statement (.axorG d a b ord scope sz64) :=
  long_of_word (w := 0xde#8 ++ d ++ a ++ b ++ ord ++ scope ++ BitVec.ofBool sz64 ++ 0x3#4) (by simp) (by simp [Decode.word, Decode.major1E, -BitVec.getLsbD_eq_getElem]) rfl
theorem aminG (d a b ord scope sz64) : Statement (.aminG d a b ord scope sz64) :=
  long_of_word (w := 0xde#8 ++ d ++ a ++ b ++ ord ++ scope ++ BitVec.ofBool sz64 ++ 0x4#4) (by simp) (by simp [Decode.word, Decode.major1E, -BitVec.getLsbD_eq_getElem]) rfl
theorem amaxG (d a b ord scope sz64) : Statement (.amaxG d a b ord scope sz64) :=
  long_of_word (w := 0xde#8 ++ d ++ a ++ b ++ ord ++ scope ++ BitVec.ofBool sz64 ++ 0x5#4) (by simp) (by simp [Decode.word, Decode.major1E, -BitVec.getLsbD_eq_getElem]) rfl
theorem aminuG (d a b ord scope sz64) : Statement (.aminuG d a b ord scope sz64) :=
  long_of_word (w := 0xde#8 ++ d ++ a ++ b ++ ord ++ scope ++ BitVec.ofBool sz64 ++ 0x6#4) (by simp) (by simp [Decode.word, Decode.major1E, -BitVec.getLsbD_eq_getElem]) rfl
theorem amaxuG (d a b ord scope sz64) : Statement (.amaxuG d a b ord scope sz64) :=
  long_of_word (w := 0xde#8 ++ d ++ a ++ b ++ ord ++ scope ++ BitVec.ofBool sz64 ++ 0x7#4) (by simp) (by simp [Decode.word, Decode.major1E, -BitVec.getLsbD_eq_getElem]) rfl
theorem aswpG (d a b ord scope sz64) : Statement (.aswpG d a b ord scope sz64) :=
  long_of_word (w := 0xde#8 ++ d ++ a ++ b ++ ord ++ scope ++ BitVec.ofBool sz64 ++ 0x8#4) (by simp) (by simp [Decode.word, Decode.major1E, -BitVec.getLsbD_eq_getElem]) rfl
theorem acasG (d a b ord scope sz64) : Statement (.acasG d a b ord scope sz64) :=
  long_of_word (w := 0xde#8 ++ d ++ a ++ b ++ ord ++ scope ++ BitVec.ofBool sz64 ++ 0x9#4) (by simp) (by simp [Decode.word, Decode.major1E, -BitVec.getLsbD_eq_getElem]) rfl
theorem afaddG (d a b ord scope sz64) : Statement (.afaddG d a b ord scope sz64) :=
  long_of_word (w := 0xde#8 ++ d ++ a ++ b ++ ord ++ scope ++ BitVec.ofBool sz64 ++ 0xa#4) (by simp) (by simp [Decode.word, Decode.major1E, -BitVec.getLsbD_eq_getElem]) rfl
theorem aaddKG (d a b scope sz64) : Statement (.aaddKG d a b scope sz64) :=
  long_of_word (w := 0xde#8 ++ d ++ a ++ b ++ 0x0#2 ++ scope ++ BitVec.ofBool sz64 ++ 0xb#4) (by simp) (by simp [Decode.word, Decode.major1E, -BitVec.getLsbD_eq_getElem]) rfl
theorem stM (t a ord sz off) : Statement (.stM t a ord sz off) :=
  long_of_word (w := 0xdf#8 ++ t ++ a ++ ord ++ sz ++ off) (by simp) (by simp [Decode.word, -BitVec.getLsbD_eq_getElem]) rfl
theorem radd (a rod) : Statement (.radd a rod) :=
  long_of_word (w := 0x1c00#13 ++ a ++ 0x0#7 ++ rod) (by simp) (by simp [Decode.word, Decode.major20, -BitVec.getLsbD_eq_getElem]) rfl
theorem rset (a rod) : Statement (.rset a rod) :=
  long_of_word (w := 0x1c00#13 ++ a ++ 0x10#7 ++ rod) (by simp) (by simp [Decode.word, Decode.major20, -BitVec.getLsbD_eq_getElem]) rfl
theorem rget (d rod) : Statement (.rget d rod) :=
  long_of_word (w := 0xe0#8 ++ d ++ 0x20#12 ++ rod) (by simp) (by simp [Decode.word, Decode.major20, -BitVec.getLsbD_eq_getElem]) rfl
theorem rarm (a rod) : Statement (.rarm a rod) :=
  long_of_word (w := 0x1c00#13 ++ a ++ 0x30#7 ++ rod) (by simp) (by simp [Decode.word, Decode.major20, -BitVec.getLsbD_eq_getElem]) rfl
theorem rwait (rod) : Statement (.rwait rod) :=
  long_of_word (w := 0x1c00040#25 ++ rod) (by simp) (by simp [Decode.word, Decode.major20, -BitVec.getLsbD_eq_getElem]) rfl
theorem rtest (d rod) : Statement (.rtest d rod) :=
  long_of_word (w := 0xe0#8 ++ d ++ 0x50#12 ++ rod) (by simp) (by simp [Decode.word, Decode.major20, -BitVec.getLsbD_eq_getElem]) rfl
theorem barr (rod) : Statement (.barr rod) :=
  long_of_word (w := 0x1c00060#25 ++ rod) (by simp) (by simp [Decode.word, Decode.major20, -BitVec.getLsbD_eq_getElem]) rfl
theorem bwait (rod) : Statement (.bwait rod) :=
  long_of_word (w := 0x1c00070#25 ++ rod) (by simp) (by simp [Decode.word, Decode.major20, -BitVec.getLsbD_eq_getElem]) rfl
theorem rrmt (a b) : Statement (.rrmt a b) :=
  long_of_word (w := 0x1c20#13 ++ a ++ b ++ 0x0#9) (by simp) (by simp [Decode.word, Decode.major21, -BitVec.getLsbD_eq_getElem]) rfl
theorem rrmtK (a b) : Statement (.rrmtK a b) :=
  long_of_word (w := 0x1c20#13 ++ a ++ b ++ 0x1#9) (by simp) (by simp [Decode.word, Decode.major21, -BitVec.getLsbD_eq_getElem]) rfl
theorem raddX (a b) : Statement (.raddX a b) :=
  long_of_word (w := 0x1c20#13 ++ a ++ b ++ 0x2#9) (by simp) (by simp [Decode.word, Decode.major21, -BitVec.getLsbD_eq_getElem]) rfl
theorem waitm (d b) : Statement (.waitm d b) :=
  long_of_word (w := 0xe2#8 ++ d ++ 0x0#5 ++ b ++ 0x0#9) (by simp) (by simp [Decode.word, Decode.major22, -BitVec.getLsbD_eq_getElem]) rfl
theorem bmjoin (a b) : Statement (.bmjoin a b) :=
  long_of_word (w := 0x1c60#13 ++ a ++ b ++ 0x0#9) (by simp) (by simp [Decode.word, Decode.major23, -BitVec.getLsbD_eq_getElem]) rfl
theorem bmarr (a) : Statement (.bmarr a) :=
  long_of_word (w := 0x1c60#13 ++ a ++ 0x1#14) (by simp) (by simp [Decode.word, Decode.major23, -BitVec.getLsbD_eq_getElem]) rfl
theorem bmwait (a) : Statement (.bmwait a) :=
  long_of_word (w := 0x1c60#13 ++ a ++ 0x2#14) (by simp) (by simp [Decode.word, Decode.major23, -BitVec.getLsbD_eq_getElem]) rfl
theorem bmq (d a) : Statement (.bmq d a) :=
  long_of_word (w := 0xe3#8 ++ d ++ a ++ 0x3#14) (by simp) (by simp [Decode.word, Decode.major23, -BitVec.getLsbD_eq_getElem]) rfl
theorem bmleave (a) : Statement (.bmleave a) :=
  long_of_word (w := 0x1c60#13 ++ a ++ 0x4#14) (by simp) (by simp [Decode.word, Decode.major23, -BitVec.getLsbD_eq_getElem]) rfl
theorem tok (a) : Statement (.tok a) :=
  long_of_word (w := 0x1c80#13 ++ a ++ 0x0#14) (by simp) (by simp [Decode.word, Decode.major24, -BitVec.getLsbD_eq_getElem]) rfl
theorem tokv (d a b) : Statement (.tokv d a b) :=
  long_of_word (w := 0xe4#8 ++ d ++ a ++ b ++ 0x1#9) (by simp) (by simp [Decode.word, Decode.major24, -BitVec.getLsbD_eq_getElem]) rfl
theorem ncan (a) : Statement (.ncan a) :=
  long_of_word (w := 0x1c80#13 ++ a ++ 0x2#14) (by simp) (by simp [Decode.word, Decode.major24, -BitVec.getLsbD_eq_getElem]) rfl
theorem narm (d a) : Statement (.narm d a) :=
  long_of_word (w := 0xe4#8 ++ d ++ a ++ 0x3#14) (by simp) (by simp [Decode.word, Decode.major24, -BitVec.getLsbD_eq_getElem]) rfl
theorem ndef (d a b) : Statement (.ndef d a b) :=
  long_of_word (w := 0xe4#8 ++ d ++ a ++ b ++ 0x4#9) (by simp) (by simp [Decode.word, Decode.major24, -BitVec.getLsbD_eq_getElem]) rfl
theorem nqry (d a) : Statement (.nqry d a) :=
  long_of_word (w := 0xe4#8 ++ d ++ a ++ 0x5#14) (by simp) (by simp [Decode.word, Decode.major24, -BitVec.getLsbD_eq_getElem]) rfl
theorem evb (d a b) : Statement (.evb d a b) :=
  long_of_word (w := 0xe4#8 ++ d ++ a ++ b ++ 0x6#9) (by simp) (by simp [Decode.word, Decode.major24, -BitVec.getLsbD_eq_getElem]) rfl
theorem evu (d a) : Statement (.evu d a) :=
  long_of_word (w := 0xe4#8 ++ d ++ a ++ 0x7#14) (by simp) (by simp [Decode.word, Decode.major24, -BitVec.getLsbD_eq_getElem]) rfl
theorem vaddVv (d a b m esz) : Statement (.vaddVv d a b m esz) :=
  long_of_word (w := 0xe8#8 ++ d ++ a ++ b ++ m ++ esz ++ 0x0#4) (by simp) (by simp [Decode.word, Decode.major28, -BitVec.getLsbD_eq_getElem]) rfl
theorem vsubVv (d a b m esz) : Statement (.vsubVv d a b m esz) :=
  long_of_word (w := 0xe8#8 ++ d ++ a ++ b ++ m ++ esz ++ 0x1#4) (by simp) (by simp [Decode.word, Decode.major28, -BitVec.getLsbD_eq_getElem]) rfl
theorem vmulVv (d a b m esz) : Statement (.vmulVv d a b m esz) :=
  long_of_word (w := 0xe8#8 ++ d ++ a ++ b ++ m ++ esz ++ 0x2#4) (by simp) (by simp [Decode.word, Decode.major28, -BitVec.getLsbD_eq_getElem]) rfl
theorem vmulhVv (d a b m esz) : Statement (.vmulhVv d a b m esz) :=
  long_of_word (w := 0xe8#8 ++ d ++ a ++ b ++ m ++ esz ++ 0x3#4) (by simp) (by simp [Decode.word, Decode.major28, -BitVec.getLsbD_eq_getElem]) rfl
theorem vminVv (d a b m esz) : Statement (.vminVv d a b m esz) :=
  long_of_word (w := 0xe8#8 ++ d ++ a ++ b ++ m ++ esz ++ 0x4#4) (by simp) (by simp [Decode.word, Decode.major28, -BitVec.getLsbD_eq_getElem]) rfl
theorem vmaxVv (d a b m esz) : Statement (.vmaxVv d a b m esz) :=
  long_of_word (w := 0xe8#8 ++ d ++ a ++ b ++ m ++ esz ++ 0x5#4) (by simp) (by simp [Decode.word, Decode.major28, -BitVec.getLsbD_eq_getElem]) rfl
theorem vminuVv (d a b m esz) : Statement (.vminuVv d a b m esz) :=
  long_of_word (w := 0xe8#8 ++ d ++ a ++ b ++ m ++ esz ++ 0x6#4) (by simp) (by simp [Decode.word, Decode.major28, -BitVec.getLsbD_eq_getElem]) rfl
theorem vmaxuVv (d a b m esz) : Statement (.vmaxuVv d a b m esz) :=
  long_of_word (w := 0xe8#8 ++ d ++ a ++ b ++ m ++ esz ++ 0x7#4) (by simp) (by simp [Decode.word, Decode.major28, -BitVec.getLsbD_eq_getElem]) rfl
theorem vandVv (d a b m esz) : Statement (.vandVv d a b m esz) :=
  long_of_word (w := 0xe8#8 ++ d ++ a ++ b ++ m ++ esz ++ 0x8#4) (by simp) (by simp [Decode.word, Decode.major28, -BitVec.getLsbD_eq_getElem]) rfl
theorem vorVv (d a b m esz) : Statement (.vorVv d a b m esz) :=
  long_of_word (w := 0xe8#8 ++ d ++ a ++ b ++ m ++ esz ++ 0x9#4) (by simp) (by simp [Decode.word, Decode.major28, -BitVec.getLsbD_eq_getElem]) rfl
theorem vxorVv (d a b m esz) : Statement (.vxorVv d a b m esz) :=
  long_of_word (w := 0xe8#8 ++ d ++ a ++ b ++ m ++ esz ++ 0xa#4) (by simp) (by simp [Decode.word, Decode.major28, -BitVec.getLsbD_eq_getElem]) rfl
theorem vshlVv (d a b m esz) : Statement (.vshlVv d a b m esz) :=
  long_of_word (w := 0xe8#8 ++ d ++ a ++ b ++ m ++ esz ++ 0xb#4) (by simp) (by simp [Decode.word, Decode.major28, -BitVec.getLsbD_eq_getElem]) rfl
theorem vshrVv (d a b m esz) : Statement (.vshrVv d a b m esz) :=
  long_of_word (w := 0xe8#8 ++ d ++ a ++ b ++ m ++ esz ++ 0xc#4) (by simp) (by simp [Decode.word, Decode.major28, -BitVec.getLsbD_eq_getElem]) rfl
theorem vshaVv (d a b m esz) : Statement (.vshaVv d a b m esz) :=
  long_of_word (w := 0xe8#8 ++ d ++ a ++ b ++ m ++ esz ++ 0xd#4) (by simp) (by simp [Decode.word, Decode.major28, -BitVec.getLsbD_eq_getElem]) rfl
theorem vaddsatVv (d a b m esz) : Statement (.vaddsatVv d a b m esz) :=
  long_of_word (w := 0xe8#8 ++ d ++ a ++ b ++ m ++ esz ++ 0xe#4) (by simp) (by simp [Decode.word, Decode.major28, -BitVec.getLsbD_eq_getElem]) rfl
theorem vsubsatVv (d a b m esz) : Statement (.vsubsatVv d a b m esz) :=
  long_of_word (w := 0xe8#8 ++ d ++ a ++ b ++ m ++ esz ++ 0xf#4) (by simp) (by simp [Decode.word, Decode.major28, -BitVec.getLsbD_eq_getElem]) rfl
theorem vaddVs (d a b m esz) : Statement (.vaddVs d a b m esz) :=
  long_of_word (w := 0xe9#8 ++ d ++ a ++ b ++ m ++ esz ++ 0x0#4) (by simp) (by simp [Decode.word, Decode.major29, -BitVec.getLsbD_eq_getElem]) rfl
theorem vsubVs (d a b m esz) : Statement (.vsubVs d a b m esz) :=
  long_of_word (w := 0xe9#8 ++ d ++ a ++ b ++ m ++ esz ++ 0x1#4) (by simp) (by simp [Decode.word, Decode.major29, -BitVec.getLsbD_eq_getElem]) rfl
theorem vmulVs (d a b m esz) : Statement (.vmulVs d a b m esz) :=
  long_of_word (w := 0xe9#8 ++ d ++ a ++ b ++ m ++ esz ++ 0x2#4) (by simp) (by simp [Decode.word, Decode.major29, -BitVec.getLsbD_eq_getElem]) rfl
theorem vmulhVs (d a b m esz) : Statement (.vmulhVs d a b m esz) :=
  long_of_word (w := 0xe9#8 ++ d ++ a ++ b ++ m ++ esz ++ 0x3#4) (by simp) (by simp [Decode.word, Decode.major29, -BitVec.getLsbD_eq_getElem]) rfl
theorem vminVs (d a b m esz) : Statement (.vminVs d a b m esz) :=
  long_of_word (w := 0xe9#8 ++ d ++ a ++ b ++ m ++ esz ++ 0x4#4) (by simp) (by simp [Decode.word, Decode.major29, -BitVec.getLsbD_eq_getElem]) rfl
theorem vmaxVs (d a b m esz) : Statement (.vmaxVs d a b m esz) :=
  long_of_word (w := 0xe9#8 ++ d ++ a ++ b ++ m ++ esz ++ 0x5#4) (by simp) (by simp [Decode.word, Decode.major29, -BitVec.getLsbD_eq_getElem]) rfl
theorem vminuVs (d a b m esz) : Statement (.vminuVs d a b m esz) :=
  long_of_word (w := 0xe9#8 ++ d ++ a ++ b ++ m ++ esz ++ 0x6#4) (by simp) (by simp [Decode.word, Decode.major29, -BitVec.getLsbD_eq_getElem]) rfl
theorem vmaxuVs (d a b m esz) : Statement (.vmaxuVs d a b m esz) :=
  long_of_word (w := 0xe9#8 ++ d ++ a ++ b ++ m ++ esz ++ 0x7#4) (by simp) (by simp [Decode.word, Decode.major29, -BitVec.getLsbD_eq_getElem]) rfl
theorem vandVs (d a b m esz) : Statement (.vandVs d a b m esz) :=
  long_of_word (w := 0xe9#8 ++ d ++ a ++ b ++ m ++ esz ++ 0x8#4) (by simp) (by simp [Decode.word, Decode.major29, -BitVec.getLsbD_eq_getElem]) rfl
theorem vorVs (d a b m esz) : Statement (.vorVs d a b m esz) :=
  long_of_word (w := 0xe9#8 ++ d ++ a ++ b ++ m ++ esz ++ 0x9#4) (by simp) (by simp [Decode.word, Decode.major29, -BitVec.getLsbD_eq_getElem]) rfl
theorem vxorVs (d a b m esz) : Statement (.vxorVs d a b m esz) :=
  long_of_word (w := 0xe9#8 ++ d ++ a ++ b ++ m ++ esz ++ 0xa#4) (by simp) (by simp [Decode.word, Decode.major29, -BitVec.getLsbD_eq_getElem]) rfl
theorem vshlVs (d a b m esz) : Statement (.vshlVs d a b m esz) :=
  long_of_word (w := 0xe9#8 ++ d ++ a ++ b ++ m ++ esz ++ 0xb#4) (by simp) (by simp [Decode.word, Decode.major29, -BitVec.getLsbD_eq_getElem]) rfl
theorem vshrVs (d a b m esz) : Statement (.vshrVs d a b m esz) :=
  long_of_word (w := 0xe9#8 ++ d ++ a ++ b ++ m ++ esz ++ 0xc#4) (by simp) (by simp [Decode.word, Decode.major29, -BitVec.getLsbD_eq_getElem]) rfl
theorem vshaVs (d a b m esz) : Statement (.vshaVs d a b m esz) :=
  long_of_word (w := 0xe9#8 ++ d ++ a ++ b ++ m ++ esz ++ 0xd#4) (by simp) (by simp [Decode.word, Decode.major29, -BitVec.getLsbD_eq_getElem]) rfl
theorem vaddsatVs (d a b m esz) : Statement (.vaddsatVs d a b m esz) :=
  long_of_word (w := 0xe9#8 ++ d ++ a ++ b ++ m ++ esz ++ 0xe#4) (by simp) (by simp [Decode.word, Decode.major29, -BitVec.getLsbD_eq_getElem]) rfl
theorem vsubsatVs (d a b m esz) : Statement (.vsubsatVs d a b m esz) :=
  long_of_word (w := 0xe9#8 ++ d ++ a ++ b ++ m ++ esz ++ 0xf#4) (by simp) (by simp [Decode.word, Decode.major29, -BitVec.getLsbD_eq_getElem]) rfl
theorem vfaddVv (d a b m esz) : Statement (.vfaddVv d a b m esz) :=
  long_of_word (w := 0xea#8 ++ d ++ a ++ b ++ m ++ esz ++ 0x0#4) (by simp) (by simp [Decode.word, Decode.major2A, -BitVec.getLsbD_eq_getElem]) rfl
theorem vfsubVv (d a b m esz) : Statement (.vfsubVv d a b m esz) :=
  long_of_word (w := 0xea#8 ++ d ++ a ++ b ++ m ++ esz ++ 0x1#4) (by simp) (by simp [Decode.word, Decode.major2A, -BitVec.getLsbD_eq_getElem]) rfl
theorem vfmulVv (d a b m esz) : Statement (.vfmulVv d a b m esz) :=
  long_of_word (w := 0xea#8 ++ d ++ a ++ b ++ m ++ esz ++ 0x2#4) (by simp) (by simp [Decode.word, Decode.major2A, -BitVec.getLsbD_eq_getElem]) rfl
theorem vfmaVv (d a b m esz) : Statement (.vfmaVv d a b m esz) :=
  long_of_word (w := 0xea#8 ++ d ++ a ++ b ++ m ++ esz ++ 0x3#4) (by simp) (by simp [Decode.word, Decode.major2A, -BitVec.getLsbD_eq_getElem]) rfl
theorem vfmsVv (d a b m esz) : Statement (.vfmsVv d a b m esz) :=
  long_of_word (w := 0xea#8 ++ d ++ a ++ b ++ m ++ esz ++ 0x4#4) (by simp) (by simp [Decode.word, Decode.major2A, -BitVec.getLsbD_eq_getElem]) rfl
theorem vfnmaVv (d a b m esz) : Statement (.vfnmaVv d a b m esz) :=
  long_of_word (w := 0xea#8 ++ d ++ a ++ b ++ m ++ esz ++ 0x5#4) (by simp) (by simp [Decode.word, Decode.major2A, -BitVec.getLsbD_eq_getElem]) rfl
theorem vfminVv (d a b m esz) : Statement (.vfminVv d a b m esz) :=
  long_of_word (w := 0xea#8 ++ d ++ a ++ b ++ m ++ esz ++ 0x6#4) (by simp) (by simp [Decode.word, Decode.major2A, -BitVec.getLsbD_eq_getElem]) rfl
theorem vfmaxVv (d a b m esz) : Statement (.vfmaxVv d a b m esz) :=
  long_of_word (w := 0xea#8 ++ d ++ a ++ b ++ m ++ esz ++ 0x7#4) (by simp) (by simp [Decode.word, Decode.major2A, -BitVec.getLsbD_eq_getElem]) rfl
theorem vfdivVv (d a b m esz) : Statement (.vfdivVv d a b m esz) :=
  long_of_word (w := 0xea#8 ++ d ++ a ++ b ++ m ++ esz ++ 0x8#4) (by simp) (by simp [Decode.word, Decode.major2A, -BitVec.getLsbD_eq_getElem]) rfl
theorem vfsqrt (d a m esz) : Statement (.vfsqrt d a m esz) :=
  long_of_word (w := 0xea#8 ++ d ++ a ++ 0x0#5 ++ m ++ esz ++ 0x9#4) (by simp) (by simp [Decode.word, Decode.major2A, -BitVec.getLsbD_eq_getElem]) rfl
theorem vfrsqe (d a m esz) : Statement (.vfrsqe d a m esz) :=
  long_of_word (w := 0xea#8 ++ d ++ a ++ 0x0#5 ++ m ++ esz ++ 0xa#4) (by simp) (by simp [Decode.word, Decode.major2A, -BitVec.getLsbD_eq_getElem]) rfl
theorem vfrcpe (d a m esz) : Statement (.vfrcpe d a m esz) :=
  long_of_word (w := 0xea#8 ++ d ++ a ++ 0x0#5 ++ m ++ esz ++ 0xb#4) (by simp) (by simp [Decode.word, Decode.major2A, -BitVec.getLsbD_eq_getElem]) rfl
theorem vfabs (d a m esz) : Statement (.vfabs d a m esz) :=
  long_of_word (w := 0xea#8 ++ d ++ a ++ 0x0#5 ++ m ++ esz ++ 0xc#4) (by simp) (by simp [Decode.word, Decode.major2A, -BitVec.getLsbD_eq_getElem]) rfl
theorem vfneg (d a m esz) : Statement (.vfneg d a m esz) :=
  long_of_word (w := 0xea#8 ++ d ++ a ++ 0x0#5 ++ m ++ esz ++ 0xd#4) (by simp) (by simp [Decode.word, Decode.major2A, -BitVec.getLsbD_eq_getElem]) rfl
theorem vfcpysVv (d a b m esz) : Statement (.vfcpysVv d a b m esz) :=
  long_of_word (w := 0xea#8 ++ d ++ a ++ b ++ m ++ esz ++ 0xe#4) (by simp) (by simp [Decode.word, Decode.major2A, -BitVec.getLsbD_eq_getElem]) rfl
theorem vfclass (d a m esz) : Statement (.vfclass d a m esz) :=
  long_of_word (w := 0xea#8 ++ d ++ a ++ 0x0#5 ++ m ++ esz ++ 0xf#4) (by simp) (by simp [Decode.word, Decode.major2A, -BitVec.getLsbD_eq_getElem]) rfl
theorem vfaddVs (d a b m esz) : Statement (.vfaddVs d a b m esz) :=
  long_of_word (w := 0xeb#8 ++ d ++ a ++ b ++ m ++ esz ++ 0x0#4) (by simp) (by simp [Decode.word, Decode.major2B, -BitVec.getLsbD_eq_getElem]) rfl
theorem vfsubVs (d a b m esz) : Statement (.vfsubVs d a b m esz) :=
  long_of_word (w := 0xeb#8 ++ d ++ a ++ b ++ m ++ esz ++ 0x1#4) (by simp) (by simp [Decode.word, Decode.major2B, -BitVec.getLsbD_eq_getElem]) rfl
theorem vfmulVs (d a b m esz) : Statement (.vfmulVs d a b m esz) :=
  long_of_word (w := 0xeb#8 ++ d ++ a ++ b ++ m ++ esz ++ 0x2#4) (by simp) (by simp [Decode.word, Decode.major2B, -BitVec.getLsbD_eq_getElem]) rfl
theorem vfmaVs (d a b m esz) : Statement (.vfmaVs d a b m esz) :=
  long_of_word (w := 0xeb#8 ++ d ++ a ++ b ++ m ++ esz ++ 0x3#4) (by simp) (by simp [Decode.word, Decode.major2B, -BitVec.getLsbD_eq_getElem]) rfl
theorem vfmsVs (d a b m esz) : Statement (.vfmsVs d a b m esz) :=
  long_of_word (w := 0xeb#8 ++ d ++ a ++ b ++ m ++ esz ++ 0x4#4) (by simp) (by simp [Decode.word, Decode.major2B, -BitVec.getLsbD_eq_getElem]) rfl
theorem vfnmaVs (d a b m esz) : Statement (.vfnmaVs d a b m esz) :=
  long_of_word (w := 0xeb#8 ++ d ++ a ++ b ++ m ++ esz ++ 0x5#4) (by simp) (by simp [Decode.word, Decode.major2B, -BitVec.getLsbD_eq_getElem]) rfl
theorem vfminVs (d a b m esz) : Statement (.vfminVs d a b m esz) :=
  long_of_word (w := 0xeb#8 ++ d ++ a ++ b ++ m ++ esz ++ 0x6#4) (by simp) (by simp [Decode.word, Decode.major2B, -BitVec.getLsbD_eq_getElem]) rfl
theorem vfmaxVs (d a b m esz) : Statement (.vfmaxVs d a b m esz) :=
  long_of_word (w := 0xeb#8 ++ d ++ a ++ b ++ m ++ esz ++ 0x7#4) (by simp) (by simp [Decode.word, Decode.major2B, -BitVec.getLsbD_eq_getElem]) rfl
theorem vfdivVs (d a b m esz) : Statement (.vfdivVs d a b m esz) :=
  long_of_word (w := 0xeb#8 ++ d ++ a ++ b ++ m ++ esz ++ 0x8#4) (by simp) (by simp [Decode.word, Decode.major2B, -BitVec.getLsbD_eq_getElem]) rfl
theorem vfcpysVs (d a b m esz) : Statement (.vfcpysVs d a b m esz) :=
  long_of_word (w := 0xeb#8 ++ d ++ a ++ b ++ m ++ esz ++ 0xe#4) (by simp) (by simp [Decode.word, Decode.major2B, -BitVec.getLsbD_eq_getElem]) rfl
theorem vmov (d a m esz) : Statement (.vmov d a m esz) :=
  long_of_word (w := 0xec#8 ++ d ++ a ++ 0x0#5 ++ m ++ esz ++ 0x0#4) (by simp) (by simp [Decode.word, Decode.major2C, -BitVec.getLsbD_eq_getElem]) rfl
theorem vbcst (d b m esz) : Statement (.vbcst d b m esz) :=
  long_of_word (w := 0xec#8 ++ d ++ 0x0#5 ++ b ++ m ++ esz ++ 0x1#4) (by simp) (by simp [Decode.word, Decode.major2C, -BitVec.getLsbD_eq_getElem]) rfl
theorem vext (d a b esz) : Statement (.vext d a b esz) :=
  long_of_word (w := 0xec#8 ++ d ++ a ++ b ++ 0x0#3 ++ esz ++ 0x2#4) (by simp) (by simp [Decode.word, Decode.major2C, -BitVec.getLsbD_eq_getElem]) rfl
theorem vins (d a b esz) : Statement (.vins d a b esz) :=
  long_of_word (w := 0xec#8 ++ d ++ a ++ b ++ 0x0#3 ++ esz ++ 0x3#4) (by simp) (by simp [Decode.word, Decode.major2C, -BitVec.getLsbD_eq_getElem]) rfl
theorem vsel (d a b m esz) : Statement (.vsel d a b m esz) :=
  long_of_word (w := 0xec#8 ++ d ++ a ++ b ++ m ++ esz ++ 0x4#4) (by simp) (by simp [Decode.word, Decode.major2C, -BitVec.getLsbD_eq_getElem]) rfl
theorem vperm (d a b m esz) : Statement (.vperm d a b m esz) :=
  long_of_word (w := 0xec#8 ++ d ++ a ++ b ++ m ++ esz ++ 0x5#4) (by simp) (by simp [Decode.word, Decode.major2C, -BitVec.getLsbD_eq_getElem]) rfl
theorem vrot (d a b m esz) : Statement (.vrot d a b m esz) :=
  long_of_word (w := 0xec#8 ++ d ++ a ++ b ++ m ++ esz ++ 0x6#4) (by simp) (by simp [Decode.word, Decode.major2C, -BitVec.getLsbD_eq_getElem]) rfl
theorem vzip (d a b m esz) : Statement (.vzip d a b m esz) :=
  long_of_word (w := 0xec#8 ++ d ++ a ++ b ++ m ++ esz ++ 0x7#4) (by simp) (by simp [Decode.word, Decode.major2C, -BitVec.getLsbD_eq_getElem]) rfl
theorem vunzip (d a b m esz) : Statement (.vunzip d a b m esz) :=
  long_of_word (w := 0xec#8 ++ d ++ a ++ b ++ m ++ esz ++ 0x8#4) (by simp) (by simp [Decode.word, Decode.major2C, -BitVec.getLsbD_eq_getElem]) rfl
theorem viota (d m esz) : Statement (.viota d m esz) :=
  long_of_word (w := 0xec#8 ++ d ++ 0x0#10 ++ m ++ esz ++ 0x9#4) (by simp) (by simp [Decode.word, Decode.major2C, -BitVec.getLsbD_eq_getElem]) rfl
theorem vradd (d a m esz) : Statement (.vradd d a m esz) :=
  long_of_word (w := 0xed#8 ++ d ++ a ++ 0x0#5 ++ m ++ esz ++ 0x0#4) (by simp) (by simp [Decode.word, Decode.major2D, -BitVec.getLsbD_eq_getElem]) rfl
theorem vrmax (d a m esz) : Statement (.vrmax d a m esz) :=
  long_of_word (w := 0xed#8 ++ d ++ a ++ 0x0#5 ++ m ++ esz ++ 0x1#4) (by simp) (by simp [Decode.word, Decode.major2D, -BitVec.getLsbD_eq_getElem]) rfl
theorem vrmin (d a m esz) : Statement (.vrmin d a m esz) :=
  long_of_word (w := 0xed#8 ++ d ++ a ++ 0x0#5 ++ m ++ esz ++ 0x2#4) (by simp) (by simp [Decode.word, Decode.major2D, -BitVec.getLsbD_eq_getElem]) rfl
theorem vrmaxu (d a m esz) : Statement (.vrmaxu d a m esz) :=
  long_of_word (w := 0xed#8 ++ d ++ a ++ 0x0#5 ++ m ++ esz ++ 0x3#4) (by simp) (by simp [Decode.word, Decode.major2D, -BitVec.getLsbD_eq_getElem]) rfl
theorem vrminu (d a m esz) : Statement (.vrminu d a m esz) :=
  long_of_word (w := 0xed#8 ++ d ++ a ++ 0x0#5 ++ m ++ esz ++ 0x4#4) (by simp) (by simp [Decode.word, Decode.major2D, -BitVec.getLsbD_eq_getElem]) rfl
theorem vrfadd (d a m esz) : Statement (.vrfadd d a m esz) :=
  long_of_word (w := 0xed#8 ++ d ++ a ++ 0x0#5 ++ m ++ esz ++ 0x5#4) (by simp) (by simp [Decode.word, Decode.major2D, -BitVec.getLsbD_eq_getElem]) rfl
theorem vrfmax (d a m esz) : Statement (.vrfmax d a m esz) :=
  long_of_word (w := 0xed#8 ++ d ++ a ++ 0x0#5 ++ m ++ esz ++ 0x6#4) (by simp) (by simp [Decode.word, Decode.major2D, -BitVec.getLsbD_eq_getElem]) rfl
theorem vrfmin (d a m esz) : Statement (.vrfmin d a m esz) :=
  long_of_word (w := 0xed#8 ++ d ++ a ++ 0x0#5 ++ m ++ esz ++ 0x7#4) (by simp) (by simp [Decode.word, Decode.major2D, -BitVec.getLsbD_eq_getElem]) rfl
theorem vpopc (d a m esz) : Statement (.vpopc d a m esz) :=
  long_of_word (w := 0xed#8 ++ d ++ a ++ 0x0#5 ++ m ++ esz ++ 0x8#4) (by simp) (by simp [Decode.word, Decode.major2D, -BitVec.getLsbD_eq_getElem]) rfl
theorem vfirst (d a m esz) : Statement (.vfirst d a m esz) :=
  long_of_word (w := 0xed#8 ++ d ++ a ++ 0x0#5 ++ m ++ esz ++ 0x9#4) (by simp) (by simp [Decode.word, Decode.major2D, -BitVec.getLsbD_eq_getElem]) rfl
theorem vcmpEq (d a b m esz) : Statement (.vcmpEq d a b m esz) :=
  long_of_word (w := 0xee#8 ++ d ++ a ++ b ++ m ++ esz ++ 0x0#4) (by simp) (by simp [Decode.word, Decode.major2E, -BitVec.getLsbD_eq_getElem]) rfl
theorem vcmpNe (d a b m esz) : Statement (.vcmpNe d a b m esz) :=
  long_of_word (w := 0xee#8 ++ d ++ a ++ b ++ m ++ esz ++ 0x1#4) (by simp) (by simp [Decode.word, Decode.major2E, -BitVec.getLsbD_eq_getElem]) rfl
theorem vcmpLt (d a b m esz) : Statement (.vcmpLt d a b m esz) :=
  long_of_word (w := 0xee#8 ++ d ++ a ++ b ++ m ++ esz ++ 0x2#4) (by simp) (by simp [Decode.word, Decode.major2E, -BitVec.getLsbD_eq_getElem]) rfl
theorem vcmpLe (d a b m esz) : Statement (.vcmpLe d a b m esz) :=
  long_of_word (w := 0xee#8 ++ d ++ a ++ b ++ m ++ esz ++ 0x3#4) (by simp) (by simp [Decode.word, Decode.major2E, -BitVec.getLsbD_eq_getElem]) rfl
theorem vcmpLtu (d a b m esz) : Statement (.vcmpLtu d a b m esz) :=
  long_of_word (w := 0xee#8 ++ d ++ a ++ b ++ m ++ esz ++ 0x4#4) (by simp) (by simp [Decode.word, Decode.major2E, -BitVec.getLsbD_eq_getElem]) rfl
theorem vcmpLeu (d a b m esz) : Statement (.vcmpLeu d a b m esz) :=
  long_of_word (w := 0xee#8 ++ d ++ a ++ b ++ m ++ esz ++ 0x5#4) (by simp) (by simp [Decode.word, Decode.major2E, -BitVec.getLsbD_eq_getElem]) rfl
theorem vcmpFeq (d a b m esz) : Statement (.vcmpFeq d a b m esz) :=
  long_of_word (w := 0xee#8 ++ d ++ a ++ b ++ m ++ esz ++ 0x8#4) (by simp) (by simp [Decode.word, Decode.major2E, -BitVec.getLsbD_eq_getElem]) rfl
theorem vcmpFlt (d a b m esz) : Statement (.vcmpFlt d a b m esz) :=
  long_of_word (w := 0xee#8 ++ d ++ a ++ b ++ m ++ esz ++ 0x9#4) (by simp) (by simp [Decode.word, Decode.major2E, -BitVec.getLsbD_eq_getElem]) rfl
theorem vcmpFle (d a b m esz) : Statement (.vcmpFle d a b m esz) :=
  long_of_word (w := 0xee#8 ++ d ++ a ++ b ++ m ++ esz ++ 0xa#4) (by simp) (by simp [Decode.word, Decode.major2E, -BitVec.getLsbD_eq_getElem]) rfl
theorem vcmpFun (d a b m esz) : Statement (.vcmpFun d a b m esz) :=
  long_of_word (w := 0xee#8 ++ d ++ a ++ b ++ m ++ esz ++ 0xb#4) (by simp) (by simp [Decode.word, Decode.major2E, -BitVec.getLsbD_eq_getElem]) rfl
theorem mand (d a b) : Statement (.mand d a b) :=
  long_of_word (w := 0xef#8 ++ d ++ a ++ b ++ 0x0#9) (by simp) (by simp [Decode.word, Decode.major2F, -BitVec.getLsbD_eq_getElem]) rfl
theorem mor (d a b) : Statement (.mor d a b) :=
  long_of_word (w := 0xef#8 ++ d ++ a ++ b ++ 0x1#9) (by simp) (by simp [Decode.word, Decode.major2F, -BitVec.getLsbD_eq_getElem]) rfl
theorem mxor (d a b) : Statement (.mxor d a b) :=
  long_of_word (w := 0xef#8 ++ d ++ a ++ b ++ 0x2#9) (by simp) (by simp [Decode.word, Decode.major2F, -BitVec.getLsbD_eq_getElem]) rfl
theorem mandn (d a b) : Statement (.mandn d a b) :=
  long_of_word (w := 0xef#8 ++ d ++ a ++ b ++ 0x3#9) (by simp) (by simp [Decode.word, Decode.major2F, -BitVec.getLsbD_eq_getElem]) rfl
theorem mnot (d a) : Statement (.mnot d a) :=
  long_of_word (w := 0xef#8 ++ d ++ a ++ 0x4#14) (by simp) (by simp [Decode.word, Decode.major2F, -BitVec.getLsbD_eq_getElem]) rfl
theorem mfirstn (d a) : Statement (.mfirstn d a) :=
  long_of_word (w := 0xef#8 ++ d ++ a ++ 0x5#14) (by simp) (by simp [Decode.word, Decode.major2F, -BitVec.getLsbD_eq_getElem]) rfl
theorem mcnt (d a) : Statement (.mcnt d a) :=
  long_of_word (w := 0xef#8 ++ d ++ a ++ 0x6#14) (by simp) (by simp [Decode.word, Decode.major2F, -BitVec.getLsbD_eq_getElem]) rfl
theorem vcvt (d a rm dst src sat) : Statement (.vcvt d a rm dst src sat) :=
  long_of_word (w := 0xf0#8 ++ d ++ a ++ rm ++ 0x0#2 ++ dst ++ src ++ BitVec.ofBool sat) (by simp) (by simp [Decode.word, -BitVec.getLsbD_eq_getElem]) rfl
theorem qnt (d a b tgt rm sat) : Statement (.qnt d a b tgt rm sat) :=
  long_of_word (w := 0xf1#8 ++ d ++ a ++ b ++ tgt ++ rm ++ BitVec.ofBool sat ++ 0x0#2) (by simp) (by simp [Decode.word, -BitVec.getLsbD_eq_getElem]) rfl
theorem dqt (d a b tgt) : Statement (.dqt d a b tgt) :=
  long_of_word (w := 0xf2#8 ++ d ++ a ++ b ++ tgt ++ 0x0#6) (by simp) (by simp [Decode.word, -BitVec.getLsbD_eq_getElem]) rfl
theorem bamax (d a) : Statement (.bamax d a) :=
  long_of_word (w := 0xf3#8 ++ d ++ a ++ 0x0#14) (by simp) (by simp [Decode.word, Decode.major33, -BitVec.getLsbD_eq_getElem]) rfl
theorem scld (d a tgt) : Statement (.scld d a tgt) :=
  long_of_word (w := 0xf3#8 ++ d ++ a ++ 0x0#5 ++ tgt ++ 0x1#6) (by simp) (by simp [Decode.word, Decode.major33, -BitVec.getLsbD_eq_getElem]) rfl
theorem macq : Statement (.macq) :=
  long_of_word (w := 0xf4000000#32) rfl rfl rfl
theorem mrel : Statement (.mrel) :=
  long_of_word (w := 0xf4000001#32) rfl rfl rfl
theorem mzero (a) : Statement (.mzero a) :=
  long_of_word (w := 0x1e80#13 ++ a ++ 0x2#14) (by simp) (by simp [Decode.word, Decode.major34, -BitVec.getLsbD_eq_getElem]) rfl
theorem mrd (d a b) : Statement (.mrd d a b) :=
  long_of_word (w := 0xf4#8 ++ d ++ a ++ b ++ 0x3#9) (by simp) (by simp [Decode.word, Decode.major34, -BitVec.getLsbD_eq_getElem]) rfl
theorem mwr (d a b) : Statement (.mwr d a b) :=
  long_of_word (w := 0xf4#8 ++ d ++ a ++ b ++ 0x4#9) (by simp) (by simp [Decode.word, Decode.major34, -BitVec.getLsbD_eq_getElem]) rfl
theorem mscl (d a) : Statement (.mscl d a) :=
  long_of_word (w := 0xf4#8 ++ d ++ a ++ 0x5#14) (by simp) (by simp [Decode.word, Decode.major34, -BitVec.getLsbD_eq_getElem]) rfl
theorem mchk (d a) : Statement (.mchk d a) :=
  long_of_word (w := 0xf4#8 ++ d ++ a ++ 0x6#14) (by simp) (by simp [Decode.word, Decode.major34, -BitVec.getLsbD_eq_getElem]) rfl
theorem sset (a) : Statement (.sset a) :=
  long_of_word (w := 0x1e80#13 ++ a ++ 0x7#14) (by simp) (by simp [Decode.word, Decode.major34, -BitVec.getLsbD_eq_getElem]) rfl
theorem mma (d a b fmt inc sp init) : Statement (.mma d a b fmt inc sp init) :=
  long_of_word (w := 0xf5#8 ++ d ++ a ++ b ++ fmt ++ BitVec.ofBool inc ++ BitVec.ofBool sp ++ BitVec.ofBool init ++ 0x0#2) (by simp) (by simp [Decode.word, -BitVec.getLsbD_eq_getElem]) rfl
theorem tsld (d) : Statement (.tsld d) :=
  long_of_word (w := 0xf6#8 ++ d ++ 0x0#19) (by simp) (by simp [Decode.word, Decode.major36, -BitVec.getLsbD_eq_getElem]) rfl
theorem tsst (a) : Statement (.tsst a) :=
  long_of_word (w := 0x1ec0#13 ++ a ++ 0x1#14) (by simp) (by simp [Decode.word, Decode.major36, -BitVec.getLsbD_eq_getElem]) rfl
theorem tsfill (a b) : Statement (.tsfill a b) :=
  long_of_word (w := 0x1ec0#13 ++ a ++ b ++ 0x2#9) (by simp) (by simp [Decode.word, Decode.major36, -BitVec.getLsbD_eq_getElem]) rfl
theorem cpy : Statement (.cpy) :=
  long_of_word (w := 0xf8000000#32) rfl rfl rfl
theorem cpyd : Statement (.cpyd) :=
  long_of_word (w := 0xf8000001#32) rfl rfl rfl
theorem cpyx : Statement (.cpyx) :=
  long_of_word (w := 0xf8000002#32) rfl rfl rfl
theorem cpyts : Statement (.cpyts) :=
  long_of_word (w := 0xf8000003#32) rfl rfl rfl
theorem cpyr : Statement (.cpyr) :=
  long_of_word (w := 0xf8000004#32) rfl rfl rfl
theorem cpyq (d) : Statement (.cpyq d) :=
  long_of_word (w := 0xf8#8 ++ d ++ 0x5#19) (by simp) (by simp [Decode.word, Decode.major38, -BitVec.getLsbD_eq_getElem]) rfl
theorem ckdecl (d a b) : Statement (.ckdecl d a b) :=
  long_of_word (w := 0xfb#8 ++ d ++ a ++ b ++ 0x0#9) (by simp) (by simp [Decode.word, Decode.major3B, -BitVec.getLsbD_eq_getElem]) rfl
theorem srcdecl (d a b) : Statement (.srcdecl d a b) :=
  long_of_word (w := 0xfb#8 ++ d ++ a ++ b ++ 0x1#9) (by simp) (by simp [Decode.word, Decode.major3B, -BitVec.getLsbD_eq_getElem]) rfl
theorem sgadd (a) : Statement (.sgadd a) :=
  long_of_word (w := 0x1f60#13 ++ a ++ 0x2#14) (by simp) (by simp [Decode.word, Decode.major3B, -BitVec.getLsbD_eq_getElem]) rfl
theorem sgqry (d) : Statement (.sgqry d) :=
  long_of_word (w := 0xfb#8 ++ d ++ 0x3#19) (by simp) (by simp [Decode.word, Decode.major3B, -BitVec.getLsbD_eq_getElem]) rfl
theorem agerd (d a) : Statement (.agerd d a) :=
  long_of_word (w := 0xfb#8 ++ d ++ a ++ 0x4#14) (by simp) (by simp [Decode.word, Decode.major3B, -BitVec.getLsbD_eq_getElem]) rfl
theorem pwrrd (d a) : Statement (.pwrrd d a) :=
  long_of_word (w := 0xfb#8 ++ d ++ a ++ 0x5#14) (by simp) (by simp [Decode.word, Decode.major3B, -BitVec.getLsbD_eq_getElem]) rfl
theorem pwrw (a b) : Statement (.pwrw a b) :=
  long_of_word (w := 0x1f60#13 ++ a ++ b ++ 0x6#9) (by simp) (by simp [Decode.word, Decode.major3B, -BitVec.getLsbD_eq_getElem]) rfl
theorem rtqry (d a) : Statement (.rtqry d a) :=
  long_of_word (w := 0xfb#8 ++ d ++ a ++ 0x7#14) (by simp) (by simp [Decode.word, Decode.major3B, -BitVec.getLsbD_eq_getElem]) rfl
theorem csrr (d csr) : Statement (.csrr d csr) :=
  long_of_word (w := 0xfd#8 ++ d ++ 0x0#7 ++ csr) (by simp) (by simp [Decode.word, Decode.major3D, -BitVec.getLsbD_eq_getElem]) rfl
theorem csrw (a csr) : Statement (.csrw a csr) :=
  long_of_word (w := 0x1fa0#13 ++ a ++ 0x1#2 ++ csr) (by simp) (by simp [Decode.word, Decode.major3D, -BitVec.getLsbD_eq_getElem]) rfl
theorem csrs (d a csr) : Statement (.csrs d a csr) :=
  long_of_word (w := 0xfd#8 ++ d ++ a ++ 0x2#2 ++ csr) (by simp) (by simp [Decode.word, Decode.major3D, -BitVec.getLsbD_eq_getElem]) rfl
theorem csrc (d a csr) : Statement (.csrc d a csr) :=
  long_of_word (w := 0xfd#8 ++ d ++ a ++ 0x3#2 ++ csr) (by simp) (by simp [Decode.word, Decode.major3D, -BitVec.getLsbD_eq_getElem]) rfl
theorem tresume (d a b) : Statement (.tresume d a b) :=
  long_of_word (w := 0xfe#8 ++ d ++ a ++ b ++ 0x0#9) (by simp) (by simp [Decode.word, Decode.major3E, -BitVec.getLsbD_eq_getElem]) rfl
theorem tabort (d a b) : Statement (.tabort d a b) :=
  long_of_word (w := 0xfe#8 ++ d ++ a ++ b ++ 0x1#9) (by simp) (by simp [Decode.word, Decode.major3E, -BitVec.getLsbD_eq_getElem]) rfl
theorem tlbfill (d a b) : Statement (.tlbfill d a b) :=
  long_of_word (w := 0xfe#8 ++ d ++ a ++ b ++ 0x2#9) (by simp) (by simp [Decode.word, Decode.major3E, -BitVec.getLsbD_eq_getElem]) rfl
theorem tlbinv (a b) : Statement (.tlbinv a b) :=
  long_of_word (w := 0x1fc0#13 ++ a ++ b ++ 0x3#9) (by simp) (by simp [Decode.word, Decode.major3E, -BitVec.getLsbD_eq_getElem]) rfl
theorem wssw (a) : Statement (.wssw a) :=
  long_of_word (w := 0x1fc0#13 ++ a ++ 0x4#14) (by simp) (by simp [Decode.word, Decode.major3E, -BitVec.getLsbD_eq_getElem]) rfl
theorem svc (a) : Statement (.svc a) :=
  long_of_word (w := 0x1fc0#13 ++ a ++ 0x5#14) (by simp) (by simp [Decode.word, Decode.major3E, -BitVec.getLsbD_eq_getElem]) rfl
theorem brk : Statement (.brk) :=
  long_of_word (w := 0xfe000006#32) rfl rfl rfl
theorem halt (a b) : Statement (.halt a b) :=
  long_of_word (w := 0x1fc0#13 ++ a ++ b ++ 0x7#9) (by simp) (by simp [Decode.word, Decode.major3E, -BitVec.getLsbD_eq_getElem]) rfl
theorem idle : Statement (.idle) :=
  long_of_word (w := 0xfe000008#32) rfl rfl rfl
theorem bmmask (a b) : Statement (.bmmask a b) :=
  long_of_word (w := 0x1fc0#13 ++ a ++ b ++ 0x9#9) (by simp) (by simp [Decode.word, Decode.major3E, -BitVec.getLsbD_eq_getElem]) rfl
theorem udf (x) : Statement (.udf x) :=
  long_of_word (w := 0xff#8 ++ x) (by simp) (by simp [Decode.word, -BitVec.getLsbD_eq_getElem]) rfl
theorem ill : Statement (.ill) :=
  half_of_word (h := 0x0#16) rfl rfl rfl
theorem cNop : Statement (.cNop) :=
  half_of_word (h := 0x1#16) rfl rfl rfl
theorem cNend : Statement (.cNend) :=
  half_of_word (h := 0x2#16) rfl rfl rfl
theorem cRet : Statement (.cRet) :=
  half_of_word (h := 0x3#16) rfl rfl rfl
theorem cMov (d a) : Statement (.cMov d a) :=
  half_of_word (h := 0x1#4 ++ d ++ a ++ 0x0#4) (by simp [Decode.isLong]) (by simp [Decode.half]) rfl
theorem cAddi (d imm) : Statement (.cAddi d imm) :=
  half_of_word (h := 0x2#4 ++ d ++ imm) (by simp [Decode.isLong]) (by simp [Decode.half]) rfl
theorem cLi (d imm) : Statement (.cLi d imm) :=
  half_of_word (h := 0x3#4 ++ d ++ imm) (by simp [Decode.isLong]) (by simp [Decode.half]) rfl
theorem cAdd (d a b) : Statement (.cAdd d a b) :=
  half_of_word (h := 0x4#4 ++ d ++ a ++ b) (by simp [Decode.isLong]) (by simp [Decode.half]) rfl
theorem cSub (d a b) : Statement (.cSub d a b) :=
  half_of_word (h := 0x5#4 ++ d ++ a ++ b) (by simp [Decode.isLong]) (by simp [Decode.half]) rfl
theorem cLdw (d a off) : Statement (.cLdw d a off) :=
  half_of_word (h := 0x6#4 ++ d ++ a ++ off) (by simp [Decode.isLong]) (by simp [Decode.half]) rfl
theorem cStw (t a off) : Statement (.cStw t a off) :=
  half_of_word (h := 0x7#4 ++ t ++ a ++ off) (by simp [Decode.isLong]) (by simp [Decode.half]) rfl
theorem cBeqz (a off) : Statement (.cBeqz a off) :=
  half_of_word (h := 0x8#4 ++ a ++ off) (by simp [Decode.isLong]) (by simp [Decode.half]) rfl
theorem cBnez (a off) : Statement (.cBnez a off) :=
  half_of_word (h := 0x9#4 ++ a ++ off) (by simp [Decode.isLong]) (by simp [Decode.half]) rfl
theorem cBr (off) : Statement (.cBr off) :=
  half_of_word (h := 0xa#4 ++ off) (by simp [Decode.isLong]) (by simp [Decode.half]) rfl
theorem cShli (d amt) : Statement (.cShli d amt) :=
  half_of_word (h := 0xb#4 ++ d ++ 0x0#2 ++ amt) (by simp [Decode.isLong]) (by simp [Decode.half]) rfl
theorem sqtailNotify : ∀ x0 x1 x2, Statement (.sqtailNotify x0 x1 x2) := fun _ _ _ => trivial
theorem queueSlotMap : ∀ x0, Statement (.queueSlotMap x0) := fun _ => trivial
theorem launchRecord : ∀ x0, Statement (.launchRecord x0) := fun _ => trivial
theorem haltRecord : ∀ x0, Statement (.haltRecord x0) := fun _ => trivial
theorem resumeRecord : ∀ x0, Statement (.resumeRecord x0) := fun _ => trivial
theorem cancelRecord : ∀ x0, Statement (.cancelRecord x0) := fun _ => trivial
theorem cqhead : ∀ x0 x1 x2, Statement (.cqhead x0 x1 x2) := fun _ _ _ => trivial
theorem nodeStart : ∀ x0 x1, Statement (.nodeStart x0 x1) := fun _ _ => trivial
theorem urgentStart : ∀ x0 x1, Statement (.urgentStart x0 x1) := fun _ _ => trivial
theorem commit : ∀ x0, Statement (.commit x0) := fun _ => trivial
theorem borrow : ∀ x0, Statement (.borrow x0) := fun _ => trivial
theorem epochAck : ∀ x0, Statement (.epochAck x0) := fun _ => trivial
theorem token : ∀ x0, Statement (.token x0) := fun _ => trivial
theorem restoreItem : ∀ x0, Statement (.restoreItem x0) := fun _ => trivial
theorem beadReturn : ∀ x0, Statement (.beadReturn x0) := fun _ => trivial
theorem nodeRetry : ∀ x0, Statement (.nodeRetry x0) := fun _ => trivial
theorem budgetExpiry : ∀ x0, Statement (.budgetExpiry x0) := fun _ => trivial
theorem accessResponse : ∀ x0, Statement (.accessResponse x0) := fun _ => trivial
theorem trapMessage : ∀ x0, Statement (.trapMessage x0) := fun _ => trivial
theorem remoteRodAdd : ∀ x0, Statement (.remoteRodAdd x0) := fun _ => trivial
theorem copyPost : ∀ x0, Statement (.copyPost x0) := fun _ => trivial
theorem copySegment : ∀ x0, Statement (.copySegment x0) := fun _ => trivial
theorem segmentDelivery : ∀ x0 x1, Statement (.segmentDelivery x0 x1) := fun _ _ => trivial
theorem copyQueuePush : ∀ x0, Statement (.copyQueuePush x0) := fun _ => trivial
theorem copyEnd : ∀ x0, Statement (.copyEnd x0) := fun _ => trivial
theorem beamRaise : ∀ x0 x1 x2, Statement (.beamRaise x0 x1 x2) := fun _ _ _ => trivial
theorem beamRelease : ∀ x0 x1 x2, Statement (.beamRelease x0 x1 x2) := fun _ _ _ => trivial
theorem routerDeath : ∀ x0 x1, Statement (.routerDeath x0 x1) := fun _ _ => trivial
theorem beamRecombine : ∀ x0 x1, Statement (.beamRecombine x0 x1) := fun _ _ => trivial
theorem rotcmdGo : ∀ x0 x1 x2, Statement (.rotcmdGo x0 x1 x2) := fun _ _ _ => trivial
theorem rotcmdEmerg : ∀ x0 x1 x2, Statement (.rotcmdEmerg x0 x1 x2) := fun _ _ _ => trivial
theorem drainEnd : ∀ x0 x1, Statement (.drainEnd x0 x1) := fun _ _ => trivial
theorem drainLimitExpiry : ∀ x0 x1, Statement (.drainLimitExpiry x0 x1) := fun _ _ => trivial
theorem remap : ∀ x0 x1, Statement (.remap x0 x1) := fun _ _ => trivial
theorem mapGenerationApply : ∀ x0 x1, Statement (.mapGenerationApply x0 x1) := fun _ _ => trivial
theorem marker : ∀ x0 x1, Statement (.marker x0 x1) := fun _ _ => trivial
theorem selfTestDone : ∀ x0 x1 x2 x3, Statement (.selfTestDone x0 x1 x2 x3) := fun _ _ _ _ => trivial
theorem epochTimer : ∀ x0, Statement (.epochTimer x0) := fun _ => trivial
theorem epochApply : ∀ x0, Statement (.epochApply x0) := fun _ => trivial
theorem durableAck : ∀ x0, Statement (.durableAck x0) := fun _ => trivial
theorem tileLoss : ∀ x0 x1, Statement (.tileLoss x0 x1) := fun _ _ => trivial
theorem restoreNotice : ∀ x0 x1, Statement (.restoreNotice x0 x1) := fun _ _ => trivial
theorem restoreResend : ∀ x0, Statement (.restoreResend x0) := fun _ => trivial
theorem screenCompare : ∀ x0, Statement (.screenCompare x0) := fun _ => trivial
theorem silenceProbe : ∀ x0 x1, Statement (.silenceProbe x0 x1) := fun _ _ => trivial
theorem probeAnswer : ∀ x0 x1, Statement (.probeAnswer x0 x1) := fun _ _ => trivial
theorem probeTimeout : ∀ x0 x1, Statement (.probeTimeout x0 x1) := fun _ _ => trivial
theorem quantaGrant : ∀ x0, Statement (.quantaGrant x0) := fun _ => trivial
theorem reserveShare : ∀ x0, Statement (.reserveShare x0) := fun _ => trivial
theorem migrationGo : ∀ x0 x1 x2, Statement (.migrationGo x0 x1 x2) := fun _ _ _ => trivial
theorem migrationRoundEnd : ∀ x0 x1, Statement (.migrationRoundEnd x0 x1) := fun _ _ => trivial
theorem ptcmdSpareToReplica : ∀ x0 x1 x2, Statement (.ptcmdSpareToReplica x0 x1 x2) := fun _ _ _ => trivial
theorem ptcmdReplicaToSpare : ∀ x0 x1 x2, Statement (.ptcmdReplicaToSpare x0 x1 x2) := fun _ _ _ => trivial
theorem ptcmdSpareToSelfTest : ∀ x0 x1 x2, Statement (.ptcmdSpareToSelfTest x0 x1 x2) := fun _ _ _ => trivial
theorem l2gate : ∀ x0 x1 x2, Statement (.l2gate x0 x1 x2) := fun _ _ _ => trivial
theorem seedWrite : ∀ x0, Statement (.seedWrite x0) := fun _ => trivial
theorem counterEvent : ∀ x0 x1, Statement (.counterEvent x0 x1) := fun _ _ => trivial
theorem idleWake : ∀ x0, Statement (.idleWake x0) := fun _ => trivial
theorem debuggerTrigger : ∀ x0 x1 x2, Statement (.debuggerTrigger x0 x1 x2) := fun _ _ _ => trivial
theorem firmwareCoreReset : ∀ x0, Statement (.firmwareCoreReset x0) := fun _ => trivial
theorem flit : ∀ x0 x1 x2 x3 x4 x5 x6, Statement (.flit x0 x1 x2 x3 x4 x5 x6) := fun _ _ _ _ _ _ _ => trivial
theorem replayRequest : ∀ x0 x1 x2, Statement (.replayRequest x0 x1 x2) := fun _ _ _ => trivial
theorem idleFlit : ∀ x0 x1, Statement (.idleFlit x0 x1) := fun _ _ => trivial
theorem retrainEnd : ∀ x0 x1 x2, Statement (.retrainEnd x0 x1 x2) := fun _ _ _ => trivial
theorem panelShrink : ∀ x0, Statement (.panelShrink x0) := fun _ => trivial
theorem boot : ∀ x0 x1, Statement (.boot x0 x1) := fun _ _ => trivial
theorem capw : ∀ x0 x1, Statement (.capw x0 x1) := fun _ _ => trivial
theorem swbrake : ∀ x0 x1, Statement (.swbrake x0 x1) := fun _ _ => trivial
theorem brkpin : ∀ x0 x1, Statement (.brkpin x0 x1) := fun _ _ => trivial
theorem attestationRequest : ∀ x0 x1, Statement (.attestationRequest x0 x1) := fun _ _ => trivial
theorem hostRequest : ∀ x0 x1, Statement (.hostRequest x0 x1) := fun _ _ => trivial
theorem mailboxRequest : ∀ x0 x1, Statement (.mailboxRequest x0 x1) := fun _ _ => trivial
theorem eccError : ∀ x0 x1, Statement (.eccError x0 x1) := fun _ _ => trivial
theorem registerWrite : ∀ x0 x1 x2, Statement (.registerWrite x0 x1 x2) := fun _ _ _ => trivial
theorem trayAddBack : ∀ x0, Statement (.trayAddBack x0) := fun _ => trivial
theorem powerRemoval : ∀ x0, Statement (.powerRemoval x0) := fun _ => trivial

end Sys2Proof.Laws.Encodes
end

