-- ==== Sys2Proof/Tests/Slice0.lean ====
section
/-! SUPPORT. The tests of the model: the checks of WellFormed, decoding of words written out from the spec's encoding
tables, single steps with results worked out from the spec, and one witness per statement that has hypotheses. -/

namespace Sys2Proof.Tests

set_option Elab.async false

open Sys2Proof Sys2Proof.Machine Sys2Proof.Stated

/-! ### WellFormed: one instruction refused per check, and one accepted -/

theorem test_low8_refused : (Instr.mfe 1 8).wellFormed = false := by decide
theorem test_low8_accepted : (Instr.mfe 1 7).wellFormed = true := by decide
theorem test_low16_refused : (Instr.rcpClr 16).wellFormed = false := by decide
theorem test_vecField_refused : (Instr.vaddVv 1 24 3 0 2).wellFormed = false := by decide
theorem test_vecDest_refused : (Instr.vaddVv 16 2 3 1 2).wellFormed = false := by decide
theorem test_vecDest_accepted : (Instr.vaddVv 16 2 3 0 2).wellFormed = true := by decide
theorem test_widthCode_refused : (Instr.sext 1 2 3).wellFormed = false := by decide
theorem test_shiftAmount_refused : (Instr.shli 1 2 true 32).wellFormed = false := by decide
theorem test_shiftAmount_accepted : (Instr.shli 1 2 false 32).wellFormed = true := by decide
theorem test_writtenMask_refused : (Instr.mtm 0 1).wellFormed = false := by decide
theorem test_recipeLen_refused : (Instr.rcpDef 1 5).wellFormed = false := by decide
theorem test_taggable_refused : (Instr.rcpDrop 15 0).wellFormed = false := by decide
theorem test_wideElement_refused : (Instr.vldsG 1 2 3 0 1).wellFormed = false := by decide
theorem test_rodField_refused : (Instr.rget 1 96).wellFormed = false := by decide
theorem test_rounding_refused : (Instr.vcvt 1 2 5 0 1 false).wellFormed = false := by decide
theorem test_formatCode_refused : (Instr.vcvt 1 2 0 11 1 false).wellFormed = false := by decide
theorem test_target_refused : (Instr.scld 1 2 6).wellFormed = false := by decide
theorem test_convDest_refused : (Instr.vcvt 16 2 0 2 1 false).wellFormed = false := by decide
theorem test_accField_refused : (Instr.mzero 4).wellFormed = false := by decide
theorem test_scaleField_refused : (Instr.mma 0 1 1 2 false false false).wellFormed = false := by decide
theorem test_queueField_refused : (Instr.cpyq 24).wellFormed = false := by decide
theorem test_csrAssigned : (WellFormed.csrAssigned 0x405, WellFormed.csrAssigned 0xF02) = (false, true) := by decide
theorem test_csrWritable : (WellFormed.csrWritable 5, WellFormed.csrWritable 4) = (false, true) := by decide

/-! ### Decoding: words of the encoding examples of spec/, family by family -/

/-- Major 0x08 (R90's example: `add.w w4, w5, w6`), 0x0E, 0x10 (the example program's `mfi w1, id.inbox`). -/
theorem test_decode_scalar : [0xC8214D00, 0xCE18E05F, 0xD0081800].map (decodeTableWord 32) =
    [some (.add 4 5 6 true), some (.shai 3 3 true 31), some (.mfi 1 12)] := by decide +kernel
/-- Control flow: majors 0x03 and 0x05; a branch word of cond 8 is illegal (R70). -/
theorem test_decode_control : [0xC3010002, 0xC5000001, 0xC2800000].map (decodeTableWord 32) =
    [some (.jt 4 2), some .nend, none] := by decide +kernel
/-- Compact halfwords (R43: 0x4223 is `c.add w2, w2, w3`; 0x0000 is ILLEGAL). -/
theorem test_decode_compact : [0x4223, 0].map (decodeTableWord 16) = [some (.cAdd 2 2 3), some .ill] := by decide +kernel
/-- Loads and stores: majors 0x11, 0x14, 0x15, 0x16, 0x19, 0x1F. -/
theorem test_decode_memory :
    [0xD1190002, 0xD4104C00, 0xD5104C02, 0xD620AC01, 0xD9298BFF, 0xDF28AC02].map (decodeTableWord 32) =
    [some (.lde 3 4 2), some (.ldL 2 1 0 3 0), some (.stL 2 1 0 3 2), some (.ldG 4 2 2 3 1),
      some (.stT 5 6 0 2 0x3FF), some (.stM 5 2 2 3 2)] := by decide +kernel
/-- Vector memory and leases: majors 0x1A, 0x1B. -/
theorem test_decode_vector_memory : [0xDA0A0029, 0xDB1A9601].map (decodeTableWord 32) =
    [some (.vstG 1 8 0 2), some (.tchW 3 10 11)] := by decide +kernel
/-- Rods, the beam, tokens and nodes: majors 0x20 to 0x24. -/
theorem test_decode_rods_beam : [0xE0002005, 0xE038100C, 0xE0003028, 0xE1010A00, 0xE2180200, 0xE3018E00].map
      (decodeTableWord 32) =
    [some (.rwait 5), some (.rget 7 12), some (.barr 40), some (.rrmt 4 5), some (.waitm 3 1), some (.bmjoin 6 7)] := by
  decide +kernel
theorem test_decode_nodes :
    [0xE400C000, 0xE4114801, 0xE431C003, 0xE4088005, 0xE4214C06, 0xE4214007].map (decodeTableWord 32) =
    [some (.tok 3), some (.tokv 2 5 4), some (.narm 6 7), some (.nqry 1 2), some (.evb 4 5 6), some (.evu 4 5)] := by
  decide +kernel
/-- Vector operations: majors 0x28, 0x2C (R276's example), 0x2E, 0x2F. -/
theorem test_decode_vector : [0xE808870E, 0xEC194822, 0xEE100229, 0xEF288006].map (decodeTableWord 32) =
    [some (.vaddsatVv 1 2 3 4 0), some (.vext 3 5 4 2), some (.vcmpFlt 2 0 1 0 2), some (.mcnt 5 2)] := by decide +kernel
/-- Conversions and the matrix engine: majors 0x30, 0x33, 0x36. -/
theorem test_decode_matrix : [0xF0080063, 0xF3500000, 0xF35A8001, 0xF6080000, 0xF6008001].map (decodeTableWord 32) =
    [some (.vcvt 1 0 0 3 1 true), some (.bamax 10 0), some (.scld 11 10 0), some (.tsld 1), some (.tsst 2)] := by
  decide +kernel
/-- Service and system: majors 0x3B, 0x3D, 0x3E. -/
theorem test_decode_system :
    [0xFB190A00, 0xFB008606, 0xFD280003, 0xFD019003, 0xFD00B001, 0xFE088600, 0xFE090A02, 0xFE024005, 0xFE000006,
      0xFE000008].map (decodeTableWord 32) =
    [some (.ckdecl 3 4 5), some (.pwrw 2 3), some (.csrr 5 3), some (.csrw 6 3), some (.csrc 0 2 1), some (.tresume 1 2 3),
      some (.tlbfill 1 4 5), some (.svc 9), some .brk, some .idle] := by decide +kernel
/-- The words that the statement DecodeWords names. -/
theorem test_decode_words : decodeWord 0xC8214D00 = .ok (.add 4 5 6 true) ∧ decodeWord 0xE0002005 = .ok (.rwait 5) ∧
    decodeWord 0xFE000006 = .ok .brk ∧ decodeHalf 0 = .ok .ill ∧
    halvesOfBytes [0x19, 0xC9, 0xFB, 0x3F] = word32 0xC9193FFB := ⟨rfl, rfl, rfl, rfl, rfl⟩

/-! ### Small states -/

/-- An activation of node 5 of VT 0 in slot 0 of the compute core, with these w registers. -/
def act (regs : List (Nat × Word)) : Act :=
  { Act.zero with
    index := 5, place := .slot 0, wp := 0xB0000, area := 1, pc := 0x100000, nref := 0x80000000005, nsucc := 2, gid := 1,
    asid := 3, key := 2, budget := 1000, w := regs.foldl (fun w e => w.set! e.1 e.2) Act.zero.w }

/-- Node 5 of graph 1, RUNNING, with two successor entries at offset 0xA2000. -/
def node5 : Node := { Node.empty with gid := 1, state := stRunning, retry := 2, weight := 8, nsucc := 2, succ := 0xA2000, beads := 8 }

/-- A translation entry of address-space id 3 and key 2 for the 2 MiB page at 0, all rights. -/
def page0 : Tlb := ⟨0, 1, 0, 2, 3, false, 0, 0, false, true, true, true, []⟩

/-- Tile 0 with node 5 in slot 0 of its compute core. -/
def tile0 : Tile :=
  { Tile.empty with
    nodes := [(5, node5)]
    comp := { Core.empty with slots := #v[some 5, none, none, none], tlb := [page0] } }

/-- Graph 1 of panel 0. -/
def graph1 : Graph :=
  { panel := 0, queue := 0, asid := 3, key := 2, prio := 1, grec := 0x180000, exq := 0, exqcap := 0, roots := 0, rootcap := 0,
    tag := 0, halted := false, cancelled := false, slots := [(0, 5)], image := 0, succs := [], regions := [] }

/-- Panel 0 with 100 VTs, VTs 0 and 1 on PTs 0 and 1. -/
def node (x : Act) : State :=
  { State.reset with
    cur := 5
    acts := [(5, x)]
    tiles := [(0, tile0)]
    panels := [(0, { Panel.empty with state := .ready, inDomain := true, vts := 100, beam := [(0, ⟨some 3, 0, [], []⟩)] })]
    pts := [(0, { Pt.spare 0 with role := .inService 0 }), (1, { Pt.spare 1 with role := .inService 1 })]
    graphs := [(1, graph1)] }

/-- The context of firmware core 0 with these w registers. -/
def fwAct (regs : List (Nat × Word)) : Act :=
  { Act.zero with fw := true, place := .slot 0, wp := 0x1000, w := regs.foldl (fun w e => w.set! e.1 e.2) Act.zero.w }

/-- Panel 0 with firmware core 0 running. -/
def firm (x : Act) : State :=
  { node (act []) with cur := Config.fwKey, acts := [(5, act []), (Config.fwKey, x)], fws := [(0, FwCore.empty)] }

/-- A replica, on the tile of PT 3, of the activation of node 5. -/
def repl (x : Act) : Act := { x with replica := true, tile := Config.replicaBase + 3 }

/-- The replica runs, while PT 0 has applied a map generation that PT 3 has not. -/
def onReplica (x : Act) : State :=
  { node (repl x) with
    tiles := [(0, tile0), (Config.replicaBase + 3, tile0)]
    pts := [(0, { Pt.spare 0 with role := .inService 0, mapGen := 1 }), (3, { Pt.spare 3 with role := .replica 0 })] }

/-- What a next state holds. -/
def got {α : Type} (r : Out State) (f : State → α) : Option α :=
  match r with
  | .next t => some (f t)
  | _ => none

/-- The w register, the PC and the fault cause of the issuing activation after an instruction. -/
def after (i : Instr) (s : State) (d : BitVec 5) : Option (Word × Word × BitVec 8) :=
  got (exec i s) (fun t => (t.w d, t.here.pc, t.here.cause.code))

theorem issues (regs : List (Nat × Word)) : Issuing (node (act regs)) (act regs) := ⟨rfl, rfl, rfl⟩
theorem issues_fw (regs : List (Nat × Word)) : Issuing (firm (fwAct regs)) (fwAct regs) := ⟨rfl, rfl, rfl⟩

/-! ### Single steps: results worked out by hand from spec/ -/

/-- R89: 0x7FFFFFFF + 1 in the W form is sign-extended; in the 64-bit form it is not. -/
theorem test_add_w : after (.add 4 5 6 true) (node (act [(5, 0x7FFFFFFF), (6, 1)])) 4 =
    some (0xFFFFFFFF80000000, 0x100004, 0) := by decide +kernel
theorem test_add : after (.add 4 5 6 false) (node (act [(5, 0x7FFFFFFF), (6, 1)])) 4 = some (0x80000000, 0x100004, 0) := by
  decide +kernel
/-- R15's example: VT 23 of panel 1 at offset 0x100. -/
theorem test_vta : after (.vta 3 1 2) (node (act [(1, 0x1017), (2, 0x100)])) 3 = some (0x405C00100, 0x100004, 0) := by
  decide +kernel
/-- R91: a signed quotient is rounded toward zero; a zero divisor gives all ones and its remainder the dividend. -/
theorem test_div : after (.div 1 2 3 false) (node (act [(2, -7), (3, 2)])) 1 = some (-3, 0x100004, 0) := by decide +kernel
theorem test_rem_zero : after (.rem 1 2 3 true) (node (act [(2, 0xFFFFFFFF80000001)])) 1 =
    some (0xFFFFFFFF80000001, 0x100004, 0) := by decide +kernel
/-- R94's example: `shai.w w3, w3, 31` gives all ones for a negative low word. -/
theorem test_shai : after (.shai 3 3 true 31) (node (act [(3, 0x80000000)])) 3 = some (-1, 0x100004, 0) := by decide +kernel
/-- R90: `sel` reads its destination as the condition. -/
theorem test_sel : after (.sel 1 2 3) (node (act [(1, 1), (2, 20), (3, 30)])) 1 = some (20, 0x100004, 0) := by decide +kernel
/-- R68, R70: a taken branch backwards, and one below address 0, which takes NONCANON. -/
theorem test_blt : after (.blt 1 2 0x3FE) (node (act [(1, -1)])) 1 = some (-1, 0xFFFFC, 0) := by decide +kernel
theorem test_br_noncanon : got (exec (.br 0xF00000) (node (act []))) (fun t => (t.act? 5).isSome) = some false := by
  decide +kernel
/-- R69, R71: a call writes the return address to w31 and to the shadow stack. -/
theorem test_call : got (exec (.call 8) (node (act []))) (fun t => (t.w 31, t.here.pc, t.here.shadow[0], t.here.status.cdepth)) =
    some (0x100004, 0x100010, 0x100004, 1) := by decide +kernel
/-- R126, R141: a 32-bit store of own LM and the bytes that it leaves. -/
theorem test_stl : got (exec (.stL 1 2 0 2 1) (node (act [(1, 0x11223344), (2, 0xA1000)])))
    (fun t => (t.tile 0).lm) = some [(0xA1004, 0x44), (0xA1005, 0x33), (0xA1006, 0x22), (0xA1007, 0x11)] := by decide +kernel
/-- R100: a load of the activation's own workspace returns the register (w7 at offset 56). -/
theorem test_ldl_workspace : after (.ldL 1 2 0 3 7) (node (act [(2, 0xB0000), (7, 77)])) 1 = some (77, 0x100004, 0) := by
  decide +kernel
/-- R126: a misaligned access takes ALIGN, which ends the activation. -/
theorem test_ldl_align : got (exec (.ldL 1 2 0 2 0) (node (act [(2, 0xA1001)]))) (fun t => (t.act? 5).isSome) = some false := by
  decide +kernel
/-- R173: acas writes only where the old value is E, and gives the old value. -/
theorem test_acas : got (exec (.acasL 1 2 3 0 0 true) (node (act [(1, 0), (2, 0xA1000), (3, 9)])))
    (fun t => ((t.tile 0).lm, t.w 1, t.here.status.eff)) = some ([(0xA1000, 9)], 0, true) := by decide +kernel
/-- R185: radd wraps modulo 2^32 and sets OVF on signed overflow. -/
theorem test_radd : got (exec (.radd 1 3) { node (act [(1, 1)]) with
      tiles := [(0, { tile0 with rods := [(3, ⟨0x7FFFFFFF, 0, 0, false, 0⟩)] })] })
    (fun t => ((t.tile 0).rod 3).count.toNat) = some 0x80000000 := by decide +kernel
/-- The example of R190: slot 0 watches k3; an add of 2 has satisfied it, so waitm gives 0. -/
theorem test_waitm : after (.waitm 3 1) { node { act [] with e := Act.zero.e.set! 1 0x8483 } with
      tiles := [(0, { tile0 with rods := [(3, ⟨2, 2, 0, false, 0⟩), (4, ⟨0, 2, 0, false, 0⟩)] })] } 3 =
    some (0, 0x100004, 0) := by decide +kernel
/-- R267's example: saturating sums of bytes 100 + 50 and −100 − 50. -/
theorem test_vaddsat : got (exec (.vaddsatVv 1 2 3 0 0) (node { act [] with
      v := (Act.zero.v.set! 2 0x9C64).set! 3 0xCE32 })) (fun t => (t.here.vreg 1).toNat) = some 0x807F := by decide +kernel
/-- The example of chapter 5: v6 := 2.0 × 3.0 and v8 := 6.0 + 2.0, here lane 0. -/
theorem test_vfmul : got (exec (.vfmulVv 6 7 1 0 2) (node { act [] with
      v := (Act.zero.v.set! 7 0x40000000).set! 1 0x40400000 })) (fun t => (t.here.vreg 6).toNat) = some 0x40C00000 := by
  decide +kernel
/-- The draws of the example of R247, from L = 0xC000. -/
theorem test_draws : (roundings 4 2 0xC000).1 = [.rsr 0xC000, .rsr 0x0C02] := by decide +kernel
/-- The scales and elements of the example of two SB8 blocks (lanes 0 to 3 of block 0). -/
theorem test_qnt : (quantBlock 0 true ([0x447A0000, 0xC0400000, 0x3A83126F, 0x3B449BA6] ++ List.replicate 28 0)
      (List.replicate 32 .rne)).1 = 0x201 ∧
    (quantBlock 0 true ([0x447A0000, 0xC0400000, 0x3A83126F, 0x3B449BA6] ++ List.replicate 28 0)
      (List.replicate 32 .rne)).2.1.take 4 = [0x7C, 0xBA, 0, 1] := by decide +kernel
/-- R372: a tile core's access to 0x400 takes PRIV; SEED reads 1 at the start (R99). -/
theorem test_csrr_priv : got (exec (.csrr 1 0x400) (node (act []))) (fun t => ((t.act? 5).isSome, t.msgs.length)) =
    some (false, 1) := by decide +kernel
theorem test_csrr_seed : after (.csrr 5 3) (node (act [])) 5 = some (1, 0x100004, 0) := by decide +kernel
/-- R385: svc parks with cause SVC (the header PC at the next instruction). -/
theorem test_svc : got (exec (.svc 9) (node (act [(9, 7)])))
    (fun t => (t.here.place, t.here.cause.code, t.here.value, t.here.pc)) = some (.parked, cSVC, 7, 0x100004) := by decide +kernel
/-- R389: tlbinv with REACH 3 takes BOUNDS, which stops a firmware core. -/
theorem test_tlbinv_reach : got (exec (.tlbinv 1 2) (firm (fwAct [(2, 0xC000)])))
    (fun t => (t.here.cause.code, t.here.value)) = some (cBOUNDS, 0xC000) := by decide +kernel
/-- The word at the next fetch runs first after reset (R62). -/
theorem test_first_word : got (step (State.reset.withFetchWord 32 0xCB085017)) (fun t => ((t.act 0).wreg 1)) =
    some 0x1017 := by decide +kernel
theorem test_first_halfword : got (step (State.reset.withFetchWord 16 0x3240)) (fun t => ((t.act 0).wreg 2)) = some 64 := by
  decide +kernel

/-- R426, R428: the reset values of a port's status and of the cap, as the host reads them. -/
theorem test_register_reads : (State.reset.registerRead 0 0x2048, State.reset.registerRead 0 0x1000) = (0x40F8, 0x1903E80) := by
  decide +kernel

/-! ### Witnesses: for each statement with hypotheses, states and operands that meet them together -/

/-- The words in memory from the address 0x100000 up, as the fetch of `node` reads them. -/
def words (at' : Nat) (ws : List (BitVec 32)) : List Host.Cell :=
  memWriteBytes [] at' ((ws.map (fun w => bytesOfHalves (word32 w))).flatten)

/-- `node` with words of code at an address, in memory and in the instruction cache of the compute core. -/
def coded (x : Act) (at' : Nat) (ws : List (BitVec 32)) : State :=
  let halves := ws.flatMap word32
  { node x with
    phys := words at' ws
    tiles := [(0, { tile0 with comp := { tile0.comp with
      icache := (List.range halves.length).map (fun i => (at' + 2 * i, halves.getD i 0)) } })] }

/-- R62: with its instruction outside the instruction cache, a slot does not issue; once fetched it does. -/
theorem test_fetch_first :
    (let s : State := { node (act [(7, 5)]) with phys := words 0x100000 [0xC939C001] }
     (s.chooseSlot 0 false, (s.choose (.fetchCode 0 false 0)).chooseSlot 0 false)) = (none, some (0, 5)) := by decide +kernel

/-- R84's worked example: with the block of three staggered pairs in progress, an addition to w7 after it runs ahead. -/
theorem test_run_ahead :
    got ((coded { act [(7, 5)] with
      block := some ⟨0xFFFF4, [0xEA001020, 0xEA085022], 3, 2, 2, 0⟩ } 0x100000 [0xC939C001]).issueCore 0 false)
      (fun t => (t.w 7, t.here.pc, t.here.block.isSome)) = some (6, 0x100004, true) := by decide +kernel
/-- R83, R84: it waits for a block whose third repetition reads w7 (b = 1 + 2 × 3). -/
theorem test_run_ahead_shared :
    got ((coded { act [(7, 5)] with
      block := some ⟨0xFFFF4, [0xEB004220], 3, 0, 0, 3⟩ } 0x100000 [0xC939C001]).issueCore 0 false) (fun t => t.w 7) =
    some 5 := by decide +kernel
/-- R84: the repetition buffer sends the first instruction of a block of one `vaddsat`, and then its second repetition. -/
theorem test_buffer :
    (fun s : State => (s.here.status.repdone, ((s.bufferStep 0 false).here.status.repdone)))
      { (coded { act [] with block := some ⟨0xFFFF4, [0xE808870E], 2, 0, 0, 0⟩, status := { Status.zero with rep := true } } 0x100000 []) with
        cur := 5 } = (0, 1) := by decide +kernel

/-- O1 to O3: the two-operand instructions and the compact forms need an issuing context alone. -/
theorem witness_ScalarBinaryResults : Issuing (node (act [(1, 1)])) (act [(1, 1)]) := issues _
theorem witness_DivisionResults : Issuing (node (act [])) (act []) := issues _
theorem witness_UnaryAndImmediateResults_compact : Issuing (firm (fwAct [])) (fwAct []) := issues_fw _
/-- O3: the last width code; the last amounts of both widths. -/
theorem witness_UnaryAndImmediateResults : Issuing (node (act [])) (act []) ∧ (2 : BitVec 5).toNat ≤ 2 ∧
    (true = false ∨ (31 : BitVec 6).toNat < 32) ∧ (false = false ∨ (63 : BitVec 6).toNat < 32) :=
  ⟨issues _, by decide, by decide, by decide⟩

/-- O4: branches taken and not taken, with a target below 2^56 and above it; cond 7 and 8. -/
theorem witness_ControlTransfers_branches :
    (.beq, fun x y => x == y) ∈ branchOps ∧
    ((act []).pc + (4 : BitVec 10).signExtend 64 * 2).toNat < 2 ^ 56 ∧
    2 ^ 56 ≤ ({ act [] with pc := 0xFFFFFFFFFFFFFC } : Act).pc.toNat + 4 ∧
    (act []).wreg (0 : BitVec 5) = 0 ∧ (act [(3, 1)]).wreg ((3 : BitVec 4).setWidth 5) ≠ 0 ∧
    Issuing (node (act [])) (act []) := ⟨List.mem_cons_self, by decide +kernel, by decide, by decide, by decide, issues _⟩
/-- O4: jt with a table of one entry at 0x100000: index 1 is out of bounds, index 0 leads to the lpad at 0x100008; an odd
displacement; a target that is no lpad. -/
theorem witness_ControlTransfers_jt :
    let t := coded (act []) 0x100000 [0x00010005, 0x00000008, 0xC4000005]
    let u := coded (act []) 0x100000 [0x00010005, 0x00000008, 0xC4000006]
    let o := coded (act []) 0x100000 [0x00010005, 0x00000009]
    Issuing t (act []) ∧ fetchWord t 0x100000 = .ok 0x00010005 ∧ fetchWord t 0x100004 = .ok 8 ∧
    fetchWord t 0x100008 = .ok 0xC4000005 ∧ fetchWord u 0x100008 = .ok 0xC4000006 ∧ fetchWord o 0x100004 = .ok 9 ∧
    (0xC4000005 : BitVec 32) = 0xC400#16 ++ (0x00010005 : BitVec 32).extractLsb' 0 16 ∧
    (0xC4000006 : BitVec 32) ≠ 0xC400#16 ++ (0x00010005 : BitVec 32).extractLsb' 0 16 ∧
    ((0x00010005 : BitVec 32).extractLsb' 16 16).toNat = 1 := by
  and_intros <;> first | decide +kernel | rfl | exact ⟨rfl, rfl, rfl⟩
/-- O4: calls at depth 7 and 8; returns at depth 0, and at depth 8 with a top equal to w31, even and odd, and not. -/
theorem witness_ControlTransfers_calls :
    let deep (d : BitVec 4) (r : Word) : Act := { act [(31, r)] with status := { Status.zero with cdepth := d } }
    let top (r : Word) : Act := { deep 8 r with shadow := (deep 8 r).shadow.set 7 r }
    Issuing (node (deep 7 8)) (deep 7 8) ∧ (deep 7 8).status.cdepth.toNat < 8 ∧ 8 ≤ (deep 8 8).status.cdepth.toNat ∧
    (deep 0 8).status.cdepth.toNat = 0 ∧ (deep 8 8).shadow[7] ≠ (deep 8 8).wreg 31 ∧
    (top 8).shadow[7] = (top 8).wreg 31 ∧ ((top 8).wreg 31).getLsbD 0 = false ∧
    (top 9).shadow[7] = (top 9).wreg 31 ∧ ((top 9).wreg 31).getLsbD 0 = true := by
  and_intros <;> first | decide +kernel | rfl | exact ⟨rfl, rfl, rfl⟩
/-- O5, O7: a context that has not stopped. -/
theorem witness_LandingPad : (node (act [])).act? (node (act [])).cur = some (act []) ∧ (act []).halting = false ∧
    (1 : BitVec 8) ≠ 0 := ⟨rfl, rfl, by decide⟩
theorem witness_UndefinedWordsTrap : (node (act [])).act? (node (act [])).cur = some (act []) ∧ (act []).halting = false :=
  ⟨rfl, rfl⟩
/-- O6: a normal activation outside and in a window, an urgent one, a firmware core, a replica; no earlier work. -/
theorem witness_ActivationInstructions :
    let win : Act := { act [] with status := { Status.zero with mw := true } }
    let urg : Act := { act [] with status := { Status.zero with urg := true } }
    Issuing (node (act [])) (act []) ∧ Issuing (node win) win ∧ Issuing (node urg) urg ∧
    Issuing (firm (fwAct [])) (fwAct []) ∧ (node win).pendingWork 5 = false ∧ (node urg).pendingWork 5 = false ∧
    (firm (fwAct [])).pendingWork Config.fwKey = false ∧ (act []).replica = false ∧ (act []).halting = false ∧
    (firm (fwAct [])).act? (firm (fwAct [])).cur = some (fwAct []) ∧ (fwAct []).halting = false ∧
    (onReplica (act [])).act? 5 = some (repl (act [])) ∧ (repl (act [])).halting = false ∧
    (onReplica (act [])).pendingWork 5 = false := by
  and_intros <;> first | decide +kernel | rfl | exact ⟨rfl, rfl, rfl⟩
/-- O6: a block of one legal word (`vaddsat`), of a matrix word (`mma`) on a staging core, and of an illegal word (`add`);
counts 0, 1, 65535 and 65536. -/
theorem witness_ActivationInstructions_rep :
    let s (n : Word) (w : BitVec 32) := coded (act [(1, n)]) 0x100004 [w]
    let stg : Act := { act [(1, 1)] with stg := true }
    (s 1 0xE808870E).bufferBusy = false ∧ Issuing (s 65535 0xE808870E) (act [(1, 65535)]) ∧
    (fetchWords 1 0x100004 (s 1 0xE808870E)).toOption.map (·.1) = some [0xE808870E] ∧
    ((decodePure 0xE808870E).map (fun op => (op.repeatable, op.isMatrix))) = some (true, false) ∧
    ((decodePure 0xF5088010).map (fun op => (op.repeatable, op.isMatrix))) = some (true, true) ∧
    ((decodePure 0xC8214D00).map PureOp.repeatable) = some false ∧
    Issuing (node stg) stg ∧ (node stg).bufferBusy = false ∧ ((act [(1, 65536)]).wreg 1).toNat = 2 ^ 16 := by
  and_intros <;> first | decide +kernel | rfl | exact ⟨rfl, rfl, rfl⟩
/-- O8: a queue that the core reads, one that it writes, and a firmware core; a replica while its original's VT is remapped. -/
theorem witness_WorkspaceMoves : Issuing (node (act [])) (act []) ∧ (act []).replica = false ∧
    (decide ((0 : Fin 8).val < 4) == !(act []).stg) = true ∧ (decide ((7 : Fin 8).val < 4) == !(act []).stg) = false ∧
    (7 : BitVec 5).toNat < 8 ∧ Issuing (firm (fwAct [])) (fwAct []) ∧ Issuing (onReplica (act [])) (repl (act [])) ∧
    (onReplica (act [])).mapGenOf (repl (act [])).dt = 1 ∧ (onReplica (act [])).mapGenOf (repl (act [])).tile = 0 := by
  and_intros <;> first | decide +kernel | rfl | exact ⟨rfl, rfl, rfl⟩
/-- O9: a firmware core. -/
theorem witness_RecipeInstructions_fw : (firm (fwAct [])).act? (firm (fwAct [])).cur = some (fwAct []) ∧
    (fwAct []).halting = false ∧ (fwAct []).fw = true := ⟨rfl, rfl, rfl⟩
/-- O9: a definition of one word that passes, of one that does not (`br`), and with a full table. -/
theorem witness_RecipeInstructions_def :
    let s := coded (act []) 0x100004 [0xC8814D00]
    let full : State := { s with tiles := [(0, { tile0 with comp := { tile0.comp with
      recipes := List.replicate 16 ⟨9, 0, []⟩ } })] }
    s.act? s.cur = some (act []) ∧ (act []).halting = false ∧ (fetchWords 1 0x100004 s).toOption.map (·.1) = some [0xC8814D00] ∧
    recipeReason 0xC8814D00 = none ∧ (recipeReason 0xC0000001).isSome = true ∧
    ((s.core 0 false).recipes.any (fun r => r.owner == s.cur && r.num == 0)) = false ∧ s.hereTags = [] ∧
    16 ≤ (full.core 0 false).recipes.length ∧ (fetchWords 1 0x100004 full).toOption.map (·.1) = some [0xC8814D00] := by
  and_intros <;> decide +kernel
/-- O9: `w16 := w5 + w6` as recipe 0, tagged and not; a recipe for another register. -/
theorem witness_RecipeInstructions_tag :
    let rec' (w : BitVec 32) (tags : List Tag) : State := { node (act []) with tiles := [(0, { tile0 with comp := { tile0.comp with
      recipes := [⟨5, 0, [w]⟩], tags := tags } })] }
    let s := rec' 0xC8814D00 []
    s.act? s.cur = some (act []) ∧ (s.core 0 false).recipes.find? (fun r => r.owner == s.cur && r.num == 0) =
      some ⟨5, 0, [0xC8814D00]⟩ ∧
    (decodePure 0xC8814D00).map PureOp.writes = some [16] ∧ (decodePure 0xC8814D00).map PureOp.reads = some [5, 6] ∧
    (decodePure 0xC8894D00).map PureOp.writes = some [17] ∧ s.pinned 16 = [] ∧
    chainOk ((s.core 0 false).recipe s.cur) [(16, 0)] = true ∧ (s.core 0 false).tags.length < 32 ∧
    (s.core 0 false).recipes.find? (fun r => r.owner == s.cur && r.num == 1) = none ∧ s.tagOf 16 = none ∧
    ((rec' 0xC8814D00 [⟨5, 16, 0, true⟩]).tagOf 16).isSome = true := by
  and_intros <;> decide +kernel
/-- O10: w20 tagged with the dropped recipe `addi w20, w3, 5`; b is another register and the tagged one. -/
theorem witness_RecipeReplay :
    let s : State := { node (act [(3, 10)]) with tiles := [(0, { tile0 with comp := { tile0.comp with
      recipes := [⟨5, 0, [0xC9A0C005]⟩], tags := [⟨5, 20, 0, true⟩] } })] }
    s.act? s.cur = some (act [(3, 10)]) ∧ (act [(3, 10)]).halting = false ∧ s.hereTags = [⟨s.cur, 20, 0, true⟩] ∧
    decodePure 0xC9A0C005 = some (.imm .addi 20 3 5) ∧ (s.core 0 false).recipe s.cur 0 = [0xC9A0C005] ∧
    (∃ e, readReg 2 20 { s with tiles := [(0, { tile0 with comp := { tile0.comp with
      recipes := [⟨5, 0, [0xD4A08C00]⟩], tags := [⟨5, 20, 0, true⟩] } })], acts := [(5, act [(2, 1)])] } = .error e) :=
  ⟨rfl, rfl, rfl, rfl, rfl, _, rfl⟩
/-- O11: loads of the last readable bytes of LM and of a firmware memory, of the node table; stores of the first and the last
bytes of the general region; a store into the workspace. -/
theorem witness_LocalAccesses :
    readable (node (act [(2, 0x1FFFF8)])) (act [(2, 0x1FFFF8)]) (effective (act [(2, 0x1FFFF8)]) 2 3 0) 8 ∧
    readable (node (act [(2, 0x3FFF8)])) (act [(2, 0x3FFF8)]) (effective (act [(2, 0x3FFF8)]) 2 3 0) 8 ∧
    readable (firm (fwAct [(2, 0xFFFFF)])) (fwAct [(2, 0xFFFFF)]) (effective (fwAct [(2, 0xFFFFF)]) 2 0 0) 1 ∧
    storable (node (act [(2, 0xA1000)])) (act [(2, 0xA1000)]) (effective (act [(2, 0xA1000)]) 2 0 0) 1 ∧
    storable (node (act [(2, 0x1FFFF0)])) (act [(2, 0x1FFFF0)]) (effective (act [(2, 0x1FFFF0)]) 2 3 1) 8 ∧
    (node (act [])).memoryWf = true ∧ sole (node (act [])) (act []) := by
  refine ⟨?_, ?_, ?_, ?_, ?_, by decide, ?_⟩
  all_goals first | (unfold readable; decide +kernel) | (unfold storable; decide +kernel) | skip
  intro e he _
  simp only [node, List.mem_singleton] at he
  rw [he]
/-- `act` with w2 and the device's choice to delay its next access. -/
def lazyAct (r : Word) : Act := { act [(2, r)] with lazy := true }
/-- O11: a load of the last four of eight bytes of own LM that the device has read early, and one of eight bytes that are not all
among them. -/
theorem witness_LocalAccesses_preread :
    let x : Act := { act [(2, 0xAFFF8)] with preread := some (0xAFFF0, 0x1122334455667788) }
    readable (node x) x 0xAFFF4 4 ∧ plainRead x 0xAFFF4 4 7 = 0x11223344 ∧
    readable (node x) x (effective x 2 3 0) 8 ∧ plainRead x (effective x 2 3 0) 8 7 = 7 := by
  refine ⟨?_, by decide +kernel, ?_, by decide +kernel⟩ <;> (unfold readable; decide +kernel)
/-- R170, log 102: a load of own LM that follows an early read gives what was read. -/
theorem test_load_read_early :
    let x : Act := { act [(2, 0xAFFF0)] with preread := some (0xAFFF0, 0x1122334455667788) }
    got (exec (.ldL 5 2 0 3 0) (node x)) (fun t => t.w 5) = some 0x1122334455667788 := by
  decide +kernel
/-- O11, O16: accesses that the device delays, up to the first byte of the workspace and from the first past it, and of two
elements; one of the workspace, which it does not. -/
theorem witness_LocalAccesses_delayed :
    delayedAt (lazyAct 0xAFFF8) [effective (lazyAct 0xAFFF8) 2 3 0] 8 ∧
    readable (node (lazyAct 0xAFFF8)) (lazyAct 0xAFFF8) 0xAFFF8 8 ∧ storable (node (lazyAct 0xAFFF8)) (lazyAct 0xAFFF8) 0xAFFF8 8 ∧
    delayedAt (lazyAct 0xB1400) [0xB1400] 8 ∧ storable (node (lazyAct 0xB1400)) (lazyAct 0xB1400) 0xB1400 8 ∧
    ¬ delayedAt (lazyAct 0xB11F8) [0xB11F8] 8 ∧ ¬ delayedAt (act []) [0xAFFF8] 8 ∧
    delayedAt (lazyAct 0xA1000) ((elemAddrs 4 3 (elemAddr 0 4 0xA1000 0 0)).map (·.2)) 4 ∧
    (∀ f ∈ [] ++ [(1 : BitVec 5)], queueOf f = none) := by
  refine ⟨⟨rfl, rfl, fun ea h => .inl (by rw [List.mem_singleton.mp h]; decide)⟩, ?_, ?_,
    ⟨rfl, rfl, fun ea h => .inr (by rw [List.mem_singleton.mp h]; decide)⟩, ?_,
    fun h => absurd (h.2.2 _ List.mem_cons_self) (by decide), fun h => absurd h.1 (by decide),
    ⟨rfl, rfl, fun ea h => .inl ?_⟩, by decide⟩
  · unfold readable; decide +kernel
  · unfold storable; decide +kernel
  · unfold storable; decide +kernel
  · rw [show (elemAddrs 4 3 (elemAddr 0 4 0xA1000 0 0)).map (·.2) = [0xA1000, 0xA1004] by decide +kernel] at h
    simp only [List.mem_cons, List.not_mem_nil, or_false] at h
    rcases h with rfl | rfl <;> decide
theorem witness_LocalAccesses_workspace :
    let x := act [(2, 0xB00F8)]
    (effective x 2 3 0).toNat = x.wp + 8 * (31 : BitVec 5).toNat ∧ 0xA1000 ≤ x.wp ∧ x.wp + 0x1200 ≤ 0x200000 ∧ x.area ≠ 0 ∧
    (node x).leaseTableAt x.tile 0xB00F8 = false ∧ ∀ i < 8, (node x).wsAt x.tile (0xB00F8 + i) = some ((node x).cur, x) := by
  refine ⟨by decide, by decide, by decide, by decide, by decide +kernel, ?_⟩
  decide +kernel
/-- A global access of `node` at an address of page0's 2 MiB. -/
theorem global_ok (x : Act) (ea : Word) (n : Nat) (r w : Bool) (hx : x.fw = false) (he : ea.toNat % n = 0)
    (h : ea.toNat + n ≤ 2 ^ 56) (hr : (node x).reaches ea.toNat = true) (hl : (node x).lookup x ea.toNat = some page0)
    (hp : (node x).homeOf page0 ((node x).dieOf x.tile) ea.toNat = ea.toNat) : globalOk (node x) x ea n r w ea.toNat 2 := by
  refine ⟨he, hr, ?_⟩
  rw [hx]
  exact ⟨h, page0, hl, fun _ => rfl, fun _ => rfl, hp.symm, rfl⟩

/-- O12: window accesses at the ends of the readable and writable ranges, a firmware core's to the control page; global
ones; a firmware core's global access. -/
theorem witness_RemoteRequests :
    let w (ea : Word) (n : Nat) (wr : Bool) : Prop := windowOk (node (act [(2, ea)])) (act [(2, ea)]) ea n wr
    w 0x43FFF8 8 false ∧ w 0x6002F8 8 false ∧ w 0x4A1000 1 true ∧ w 0x5FFFF8 8 true ∧
    windowOk (firm (fwAct [])) (fwAct []) 0x6017F8 8 true ∧
    globalOk (node (act [])) (act []) 0x1FFFF8 8 true false 0x1FFFF8 2 ∧
    globalOk (node (act [])) (act []) 0 4 false true 0 2 ∧
    globalOk (firm (fwAct [])) (fwAct []) 0x40 8 true true 0x40 0 := by
  refine ⟨?_, ?_, ?_, ?_, ?_, ?_, ?_, ?_⟩
  · unfold windowOk; decide +kernel
  · unfold windowOk; decide +kernel
  · unfold windowOk; decide +kernel
  · unfold windowOk; decide +kernel
  · unfold windowOk; decide +kernel
  · exact global_ok _ _ _ _ _ rfl (by decide) (by decide) (by decide +kernel) (by decide +kernel) (by decide +kernel)
  · exact global_ok _ _ _ _ _ rfl (by decide) (by decide) (by decide +kernel) (by decide +kernel) (by decide +kernel)
  · refine ⟨by decide, by decide +kernel, ?_⟩
    show _ ∧ _ ∧ _
    exact ⟨by decide, rfl, rfl⟩
/-- O12: a multi-write to a page of two replicas. -/
theorem witness_RemoteRequests_multi :
    let e : Tlb := { page0 with home := 2, replicas := [0, 1] }
    let s : State := { node (act []) with tiles := [(0, { tile0 with comp := { tile0.comp with tlb := [e] } })] }
    Issuing s (act []) ∧ s.lookup (act []) 0 = some e ∧ e.r = true ∧ e.w = true ∧ e.replicas ≠ [] ∧
    s.reaches (s.homeOf e (s.dieOf 0) 0) = true := by
  and_intros <;> first | decide +kernel | rfl | exact ⟨rfl, rfl, rfl⟩
/-- O13: addresses at which one check fails and the earlier ones pass: own LM; the boundary values are the first address of
each range. -/
theorem witness_AccessFaults_local :
    (0xA1001 : Word).toNat % 4 ≠ 0 ∧ (0x1FFFFC : Word).toNat % 4 = 0 ∧ 0x200000 < (0x200000 : Word).toNat + 4 ∧
    (0x40000 ≤ (0x40000 : Word).toNat ∧ (0x40000 : Word).toNat < 0xA0000) ∧ (0xA0FFC : Word).toNat < 0xA1000 ∧
    Issuing (node (act [])) (act []) ∧ (act []).fw = false ∧ (act []).replica = false := by
  and_intros <;> first | decide +kernel | rfl | exact ⟨rfl, rfl, rfl⟩
/-- O13: the workspace of another activation, its header, the own header, m0 and a lease table. -/
theorem witness_AccessFaults_workspace :
    let s : State := { node (act []) with acts := [(5, act []), (6, { act [] with wp := 0xC0000, index := 6 })] }
    (∀ ea ∈ [0xC0000, 0xC117C, 0xC1180, 0xC11F4, 0xC11F8], (s.wsAt 0 ea).map (·.1) = some 6 ∧
      s.leaseTableAt 0 ea = false) ∧
    (∀ ea ∈ [0xB1100, 0xB1104, 0xB1180], (s.wsAt 0 ea).map (·.1) = some s.cur ∧ s.leaseTableAt 0 ea = false) ∧
    s.leaseTableAt 0 0xB1200 = true ∧ Issuing s (act []) :=
  ⟨by decide +kernel, by decide +kernel, by decide +kernel, ⟨rfl, rfl, rfl⟩⟩
/-- O13: window and global accesses: past 2^37, a VT that is not configured, the control page, the sync page, the mirror area, the
node table for a store; past 2^56, no translation, no right, no memory behind the address. -/
theorem witness_AccessFaults_remote :
    let s := node (act [])
    let ro : Tlb := { page0 with r := false, w := false, place := 1 }
    let s2 : State := { s with tiles := [(0, { tile0 with comp := { tile0.comp with tlb := [ro] } })] }
    let far : Tlb := { page0 with pa := 0x2000000000000 }
    let s3 : State := { s with tiles := [(0, { tile0 with comp := { tile0.comp with tlb := [far] } })] }
    s.configured (0x19000000 / 2 ^ 22) = false ∧ s.configured 99 = true ∧ 0x200300 < 0x200300 + 1 ∧
    s.lookup (act []) 0x200000 = none ∧ s2.lookup (act []) 0 = some ro ∧ ro.r = false ∧
    s3.lookup (act []) 0 = some far ∧ s3.reaches (s3.homeOf far (s3.dieOf 0) 0) = false ∧ Issuing s3 (act []) := by
  and_intros <;> first | decide +kernel | rfl | exact ⟨rfl, rfl, rfl⟩
/-- O14: a word of the general region outside the workspace. -/
theorem witness_LocalAtomics : storable (node (act [(2, 0xA1000)])) (act [(2, 0xA1000)]) 0xA1000 8 ∧
    (∀ i < 8, (node (act [(2, 0xA1000)])).poisoned (.lm 0 0xA1000) i = false) ∧ (act []).dt = (act []).tile ∧
    (node (act [])).memoryWf = true := by
  refine ⟨by unfold storable; decide +kernel, by decide +kernel, rfl, by decide⟩
/-- O15: the same window word of another VT and of the own workspace; a page of node placement and one of host memory under
placement 0; a deferred add to each. -/
theorem witness_RemoteAtomics :
    let e : Tlb := { page0 with home := 1, place := 0, pa := 2 ^ 51 }
    let h : State := { node (act []) with
      tiles := [(0, { tile0 with comp := { tile0.comp with tlb := [e] } })]
      panels := [(0, { (node (act [])).panel 0 with hostRanges := [(0, [(0, 0x200000)])] })] }
    windowOk (node (act [])) (act []) 0x4A1000 8 true ∧ windowOk (node (act [])) (act []) 0xB0000 8 true ∧
    (node (act [])).lookup (act []) 8 = some page0 ∧
    (page0.home ≠ 1 ∨ page0.place ≠ 2 ∨ (0 : BitVec 4) ∈ [(0 : BitVec 4), 8, 9]) ∧
    (node (act [])).reaches ((node (act [])).homeOf page0 ((node (act [])).dieOf 0) 8) = true ∧
    Issuing h (act []) ∧ h.lookup (act []) 8 = some e ∧ e.home = 1 ∧ e.place ≠ 2 ∧
    h.homeOf e (h.dieOf 0) 8 = 2 ^ 51 + 8 ∧ h.reaches (2 ^ 51 + 8) = true ∧
    globalOk (node (act [])) (act []) 8 8 true true 8 2 ∧ globalOk h (act []) 8 8 true true (2 ^ 51 + 8) 2 := by
  refine ⟨by unfold windowOk; decide +kernel, by unfold windowOk; decide +kernel, by decide +kernel, by decide, by decide +kernel,
    ⟨rfl, rfl, rfl⟩, by decide +kernel, rfl, by decide, by decide +kernel, by decide +kernel,
    global_ok _ _ _ _ _ rfl (by decide) (by decide) (by decide +kernel) (by decide +kernel) (by decide +kernel), ?_⟩
  exact ⟨by decide, by decide +kernel, by decide, { page0 with home := 1, place := 0, pa := 2 ^ 51 }, by decide +kernel,
    fun _ => rfl, fun _ => rfl, by decide +kernel, rfl⟩
/-- O16: contiguous, strided and indexed accesses of two active elements; a queue destination. -/
theorem witness_VectorMemory :
    let x : Act := { act [(2, 0xA1000)] with m := Act.zero.m.set! 1 3 }
    let s := node x
    VectorReady s x [] [1] ∧ VectorReady s x [3] [1] ∧ VectorReady s x [] [20] ∧ s.readFields [] = ([], s) ∧
    s.readFields [3] = ([0], s) ∧ (∀ k < 64, isActive 32 (x.mreg 1) k = true →
      (elemAddr 0 4 (x.wreg 2) 0 0 k).toNat % 4 = 0 ∧ 0xA0000 ≤ (elemAddr 0 4 (x.wreg 2) 0 0 k).toNat ∧
        (elemAddr 0 4 (x.wreg 2) 0 0 k).toNat + 4 ≤ 0x200000) ∧
    (checkElems s .g .load (elemAddrs 4 (x.mreg 1) (elemAddr 0 4 (x.wreg 2) 0 0)) 4).toOption.isSome = true ∧
    (checkElems s .l .store (elemAddrs 4 (x.mreg 1) (elemAddr 0 4 (x.wreg 2) 0 0)) 4).toOption.isSome = true := by
  and_intros <;> first | decide +kernel | rfl | exact ⟨rfl, rfl, rfl⟩
/-- O17: a free lease entry and a recorded range; a live lease; a prefetch with and without a translation. -/
theorem witness_LeasesAndPrefetch :
    let r : LeaseRange := ⟨0, 0x1000, true⟩
    let x : Act := { act [] with leases := [r], leasePtr := 0xB1200 }
    let live : State := { node x with tiles := [(0, { tile0 with lm := words 0xB120C [0x00008000] })] }
    (∀ j < 0, (node x).leaseLive x j = true) ∧ (node x).leaseLive x 0 = false ∧ live.leaseLive x 0 = true ∧
    (leasePages true 16385 0 0x1000 (node x)).toOption.isSome = true ∧ r ∈ x.leases ∧ Issuing (node x) x ∧
    (match leasePages true 16385 0x1FFFFF 0x200001 (node x) with | .error t => t.cause.code == cTMISS | .ok _ => false) = true ∧
    (match leasePages true 16385 0 1 { node x with tiles := [(0, { tile0 with comp := { tile0.comp with
      tlb := [{ page0 with w := false }] } })] } with | .error t => t.cause.code == cPERM | .ok _ => false) = true ∧
    parks cTMISS = true ∧ parks cPERM = false ∧
    (node (act [])).lookup (act []) 0 = some page0 ∧ page0.home ≠ 1 ∧
    (node (act [])).poisoned (.phys 0) 0 = false ∧
    (match checkAccess (node (act [])) .g .load 0x200000 1 noExtra with | .error _ => true | .ok _ => false) = true := by
  and_intros <;> first | decide +kernel | rfl | exact ⟨rfl, rfl, rfl⟩
/-- `node` with another tile 0. -/
def onTile (x : Act) (t : Tile) : State := { node x with tiles := [(0, t)] }

/-- O18: a rod that is satisfied and one that is not; a recorded barrier, passed and not; the last index and the first past
it. -/
theorem witness_RodInstructions :
    let x : Act := { act [(1, 95), (2, 96)] with rodRec := some (4, 0) }
    let s := onTile x { tile0 with rods := [(3, ⟨0, 1, 0, false, 0⟩)] }
    Issuing s x ∧ sole s x ∧ (x.wreg 1).toNat < 96 ∧ 96 ≤ (x.wreg 2).toNat ∧
    ((s.tile 0).rod 5).thr.toInt ≤ ((s.tile 0).rod 5).count.toInt ∧
    ¬ ((s.tile 0).rod 3).thr.toInt ≤ ((s.tile 0).rod 3).count.toInt ∧
    x.rodRec = some (4, 0) ∧ ((s.tile 0).rod 4).bgen = 0 ∧ ((s.tile 0).rod 4).bgen ≠ 1 ∧ (act []).rodRec = none := by
  refine ⟨⟨rfl, rfl, rfl⟩, ?_, by decide, by decide, by decide +kernel, by decide +kernel, rfl, by decide +kernel,
    by decide +kernel, rfl⟩
  intro e he _
  simp only [onTile, node, List.mem_singleton] at he
  rw [he]
/-- O18: a remote rod add of a firmware core. -/
theorem witness_RodInstructions_fw : Issuing (firm (fwAct [(3, 0x200018)])) (fwAct [(3, 0x200018)]) ∧
    (fwAct [(3, 0x200018)]).replica = false ∧ ((fwAct [(3, 0x200018)]).wreg 3).toNat < 2 ^ 37 ∧
    (firm (fwAct [])).names (firm (fwAct [])).panelHere 0 = true := ⟨issues_fw _, rfl, by decide, by decide +kernel⟩
/-- O18: lists that hold in slot 0, in no slot but the inbox, in queue 0, in none; refused lists; another activation that waits
for rod 3. -/
theorem witness_RodInstructions_waits :
    let x (src : Word) : Act := { act [] with e := Act.zero.e.set! 1 src, ident := (Act.zero.ident.set! 12 0xA1000).set! 13 64 }
    let s (src : Word) := onTile (x src)
      { tile0 with rods := [(3, ⟨0, 1, 0, false, 0⟩)], lm := [(0xA1000, 1)], queues := tile0.queues.set 0 [0] }
    let b : Act := { act [] with index := 6, wait := .rod 3 }
    let m : Act := { act [] with index := 6, wait := .multi 3 0x83 }
    (checkSources (x 0x80) 0x80).toOption.isSome = true ∧ (checkSources (x 0x10000000083) 0x10000000083).toOption.isSome = true ∧
    (checkSources (x 0x100000083) 0x100000083).toOption.isSome = true ∧ (s 0x80).lmRead 0 0xA1000 8 ≠ 0 ∧
    0 < ((s 0x80).tile 0).queues[(0 : Fin 8)].length - ((s 0x80).tile 0).fresh[(0 : Fin 8)] ∧
    (2 ^ 41 ≤ (0x20000000000 : Word).toNat) ∧ Issuing (s 0x80) (x 0x80) ∧
    (let t : State := { s 0x80 with acts := [(5, act [(1, 1)]), (6, b)] }
     t.act? 6 = some b ∧ 6 ≠ t.cur ∧ (t.acts.map (·.1)).Pairwise (· < ·) ∧
     (raised ((t.tile 0).rod 3) 1).thr.toInt ≤ (raised ((t.tile 0).rod 3) 1).count.toInt) ∧
    (0x83 : Word).getLsbD 7 = true ∧ ((0x83 : Word).extractLsb' 0 7).toNat = 3 ∧ m.wait = .multi 3 0x83 := by
  and_intros <;> first | decide +kernel | rfl | exact ⟨rfl, rfl, rfl⟩
/-- O19: group 0 of the activation's address-space id, group 1 of none, group 16; members with no, one and all arrivals. -/
theorem witness_BeamInstructions :
    let x : Act := { act [(1, 1), (2, 255), (3, 16)] with beamRec := some (0, 0) }
    let s (l : Leaf) := onTile x { tile0 with leaves := [(0, l)] }
    groupOk (s Leaf.zero) x (x.wreg 0) ∧ ¬ groupOk (s Leaf.zero) x (x.wreg 1) ∧ 16 ≤ (x.wreg 3).toNat ∧
    x.wreg 2 ≠ 0 ∧ (x.wreg 2).toNat ≤ 255 ∧ ((s Leaf.zero).tile 0).leaf 0 = Leaf.zero ∧ Leaf.zero.member = false ∧
    ((s ⟨true, 2, 1, false, false, 1⟩).tile 0).leaf 0 = ⟨true, 2, 1, false, false, 1⟩ ∧
    Issuing (s ⟨true, 2, 2, true, false, 0⟩) x ∧ x.beamRec = some (0, 0) := by
  refine ⟨by unfold groupOk; decide +kernel, by unfold groupOk; decide +kernel, by decide, by decide, by decide, rfl, rfl, rfl,
    ⟨rfl, rfl, rfl⟩, rfl⟩
/-- O20: edges 0 and 2 of a node of two, the first with a payload; a reference of the own graph and of another; a rod address and
its neighbours. -/
theorem witness_NodeInstructions :
    let x := act [(1, 0x80000000006), (2, 0x100000000006), (3, 0x200018), (4, 0x20001C), (5, 0x2002F8), (6, 0x200300)]
    let s := onTile x { tile0 with nodes := [(5, { node5 with succ := 0xA2000 })], lm := [(0xA2007, 0x20)] }
    Issuing s x ∧ (0 : Word).toNat < x.nsucc ∧ x.nsucc ≤ (2 : Word).toNat ∧
    (s.succEntry 0 (s.node 0 5) 0).getLsbD 61 = true ∧ (s.succEntry 0 (s.node 0 5) 1).getLsbD 61 = false ∧
    VectorReady s x [4] [] ∧ refOk s x (x.wreg 1) true ∧ ¬ refOk s x (x.wreg 2) true ∧ refOk s x (x.wreg 2) false ∧
    readable s x 0xA1000 64 ∧
    ((x.wreg 3).toNat < 2 ^ 37 ∧ 0x200000 ≤ (x.wreg 3).toNat ∧ (x.wreg 5).toNat ≤ 0x2002FF) ∧ (x.wreg 4).toNat % 8 ≠ 0 ∧
    ¬ (x.wreg 6).toNat ≤ 0x2002FF ∧ eventSource s [3, 0, 0, 0] = .ok (.inl 2) ∧
    eventSource s [1, 7, 0, 9] = .ok (.inr (.perf 7 9)) := by
  refine ⟨⟨rfl, rfl, rfl⟩, by decide, by decide, by decide +kernel, by decide +kernel, ⟨rfl, rfl, by decide +kernel⟩, ?_, ?_, ?_,
    ?_, by decide, by decide, by decide, rfl, rfl⟩
  · unfold refOk; decide +kernel
  · unfold refOk; decide +kernel
  · unfold refOk; decide +kernel
  · unfold readable; decide +kernel
/-- O21, O22, O24 to O27: registers and queues as sources; a queue with an entry, and room for a result. -/
theorem witness_VectorIntegerResults :
    let s := onTile (act []) { tile0 with queues := tile0.queues.set 0 [7] }
    VectorReady s (act []) (sources false 2 3) [1] ∧ VectorReady s (act []) (sources true 16 3) [20] ∧
    s.readFields (sources false 2 3) = ([0, 0], s) ∧ (s.readFields [16]).1 = [7] ∧ Issuing s (act []) := by
  and_intros <;> first | decide +kernel | rfl | exact ⟨rfl, rfl, rfl⟩
/-- O22: a signalling NaN in lane 0 under TRAPNV raises NV first there; +0 does not. -/
theorem witness_VectorFloatResults :
    let x : Act := { act [] with trapnv := true, v := Act.zero.v.set! 2 0x7F800001 }
    let s := node x
    VectorReady s x (sources false 2 3) [1] ∧ s.readFields (sources false 2 3) = ([0x7F800001, 0], s) ∧
    (fp32.add 0x7F800001 0).2.getLsbD 0 = true ∧ (fp32.add 0 0).2.getLsbD 0 = false ∧
    isActive 32 (x.mreg 0) 0 = true ∧ Issuing s x ∧ VectorReady s x [2] [1] := by
  and_intros <;> first | decide +kernel | rfl | exact ⟨rfl, rfl, rfl⟩
/-- O22, O26, O27: NaNs of both kinds, infinities, zeros of both signs, 1.0 and the smallest number, as FP32. -/
theorem witness_VectorFloatResults_values :
    fp32 ∈ [bf16, fp16, fp32, fp64] ∧ (0xFFFFFFFF : Nat) < 2 ^ fp32.bits ∧ fp32.decode 0x7FC00000 = .nan false ∧
    fp32.decode 0x7F800001 = .nan true ∧ fp32.decode 0x7F800000 = .inf false ∧ fp32.decode 0xFF800000 = .inf true ∧
    fp32.decode 0x80000000 = .fin true 0 (-149) ∧ fp32.decode 0x3F800000 = .fin false (2 ^ 23) (-23) ∧
    fp32.decode 1 = .fin false 1 (-149) ∧ ordersBelow (fp32.decode 0x80000000) (fp32.decode 0) ∧
    numLt (fp32.decode 0xFF800000) (fp32.decode 0) ∧ numLt (fp32.decode 1) (fp32.decode 0x3F800000) ∧
    (23 + -23 : Int) = 2 * 0 + 0 ∧ (0 + -149 : Int) = 2 * (-75) + 1 ∧ takesUpper .rne false 1 1 2 ∧
      ¬ takesUpper .rne false 2 1 2 := by
  refine ⟨by decide, by decide +kernel, by decide +kernel, by decide +kernel, by decide +kernel, by decide +kernel, by decide +kernel,
    by decide +kernel, by decide +kernel, .inr (by decide +kernel), ?_, ?_, by decide, by decide, ⟨by decide, .inr (by decide)⟩,
    fun h => absurd h.2 (by decide)⟩
  · rw [show fp32.decode 0xFF800000 = .inf true by decide +kernel, show fp32.decode 0 = .fin false 0 (-149) by decide +kernel]
    rfl
  · rw [show fp32.decode 1 = .fin false 1 (-149) by decide +kernel,
      show fp32.decode 0x3F800000 = .fin false (2 ^ 23) (-23) by decide +kernel]
    show signedSig false (1 * 2 ^ (-149 - min (-149) (-23) : Int).toNat) <
      signedSig false (2 ^ 23 * 2 ^ (-23 - min (-149) (-23) : Int).toNat)
    decide +kernel
/-- O23: 1/3 rounds in every format without overflow. -/
theorem witness_RoundingIsFaithful :
    ∀ f ∈ [fp64, fp32, fp16, bf16, e4m3, e5m2, e2m1], (f.round .rne false false 1 3 0).2.getLsbD 2 = false := by decide +kernel
/-- O24: indices 63 and 64 of 32-bit elements. -/
theorem witness_MoveAndPermuteResults :
    let x := act [(3, 63), (4, 64)]
    VectorReady (node x) x [5] [] ∧ (node x).readFields [5] = ([0], node x) ∧ (x.wreg 3).toNat < 2048 / 32 ∧
    2048 / 32 ≤ (x.wreg 4).toNat ∧ checkQueues x [5] [] = .ok () ∧ VectorReady (node x) x [1, 2] [3] := by
  and_intros <;> first | decide +kernel | rfl | exact ⟨rfl, rfl, rfl⟩
/-- O25: a vector whose first non-zero byte is byte 2; a sum whose first step raises NV; no active element. -/
theorem witness_Reductions :
    let x : Act := { act [] with trapnv := true, v := (Act.zero.v.set! 2 0x10000).set! 3 0x7F800001, m := Act.zero.m.set! 1 0 }
    VectorReady (node x) x [2] [] ∧ (node x).readFields [2] = ([0x10000], node x) ∧
    ((element 8 0x10000 2) ≠ 0 ∧ element 8 0x10000 1 = 0) ∧
    ((fpReduce .fadd 2 0x7F800001 (x.mreg 0)).2.head?.map (fun e => e.2.getLsbD 0)) = some true ∧
    (∀ e ∈ (fpReduce .fadd 2 0 (x.mreg 0)).2, e.2.getLsbD 0 = false) ∧
    (∀ k < 64, isActive 32 (x.mreg 1) k = false) ∧ Issuing (node x) x := by
  and_intros <;> first | decide +kernel | rfl | exact ⟨rfl, rfl, rfl⟩
/-- O26: a compare with a NaN in lane 0 under TRAPNV. -/
theorem witness_ComparesAndMasks :
    let x : Act := { act [] with trapnv := true, v := Act.zero.v.set! 2 0x7FC00000 }
    VectorReady (node x) x [2, 3] [] ∧ (node x).readFields [2, 3] = ([0x7FC00000, 0], node x) ∧
    (fp32.compare 9 0x7FC00000 0).2.getLsbD 0 = true ∧ (fp32.compare 8 0 0).2.getLsbD 0 = false ∧ Issuing (node x) x := by
  and_intros <;> first | decide +kernel | rfl | exact ⟨rfl, rfl, rfl⟩
/-- O27: narrowing and widening formats, a signalling source under TRAPNV, the first and the last target. -/
theorem witness_Conversions :
    let x : Act := { act [] with trapnv := true, v := Act.zero.v.set! 2 0x7F800001 }
    VectorReady (node x) x [2] [1] ∧ (node x).readFields [2] = ([0x7F800001], node x) ∧
    (convert 0x7F800001 (cvtFmt 1) (cvtFmt 3) .rne false).2.getLsbD 0 = true ∧
    (convert 0 (cvtFmt 1) (cvtFmt 3) .rne false).2.getLsbD 0 = false ∧
    (cvtFmt 3).bits < (cvtFmt 1).bits ∧ (cvtFmt 1).bits ≤ (cvtFmt 0).bits ∧ (5 : BitVec 3).toNat < 6 ∧
    (quantBlock 0 false (0x7F800001 :: List.replicate 31 0) (List.replicate 32 .rne)).2.2.2 = true ∧
    (quantBlock 0 false (List.replicate 32 0) (List.replicate 32 .rne)).2.2.2 = false := by
  and_intros <;> first | decide +kernel | rfl | exact ⟨rfl, rfl, rfl⟩
/-- O28: the claim free, held, held by another with and without a waiter; rows 63 and 64; a staging core, a firmware core. -/
theorem witness_MatrixResults :
    let x := act [(1, 63), (2, 64)]
    let s (c : Option Nat) (ws : List Nat) := onTile x { tile0 with claim := c, waiters := ws }
    let stg : Act := { x with stg := true }
    Issuing (s none []) x ∧ ((s none []).tile 0).claim = none ∧ ((s (some 5) []).tile 0).claim = some (s (some 5) []).cur ∧
    ((s (some 6) []).tile 0).claim = some 6 ∧ 6 ≠ (s (some 6) []).cur ∧ ((s (some 5) [6]).tile 0).waiters = [6] ∧
    (x.wreg 1).toNat = (63 : Fin 64).val ∧ 64 ≤ (x.wreg 2).toNat ∧ VectorReady (s (some 5) []) x [] [1] ∧
    VectorReady (s (some 5) []) x [3] [] ∧ (s (some 5) []).readFields [3] = ([0], s (some 5) []) ∧
    Issuing (node stg) stg ∧ Issuing (firm (fwAct [])) (fwAct []) := by
  and_intros <;> first | decide +kernel | rfl | exact ⟨rfl, rfl, rfl⟩
/-- O29: an `mma.bf16` of the claim's holder, opening a group; with a double injected mismatch. -/
theorem witness_MatrixMultiply :
    let s (x : Act) := onTile x { tile0 with claim := some 5 }
    let x := act []
    let inj : Act := { act [] with mxinj := 2 }
    holdsClaim (s x) x ∧ Issuing (s x) x ∧ checkQueues x [2] [] = .ok () ∧ VectorReady (s x) x [2] [] ∧
    (s x).readFields [2] = ([0], s x) ∧ skipPointers (s x) 2 true false = .ok (0, 0) ∧ (0 : Word).toNat + 2 ≤ 65536 ∧
    ((s x).tile 0).poisonedRows 0 = none ∧ (s x).upset = 0 ∧ x.mxinj = 0 ∧ inj.mxinj = 2 ∧ holdsClaim (s inj) inj := by
  and_intros <;> first | decide +kernel | rfl | exact ⟨rfl, rfl, rfl⟩
/-- O30: an `mma` that continues a group, one that opens it with a skip entry at the end of LM, one with a block format that
opens; rows 65534 and 65535; a poisoned slice; two mismatches. -/
theorem witness_MatrixCompletion :
    let x : Act := { act [] with e := (Act.zero.e.set! 6 0x1FFFFE).set! 7 65534 }
    let s (p : List Nat) := onTile x { tile0 with claim := some 5, tsPoison := p }
    holdsClaim (s []) x ∧ Issuing (s []) x ∧ checkQueues x [2] [] = .ok () ∧ checkQueues x [2, 3] [] = .ok () ∧
    VectorReady (s []) x [2, 3] [] ∧ ((tile0.acc 0).willOpen 2 true = true) ∧ readable (s []) x (x.ereg 6) 2 ∧
    (x.ereg 7).toNat + 2 ≤ 65536 ∧ ((s []).tile 0).poisonedRows 65534 = none ∧
    ((s [64 * 65534]).tile 0).poisonedRows 65534 ≠ none ∧ (s []).upset + x.mxinj.toNat < 2 ∧ 2 ≤ 0 + (2 : BitVec 2).toNat := by
  refine ⟨⟨rfl, rfl, rfl⟩, ⟨rfl, rfl, rfl⟩, rfl, rfl, ⟨rfl, rfl, by decide +kernel⟩, by decide +kernel, ?_, by decide,
    by decide +kernel, by decide +kernel, by decide +kernel, by decide⟩
  unfold readable; decide +kernel
/-- O31: the last two rows; 65535, which reaches past the store; 65536. -/
theorem witness_TileStoreResults :
    let x (r : Word) : Act := { act [(2, 1)] with e := Act.zero.e.set! 7 r }
    ((x 65534).ereg 7).toNat + 2 ≤ 65536 ∧ ((x 65535).ereg 7).toNat < 2 ^ 16 ∧ 65536 < ((x 65535).ereg 7).toNat + 2 ∧
    2 ^ 16 ≤ ((x 65536).ereg 7).toNat ∧ Issuing (node (x 65534)) (x 65534) ∧ VectorReady (node (x 65534)) (x 65534) [] [1] ∧
    VectorReady (node (x 65534)) (x 65534) [1] [] ∧ (node (x 65534)).readFields [1] = ([0], node (x 65534)) ∧
    ((node (x 65534)).tile 0).poisonedRows 65534 = none := by
  and_intros <;> first | decide +kernel | rfl | exact ⟨rfl, rfl, rfl⟩
/-- O32: a copy of one row of 64 bytes in own LM, one of no bytes; a `cpyx` with rows, one of 2^30 bytes and more; queues in the
core's direction and not. -/
theorem witness_CopyIssue :
    let x (e2 e4 : Word) : Act := { act [] with e := (((Act.zero.e.set! 0 0xA1000).set! 1 0xA2000).set! 2 e2).set! 4 e4 }
    let c (fn : Nat) (e2 e4 : Word) : Copy := (node (x e2 e4)).newCopy fn 4
    let ok (e2 : Word) : Bool := (checkFields (c 0 e2 0)).toOption.isSome && (checkRodref (node (x e2 0)) (c 0 e2 0)).toOption.isSome &&
      (checkStream (node (x e2 0)) (c 0 e2 0)).toOption.isSome && (checkDestinations (node (x e2 0)) (c 0 e2 0)).toOption.isSome
    (c 0 0x10040 0).length = 64 ∧ (c 0 0 0).length = 0 ∧ ok 0x10040 = true ∧ ok 0 = true ∧
    (0x10040 : Word).extractLsb' 16 30 ≠ 0 ∧ (c 5 0x10040 0).xb * (c 5 0x10040 0).y % 256 ≠ 0 ∧
    (0x4001 : Word).extractLsb' 16 30 = 0 ∧ (c 2 0x4001 (0x10000 * 2 ^ 22 - 2 ^ 22)).count = 0xFFFF ∧
    2 ^ 30 < (c 2 0x4001 (0x10000 * 2 ^ 22 - 2 ^ 22)).count * (c 2 0x4001 (0x10000 * 2 ^ 22 - 2 ^ 22)).xb ∧
    queueAllowed (act []) 4 true = true ∧ queueAllowed (act []) 0 true = false := by
  decide +kernel
/-- O33: index 32; counters 15, 16 and 22; an identical region, a full table, a full total, an overlap, a new region with id 1; a
source region of 64 bytes of LM. -/
theorem witness_ServiceResults :
    let x := act [(1, 0xA1000), (2, 64), (3, 0x80000000004A1000), (4, 0), (5, 32)]
    let r (i base len : Nat) : Region := ⟨i, 1, true, base, len, 0, 3⟩
    let s (l : List Region) := onTile x { tile0 with mirrored := l }
    Issuing (s []) x ∧ 32 ≤ (x.wreg 5).toNat ∧ (x.wreg 1).toNat % 64 = 0 ∧ (x.wreg 2).toNat % 64 = 0 ∧ (x.wreg 2).toNat ≤ 0x20000 ∧
    0xA1000 ≤ (x.wreg 1).toNat ∧ (x.wreg 1).toNat + (x.wreg 2).toNat ≤ 0x200000 ∧
    ((s [r 0 0xA1000 64]).tile 0).mirrored.find? (fun y => y.base == 0xA1000 && y.len == 64) = some (r 0 0xA1000 64) ∧
    16 ≤ (List.replicate 16 (r 0 0xB0000 64)).length ∧ 0x20000 < ([r 0 0xB0000 0x20000].map (·.len)).sum + 64 ∧
    ((r 0 0xA1000 128).base < 0xA1000 + 64 ∧ 0xA1000 < (r 0 0xA1000 128).base + (r 0 0xA1000 128).len) ∧
    (∀ y ∈ [r 0 0xB0000 64], y.id ≠ 1) ∧ (∃ y ∈ [r 0 0xB0000 64], y.id = 0) ∧
    (sourceRegion (x.wreg 3) (x.wreg 4)).toOption = some (true, 0xA1000, 64, 64) ∧
    (leasePages false 16385 0 64 (s [])).toOption.isSome = true ∧ newRegion [] true 0xA1000 64 = .inl 0 ∧
    newRegion (List.replicate 16 (r 0 0xB0000 64)) true 0xA1000 64 = .inr 1 ∧ Issuing (onReplica x) (repl x) ∧
    (0, ((onReplica x).mapGenOf 0).setWidth 64) = (0, (1 : Word)) ∧ Issuing (firm (fwAct [])) (fwAct []) := by
  and_intros <;> first | decide +kernel | rfl | exact ⟨rfl, rfl, rfl⟩
/-- O34: CSRs 1 and 4 of an activation; a readable and a writable CSR of a firmware core; an unassigned one, a read-only one. -/
theorem witness_CsrAndPrivilege :
    Issuing (node (act [])) (act []) ∧ 1 ≤ (1 : BitVec 12).toNat ∧ (4 : BitVec 12).toNat ≤ 4 ∧
    csrAllowed (firm (fwAct [])) (fwAct []) 0x414 true ∧ csrAllowed (node (act [])) (act []) 0xF02 false ∧
    WellFormed.csrAssigned 0x415 = false ∧ WellFormed.csrWritable 0xC00 = false ∧ WellFormed.csrAssigned 0xC00 = true ∧
    Issuing (firm (fwAct [])) (fwAct []) := by
  refine ⟨issues _, by decide, by decide, ?_, ?_, by decide, by decide, by decide, issues_fw _⟩
  · unfold csrAllowed; decide +kernel
  · unfold csrAllowed; decide +kernel
/-- O37: a core whose field triggers group 3 on brk, and one whose field does not. -/
theorem witness_FirmwareControl_calls :
    let s := onTile (act []) { tile0 with comp := { tile0.comp with halt := ⟨3, true, true, false⟩ } }
    s.act? s.cur = some (act []) ∧ (act []).halting = false ∧ s.hereTags = [] ∧ (s.core 0 false).halt.member = true ∧
    (s.core 0 false).halt.brk = true ∧ ((node (act [])).core 0 false).halt.member = false ∧
    (firm (fwAct [])).act? (firm (fwAct [])).cur = some (fwAct []) ∧ (act []).replica = false ∧
    (({ firm (fwAct []) with fws := [(0, { FwCore.empty with halt := ⟨3, true, true, false⟩ })] } : State).fwCore 0).halt.brk = true :=
  ⟨rfl, rfl, rfl, rfl, rfl, rfl, rfl, rfl, rfl⟩
/-- O35: the last image offset and the next; a refused image (zeros are a 64 KiB entry of HBM) and one that is taken; scopes of
REACH 0 and 3. -/
theorem witness_TranslationControl :
    Issuing (firm (fwAct [(1, 0xFFFE0), (2, 0x100000), (3, 0xC000), (4, 0x20000)])) (fwAct [(1, 0xFFFE0), (2, 0x100000),
      (3, 0xC000), (4, 0x20000)]) ∧ (0xFFFE0 : Word).toNat % 32 = 0 ∧ (0xFFFE0 : Word).toNat + 32 ≤ 2 ^ 20 ∧
    2 ^ 20 < (0x100000 : Word).toNat + 32 ∧ tlbImage 1 0 0 0 = none ∧ (tlbImage 0 0 0 0).isSome = true ∧
    ((0xC000 : Word).extractLsb' 14 2).toNat = 3 ∧ 2 ^ 17 ≤ (0x20000 : Word).toNat ∧
    tabFind (firm (fwAct [])).tiles 0 = some tile0 := by
  and_intros <;> first | decide +kernel | rfl | exact ⟨rfl, rfl, rfl⟩
/-- O36: groups 15 and 16; bit 0 of wb clear and set. -/
theorem witness_HaltGroups :
    let x := fwAct [(1, 15), (2, 16), (3, 1)]
    Issuing (firm x) x ∧ (x.wreg 1).toNat < 16 ∧ 16 ≤ (x.wreg 2).toNat ∧ (x.wreg 3).getLsbD 0 = true ∧
    (x.wreg 4).getLsbD 0 = false ∧ tabFind (firm x).fws 0 = some FwCore.empty ∧ tabFind (firm x).tiles 0 = some tile0 := by
  and_intros <;> first | decide +kernel | rfl | exact ⟨rfl, rfl, rfl⟩
/-- O37: the last area and the next; an empty ring and one with a record; the ops of bmmask and a refused one. -/
theorem witness_FirmwareControl :
    let x := fwAct [(1, 0xFEE00), (2, 0xFF000), (3, 0x80000000), (4, 0x40000000), (5, 0x630000), (6, 0xC0000000), (7, 0x640000)]
    let full : State := { firm x with fws := [(0, { FwCore.empty with put := 1 })] }
    Issuing (firm x) x ∧ (firm x).memoryWf = true ∧ (x.wreg 1).toNat % 512 = 0 ∧ (x.wreg 1).toNat + 0x1200 ≤ 2 ^ 20 ∧
    2 ^ 20 < (x.wreg 2).toNat + 0x1200 ∧ x.wp + 0x1200 ≤ 2 ^ 20 ∧
    ((firm x).fwCore 0).put = ((firm x).fwCore 0).get ∧ (full.fwCore 0).put ≠ (full.fwCore 0).get ∧
    (x.wreg 3 &&& 0xFFFFFFFF3000FFF0 = 0 ∧ ((x.wreg 3).extractLsb' 30 2).toNat = 2) ∧
    (x.wreg 4 &&& 0xFFFFFFFF3000FFF0 = 0 ∧ ((x.wreg 4).extractLsb' 30 2).toNat = 1) ∧
    ((x.wreg 5).extractLsb' 16 12).toNat < ((firm x).panel 0).vts ∧ ((x.wreg 6).extractLsb' 30 2).toNat = 3 ∧
    ((firm x).panel 0).vts ≤ ((x.wreg 7).extractLsb' 16 12).toNat := by
  and_intros <;> first | decide +kernel | rfl | exact ⟨rfl, rfl, rfl⟩
/-- Doublewords in memory from an address up. -/
def dwords (at' : Nat) (ws : List Nat) : List Host.Cell :=
  memWriteBytes [] at' ((ws.map (leBytes 8)).flatten)

/-- `node` with queue 0 of panel 0 as given. -/
def queued (q : Queue) (active waiting : List Nat) : State :=
  let s := node (act [])
  s.setPanel 0 { s.panel 0 with queues := [(0, q)], active := active, waitingQ := waiting }

/-- A queue of address-space id 3 and key 2, in a slot, with one record at 0x10000. -/
def pending : Queue := { Queue.empty with asid := 3, key := 2, enable := true, qstat := 1, sqtail := 1, sqbase := 0x10000 }

/-- `queued pending` with these words as its record, page0 in the owner's tables, and VT 1 with a heap. -/
def record (ws : List Nat) (image : List Host.Cell) : State :=
  { queued pending [0] [] with
    phys := dwords 0x10000 ws ++ image
    pages := [page0]
    tiles := [(0, tile0), (1, { Tile.empty with heapBase := 0x1C0000, heapLim := 0x200000 })] }

/-- O38: a queue not enabled, too many records, a queue in a slot, an empty and a waiting one; queue 5, which can be mapped,
behind one that was disabled as it waited; one that cannot; a full and an empty completion ring. -/
theorem witness_QueuesAndGraphs_queues :
    let q : Queue := { Queue.empty with enable := true }
    let wait : Queue := { q with qstat := 2, sqtail := 1 }
    let two := queued { wait with enable := false } [] [0, 5]
    let both := two.setPanel 0 { two.panel 0 with queues := [(0, { wait with enable := false }), (5, wait)] }
    ((queued q [] []).panel 0).state ≠ .off ∧ ((queued q [] []).panel 0).state ≠ .serviceOnly ∧
    ((queued Queue.empty [] []).queue 0 0).enable = false ∧
    ((queued q [] []).queue 0 0).enable = true ∧ ringSize 4 = 16 ∧ ringSize 4 < ((17 : BitVec 32) - 0).toNat ∧
    ((16 : BitVec 32) - 0).toNat ≤ ringSize 4 ∧ 0 ∈ ((queued q [0] []).panel 0).active ∧ 0 ∉ ((queued q [] []).panel 0).active ∧
    (both.panel 0).waitingQ = [0] ++ 5 :: [] ∧ 5 ∉ [0] ∧ (∀ r ∈ [0], ¬ canMap both 0 r) ∧ canMap both 0 5 ∧
    (∀ r ∈ (two.panel 0).waitingQ, ¬ canMap two 0 r) ∧
    ({ q with cqtail := 16, cqhead := 0 } : Queue).room = false ∧ ({ q with held := [[0]] } : Queue).room = true ∧
    ((queued { q with held := [[0]] } [] []).queue 0 0).held = [[0]] := by unfold canMap; decide +kernel
/-- O38: a LAUNCH of one root on VT 1, whose image passes and installs; HALT, RESUME and CANCEL of graph 1. -/
theorem witness_QueuesAndGraphs_launch :
    let s := record [0, 0x20000, 0x30000, 0x30100, 0, 0x30200, 7, 0]
      (dwords 0x20000 [0x10001, 0, 0x40, 0x40, 0x40, 0x40, 0, 0, 0x100000, 0, 0, 0, 0, 0, 0, 0, 0xFFFF00070001, 0, 0, 0, 0, 0, 0, 0])
    let l := s.nextRecord 0 0
    s.nextQueue 0 = some 0 ∧ l.getD 0 0 % 16 = 0 ∧
    (s.takeRecord 0 0).launchTarget 0 3 l = some 0x30000 ∧ (s.takeRecord 0 0).freeGid = some 2 ∧
    (match (s.takeRecord 0 0).readImage 0 (s.queue 0 0).owner (l.getD 1 0) with
      | some im => im.tablesOk && im.nodesOk im.expand && (im.expand.map (fun c => (c.home, c.slot)) == [(1, 7)]) &&
          (match (s.takeRecord 0 0).install 0 0 2 0x30000 l im with | .ok _ => true | .error _ => false)
      | none => false) = true := by decide +kernel
theorem witness_QueuesAndGraphs_ops : ∀ op ∈ [1, 2, 3],
    let s := record [op, 0, 0, 0, 0, 0, 0, 1] []
    s.nextQueue 0 = some 0 ∧ (s.nextRecord 0 0).getD 0 0 % 16 = op ∧ recordBad (s.nextRecord 0 0) = false ∧
    tabFind s.graphs ((s.nextRecord 0 0).getD 7 0) = some graph1 ∧ graph1.asid = (s.queue 0 0).asid := by decide +kernel

/-- VT 0 with node 7 READY on the compute core's list or among its urgent nodes, and these slots. -/
def starts (urg : Bool) (slots : Vector (Option Nat) 4) (acts : List (Nat × Act)) : State :=
  { onTile (act []) { tile0 with
      nodes := [(5, node5), (7, { node5 with state := stReady, urg := urg })]
      comp := { tile0.comp with
        slots := slots
        urgent := if urg then [7] else []
        ready := if urg then [] else [⟨1, 0, [7]⟩] } } with acts := acts }

/-- O39: a normal start in slot 1; an urgent start in a free slot and in place of a normal activation; an urgent activation that
comes back. -/
theorem witness_Starts :
    let free : Vector (Option Nat) 4 := #v[some 5, none, none, none]
    let s := starts false free [(5, act [])]
    let u := starts true free [(5, act [])]
    let full := starts true #v[some 5, some 5, some 5, some 5] [(5, act [])]
    let b := starts true free [(5, act []), (9, { act [] with
      index := 9, place := .blockedUrgent, status := { Status.zero with urg := true } })]
    s.starting 0 false = true ∧ (s.core 0 false).freeSlot = some 1 ∧ s.urgentStart 0 false = none ∧
    (s.core 0 false).displaced = [] ∧ (s.core 0 false).resumed = [] ∧ ((s.chooseNormal 0 false).map (·.2.2.1)) = some 7 ∧
    u.windowOpen 0 false = false ∧ u.urgentWaiting 0 false = none ∧ ((u.urgentNode 0 false).map (·.1)) = some 7 ∧
    (full.core 0 false).freeSlot = none ∧ full.victim 0 false = some (3, 5) ∧ ((full.urgentNode 0 false).map (·.1)) = some 7 ∧
    b.urgentWaiting 0 false = some 9 ∧ (b.core 0 false).freeSlot = some 1 ∧ b.starting 0 false = true := by decide +kernel
/-- O40: tokens for a bound ARMED node, for another generation, a restore item, returned beads, a faulted node, a spent budget. -/
theorem witness_TokensAndCompletion :
    let s : State := { onTile (act []) { tile0 with nodes := [(5, node5), (6, { node5 with state := stArmed, live := -65535, beads := 0 }),
      (7, { node5 with state := stFaulted })] } with
      msgs := [⟨0, 1, 0, 0, .token 0x80000000006 1 .plain false 1 0, none, 0⟩, ⟨0, 2, 0, 0, .token 0x80010000006 1 .cancel false 1 0, none, 1⟩,
        ⟨0, 3, 0, 0, .restoreItem 0x80000000006 .plain, none, 2⟩, ⟨0, 1, 0, 0, .beadReturn 1 8, none, 3⟩] }
    let rest : State := { s with tiles := [(0, { tile0 with nodes := [(5, { node5 with state := stDone })] })] }
    (∀ n ∈ [0, 1, 2, 3], (s.takeMsg n).isSome = true) ∧ (∀ m ∈ s.msgs, s.deliverable m = true) ∧
    refSlot 0x80000000006 = (0, 6) ∧ refMatches 0x80000000006 (s.node 0 6) = true ∧
    refMatches 0x80010000006 (s.node 0 6) = false ∧ -65536 ≤ (s.node 0 6).live - 1 ∧ (s.node 0 6).beads + 1 < 2 ^ 33 ∧
    tabFind s.graphs 1 = some graph1 ∧ (s.grec graph1 1 + 8) % 2 ^ 64 ≠ s.grec graph1 0 ∧
    ({ s with phys := dwords graph1.grec [8] } : State).grec graph1 0 = (0 + 8) % 2 ^ 64 ∧
    s.crossed (.msg 3) = true ∧ graph1.grec + 16 ≤ 2 ^ 48 ∧
    atWork s 1 graph1 ∧ ¬ atWork rest 1 graph1 ∧
    (s.node 0 7).state = stFaulted ∧ s.homeOpen (.lm 0 0) = true ∧ s.memoryWf = true ∧
    (∀ c ∈ s.copies, c.2.owner = 7 → c.2.nref ≠ nodeRef 0 7 (s.node 0 7)) ∧ tabFind (s.tile 0).fates 7 = none ∧
    tabFind ({ tile0 with fates := [(7, cALIGN, 0, 0)] } : Tile).fates 7 = some (cALIGN, 0, 0) ∧
    ({ act [] with used := 1000 } : Act).budget ≤ 1000 ∧ (act []).place = .slot 0 ∧ (act []).wait = .none ∧
    ({ act [] with wait := .rod 3 } : Act).wait ≠ .none ∧ (s.core 0 false).halted = false ∧
    ((onTile (act []) { tile0 with comp := { tile0.comp with halted := true } }).core 0 false).halted = true := by
  unfold atWork; decide +kernel
/-- O41: a commit after its release, of a node with fewer beads than items, with enough and with no successor; a borrow; an epoch
to send, to apply and to acknowledge; deferred adds. -/
theorem witness_CommitsAndEpochs :
    let a : Act := { act [] with place := .committing, commit := .release }
    let b (n : Nat) : State := onTile a { tile0 with nodes := [(5, { node5 with beads := n })], dirty := true }
    let e : Act := { a with commit := .epoch 1 }
    let held := { (b 2).snapshot 0 with no := 1 }
    let sent (applied : BitVec 32) : State := onTile e { tile0 with inFlight := some held, applied := applied, partner := 1 }
    (b 1).act? 5 = some a ∧ graph1.cancelled = false ∧ (b 1).refired a = false ∧ (b 1).pendingWork 5 = false ∧
    (b 1).homeOpen (.lm 0 0) = true ∧ ((b 1).node 0 5).beads < ((b 1).node 0 5).nsucc.toNat ∧
    ((b 2).node 0 5).nsucc.toNat ≤ ((b 2).node 0 5).beads ∧ Config.generalBase ≤ ((b 1).node 0 5).succ.toNat ∧
    ((b 1).tile 0).dirty = true ∧ ((b 1).ptOf 0).isSome = true ∧ ((b 1).tile 0).inFlight = none ∧
    ((sent 0).tile 0).applied ≠ held.no ∧ (sent 0).homeOpen (.lm ((sent 0).partnerOf 0) 0) = true ∧
    ((sent 1).tile 0).applied = held.no ∧ ((sent 1).tile 0).lost = false ∧ (((sent 1).tile 0).retained.map (·.id)).Nodup ∧
      ((sent 1).acts.map (·.1)).Pairwise (· < ·) ∧
    (let c : Act := { a with commit := .sent }
     let d : DeferredAdd := ⟨.lm 0 0xA1000, 0, 0, 0x4A1000, true, 5, false⟩
     let u := onTile { c with adds := [d] } tile0
     (onTile c tile0).act? 5 = some c ∧ c.adds = [] ∧ c.replica = false ∧ u.homeOpen d.home = true ∧
       u.crossed (.add 5 1) = true ∧ unshown u (0, false) d.home 8) := by unfold unshown; decide +kernel
/-- O41: a retention record of a tile to free, and of a firmware core; epochs in order, the last number 0xFFFFFFFF before 0
among them. -/
theorem witness_CommitsAndEpochs_acks :
    let r : Retained := ⟨9, 1, .rodAdd 0 1, some 1, some 5, true, none⟩
    let q : Retained := { r with dst := 0, epoch := some 0 }
    let k : State := { node (act []) with tiles := [(0, { tile0 with retained := [r] }), (1, { Tile.empty with applied := 1 })] }
    let f : State := { firm (fwAct []) with fws := [(0, { FwCore.empty with retained := [q] })] }
    inEpoch 1 1 ∧ inEpoch 0xFFFFFFFF 0 ∧ ¬ inEpoch 0 0xFFFFFFFF ∧ ¬ inEpoch 0 0x80000000 ∧
    (∀ y ∈ k.tiles, y.1 ≠ 0 → ∀ z ∈ y.2.retained, z.id ≠ 9) ∧
    (k.tile 0).retained.find? (fun z => z.id == 9) = some r ∧ r.epoch = some 1 ∧ 0 < Config.fwKey ∧
    inEpoch 1 (k.tile r.dst).applied ∧ k.keepsPayload 0 r = none ∧
    (∀ y ∈ f.tiles, ∀ z ∈ y.2.retained, z.id ≠ 9) ∧ (∀ y ∈ f.fws, y.1 ≠ 0 → ∀ z ∈ y.2.retained, z.id ≠ 9) ∧
    (f.fwCore 0).retained.find? (fun z => z.id == 9) = some q ∧ r.isRod = true ∧
    inEpoch 0 (f.tile 0).applied := by unfold inEpoch; decide +kernel
/-- O42: a load, a store, nqry and a resume of a parked activation that may be answered. -/
theorem witness_ResponsesAndMessages_requests :
    let req (op : ReqOp) (elems : List Elem) : Req := ⟨5, 0x80000000005, 0x100000, op, 1, elems, false, false, 0, [], none, [], 0⟩
    let parked : Act := { act [] with index := 6, place := .parked }
    let s (r : Req) : State := { onTile (act []) { tile0 with nodes := [(5, node5), (6, { node5 with state := stParked })] } with
      acts := [(5, act []), (6, parked)]
      reqs := [r] }
    let ld := req (.load 1 8) [⟨0, .lm 1 0x1FFFF8, 0x5FFFF8, 0, 0⟩]
    let st := req (.store 4 9) [⟨0, .lm 1 0xA1000, 0x4A1000, 9, 0⟩]
    let q := req (.nqry 1 0x80000000006) []
    let tr := req (.tresume 1 0x80000000006 0) []
    let mx := req (.matrix cPOISON 0 [] false 0 0) []
    ((s tr).tile 0).draining = false ∧ (onTile (act []) { tile0 with draining := true }).tile 0 = { tile0 with draining := true } ∧
    (∀ r ∈ [ld, st, q, tr, mx], (s r).reqs[0]? = some r ∧ (s r).mayAnswer 0 r = true ∧ (s r).act? r.owner = some (act [])) ∧
    (∀ i < 8, (s ld).poisoned (.lm 1 0x1FFFF8) i = false) ∧ 0x1FFFF8 + 8 ≤ Config.syncBase ∧
    (∀ i < 4, (s st).wsAt 1 (0xA1000 + i) = none ∧ (s st).leaseTableAt 1 (0xA1000 + i) = false) ∧ (s st).memoryWf = true ∧
    (∀ g, tabFind (s q).graphs 1 = some g → g.asid = (act []).asid) ∧ (s tr).parkedBy 0x80000000006 = some 6 ∧ 5 ≠ 6 := by
  refine ⟨rfl, rfl, by decide +kernel, by decide +kernel, by decide, by decide +kernel, by decide +kernel, ?_, by decide +kernel,
    by decide⟩
  intro g h
  have : g = graph1 := by simpa [onTile, node, tabFind] using h.symm
  rw [this]; rfl
/-- O42: a trap message with room in a ring below the workspace and in one that lies over its registers w0 to w3; a remote rod
add, a counter at its threshold, an idle core with a record. -/
theorem witness_ResponsesAndMessages_messages :
    let s (base : Word) : State := { firm (fwAct []) with
      msgs := [⟨0, 0, 0, 0, .trap 1 2 3 4, none, 0⟩, ⟨1, 0, 0, 0, .rodAdd 3 7, none, 1⟩]
      fws := [(0, { FwCore.empty with log2n := 4, trapbase := base })] }
    let at0 (base : Word) : Nat := (((s base).fwCore 0).trapbase.toNat +
      32 * (((s base).fwCore 0).put.toNat % ((s base).fwCore 0).ringLen)) % Config.fwSize
    let i : State := { s 0 with fws := [(0, { FwCore.empty with idle := true, put := 1 })] }
    let b : Binding := ⟨0, 1, 0x80000000006, .perf 0 0⟩
    let t := onTile (act []) { tile0 with bindings := [b] }
    ((s 0).takeMsg 0).isSome = true ∧ ((s 0).fwCore 0).halted = false ∧
    (((s 0).fwCore 0).put - ((s 0).fwCore 0).get).toNat < ((s 0).fwCore 0).ringLen ∧
    (∀ e ∈ (s 0).tiles, ∀ b ∈ e.2.bindings, (match b.source with | .watch _ _ _ _ => true | _ => false) = false) ∧
    (s 0).act? Config.fwKey = some (fwAct []) ∧ at0 0xFE0 + 32 ≤ (fwAct []).wp ∧ at0 0x1000 = (fwAct []).wp + 8 * 0 ∧
    fwOf (fwBase 0 + at0 0x1000) = some (0, at0 0x1000) ∧
    arrives (s 0) 1 ⟨1, 0, 0, 0, .rodAdd 3 7, none, 1⟩ (.rodAdd 3 7) ∧ (s 0).early = [] ∧
    (t.tile 0).bindings.find? (fun y => y.index == 0) = some b ∧ ((t.tile 0).counter b.source).isSome = true ∧
    (t.tile 0).counter b.source = some (0, 0) ∧ (t.tile 0).lost = false ∧ (i.fwCore 0).idle = true ∧
    (i.fwCore 0).put ≠ (i.fwCore 0).get := by unfold arrives; decide +kernel
/-- A box copy of one row of 64 bytes from LM offset 0xA1000 to 0xA2000 of VT 0 that credits rod 3, at a stage. -/
def copy64 (fn : Nat) (posted : Bool) (sent : Nat) (flight : List Segment) : Copy where
  owner := 5
  dt := 0
  stg := false
  pc := 0
  fn := fn
  e0 := 0xA1000
  e1 := 0xA2000
  e2 := 0x10040
  e3 := 0x5000000000200018
  e4 := 0
  queue := 4
  length := if fn = 5 then 256 else 64
  credits := [⟨0, some 3, 64, 0, 0⟩]
  posted := posted
  base := 0
  sent := sent
  flight := flight
  kept := []
  fail := none
  psn := none
  flags := 0
  nref := 0x80000000005
  asid := 3
  asked := none
  bad := []

/-- O43: each stage of that copy; a queue copy with 256 bytes at hand, with room and while the core that reads the queue is
halted. -/
theorem witness_CopySteps :
    let seg (n : Nat) : Segment := ⟨0, 0xA1000, 0, .lm 0 0xA2000, 0, false, none, List.replicate n (1, false), true, true⟩
    let s (c : Copy) : State := { node (act []) with copies := [(9, c)] }
    let c := copy64 0 true 0 []
    let d := copy64 0 true 64 [seg 64]
    let q := copy64 5 true 256 [seg 256]
    let e : Copy := { copy64 0 true 64 [] with credits := [⟨0, some 3, 64, 64, 0⟩] }
    let halted : State := { onTile (act []) { tile0 with stag := { tile0.stag with halted := true } } with copies := [(9, q)] }
    tabFind (s c).copies 9 = some c ∧ (copy64 0 false 0 []).posted = false ∧ (s c).routeOpen ((s c).routeTo 0 0) = true ∧
    (seg 64).route = none ∧ (s c).homeOpen (.lm 0 0) = true ∧
    c.ssp = 1 ∧ c.dsp = 1 ∧ c.sent < c.length ∧ (s c).earlierAccess 9 c = false ∧ (s c).homeOpen (.lm 0 0xA1000) = true ∧
    d.flight[0]? = some (seg 64) ∧ d.inOrder (seg 64) = true ∧ (s d).memoryWf = true ∧
    (s d).crossed (.seg 9 0 0) = true ∧ unshown (s d) (0, false) (.lm 0 0xA2000) 64 ∧
    (∀ i < 64, (s d).wsAt 0 (0xA2000 + i) = none ∧ (s d).leaseTableAt 0 (0xA2000 + i) = false) ∧
    ((q.flight.map (·.bytes)).flatten.take 256).length = 256 ∧ ((s q).tile 0).occupied (Fin.ofNat 8 q.queue) < 4 ∧
    (∀ v ∈ q.flight, (s q).crossed (.seg 9 v.tgt v.pos) = true) ∧
    ((s q).tile 0).tails[Fin.ofNat 8 q.queue] = [] ∧ ((s q).tile 0).readerHalted (Fin.ofNat 8 q.queue) = false ∧
    (halted.tile 0).readerHalted (Fin.ofNat 8 q.queue) = true ∧ (halted.tile 0).tails[Fin.ofNat 8 q.queue] = [] ∧
    e.flight = [] ∧ e.length ≤ e.sent ∧ (∀ x ∈ e.credits, x.expect ≤ x.done ∧ x.ring = 0) := by unfold unshown; decide +kernel
/-- O44: a raise that completes the phase, with another member that has not raised and without; a release; a router. -/
theorem witness_BeamEvents :
    let up : Leaf := ⟨true, 1, 1, true, false, 0⟩
    let s (l : Leaf) : State := { node (act []) with tiles := [(0, { tile0 with leaves := [(0, up)] }), (1, { Tile.empty with leaves := [(0, l)] })] }
    let one := s Leaf.zero
    let two := s ⟨true, 1, 0, false, false, 0⟩
    let rel := one.setGroup 0 0 ⟨some 3, 1, [], [0]⟩
    ((one.tile 0).leaf 0).up = true ∧ 0 ∉ (one.group 0 0).raised ∧ one.segmentUp 0 = true ∧ one.segmentReleased 0 0 0 = true ∧
    one.members 0 0 = [0] ∧ two.members 0 0 = [0, 1] ∧ ((two.tile 1).leaf 0).exc = false ∧
    0 ∈ (rel.group 0 0).pending ∧ rel.segmentUp 0 = true ∧ rel.phaseDone 0 0 = false ∧ (rel.acts.map (·.1)).Pairwise (· < ·) ∧
      (act []).wait ≠ .beamLeave 0 ∧
    (tabFind one.pts 0).isSome = true ∧ (one.pt 0).routerUp = true ∧ (one.pt 0).role = .inService 0 ∧
    (({ one with dies := [(0, { Die.empty with recomb := true })] } : State).die 0).recomb = true := by decide +kernel
/-- O45, O46: a rotation of PT 0 onto the spare 2, a restore on it, a refusal; a drain; a copying die; routers. -/
theorem witness_RotationStart_RotationRemap :
    let go : Word := 0x8000000000020000
    let s := node (act [])
    let lost : State := { s with pts := [(0, { Pt.spare 0 with role := .retired, lostVt := some 0 }), (1, { Pt.spare 1 with role := .inService 1 })] }
    let die (d : Die) : State := { s with acts := [], dies := [(0, d)] }
    let win := die { Die.empty with phase := .window, markers := [0, 1], gen := 0 }
    s.rotationOf 0 go = some (0, false) ∧ s.rotationOf 0 (go ||| 1) = some (1, false) ∧ s.rotationOf 0 0x8000000000010000 = none ∧
    lost.rotationOf 0 (go ||| 0x10000000) = some (0, true) ∧ go.getLsbD 63 = true ∧
    ((die { Die.empty with phase := .draining }).drained 0 false) = true ∧
    (s.drained 0 true) = true ∧ ({ s with reqs := [⟨5, 0, 0, .load 1 8, 1, [], false, false, 0, [], none, [], 0⟩] } : State).drained 0 true = false ∧
    (∀ e ∈ s.acts, e.2.twin = none) ∧ (∀ e ∈ s.pts, e.2.testDue = false) ∧
    ((die { Die.empty with phase := .copying, outPt := 0, inPt := 2 }).die 0).phase = .copying ∧ (s.pt 2).role = .spare ∧
    win.olderOpen 0 (win.die 0) = false ∧ (win.die 0).markers.filter (· != 0) ≠ [] ∧
    (die { Die.empty with phase := .window, markers := [0] }).olderOpen 0 { Die.empty with phase := .window, markers := [0] } = false ∧
    (tabFind s.pts 0).isSome = true ∧ (s.setPanel 0 { s.panel 0 with mapGen := 1 }).pt 0 = s.pt 0 ∧ (s.pt 0).mapGen ≠ 1 ∧
    (win.dies.find? (fun e => e.1 / 64 == 0 && e.2.phase == .window && e.2.markers.contains 0 &&
      reached (win.pt 0).mapGen e.2.gen)) = some (0, win.die 0) := by decide +kernel
/-- O47: a PT in self-test, one in service, a notice, a restored VT with none left. -/
theorem witness_LossAndRestore :
    let s : State := { node (act []) with pts := [(0, { Pt.spare 0 with role := .inService 0 }), (1, { Pt.spare 1 with role := .selfTest }),
      (2, { Pt.spare 2 with role := .inService 1 })] }
    let n : State := { s with tiles := [(0, tile0), (1, { Tile.empty with lost := true, notices := [0] })] }
    let d : State := { s with tiles := [(0, tile0), (1, { Tile.empty with lost := true })] }
    (s.pt 1).role = .selfTest ∧ (s.pt 0).role = .inService 0 ∧ 0 ∈ (n.tile 1).notices ∧ n.noticed 0 1 = true ∧
    (d.tile 1).lost = true ∧ (d.ptOf 1).isSome = true ∧ (d.tile 1).notices = [] := by decide +kernel
/-- O48: a replica at its end with its original's signature, equal and not; a silent tile, a probed one; a tile above HIGH with a
neighbour; memory words of a tile and of a replica's, a line of HBM beside a PT in service. -/
theorem witness_ReliabilityEvents :
    let rep : Act := { act [] with replica := true, atEnd := true, tile := Config.replicaBase + 3, mate := some (0, 0) }
    let s : State := { node (act []) with acts := [(5, rep)] }
    let other : Act := { rep with mate := some (rep.finalSig + 1, 0) }
    let same : Act := { rep with mate := some (rep.finalSig, 0) }
    let rich := onTile (act []) { tile0 with reserve := 3072 * 64 + 1 }
    s.act? 5 = some rep ∧ other.mate = some (rep.finalSig + 1, 0) ∧ other.finalSig ≠ rep.finalSig + 1 ∧
    same.finalSig = rep.finalSig ∧ (s.pt 0).role = .inService 0 ∧ (s.pt 0).probe = false ∧ s.slow 0 = false ∧
    s.configured 0 = true ∧ s.ptOf 0 = some 0 ∧ s.tileOn (s.ptKey 0) = some 0 ∧ rich.poorest (rich.ptKey 0) = some 1 ∧
      64 * ((rich.tile 0).high.toNat : Int) < (rich.tile 0).reserve ∧
    (({ s with pts := [(3, { Pt.spare 3 with role := .replica 0, probe := true })] } : State).pt 3).role = .replica 0 ∧
    (onReplica (act [])).tileOn ((onReplica (act [])).ptKey (Config.replicaBase + 3)) = some (Config.replicaBase + 3) ∧
    ((onReplica (act [])).pt ((onReplica (act [])).ptKey (Config.replicaBase + 3))).role = .replica 0 ∧
    0 < Config.lmSize / 8 ∧ inHbm (128 * 1) = true ∧ (s.pt (linePt 1)).role = .inService 1 := by decide +kernel
/-- O49: a migration that may start and one that may not; its rounds; the three ops of PTCMD. -/
theorem witness_DieControls :
    let go : Word := 0x8000000000000000
    let s := node (act [])
    let g : Migration := ⟨0, 0x200000, 0x200000, 4, none, 0, [1], false, false, true⟩
    let mig : State := { s with dies := [(0, { Die.empty with mig := [g] })], held := [(2, 0x40, [7])] }
    let leased : State := { s with acts := [(5, { act [] with leases := [⟨0, 64, false⟩] })], pages := [page0] }
    go.getLsbD 63 = true ∧ s.migrationRefused 0 0 1 0x200000 = false ∧ s.migrationRefused 0 0 3 0x200000 = true ∧
    (mig.die 0).mig = g :: [] ∧ mig.held = [(2, 0x40, [7])] ∧ g.old ≤ 0x40 ∧ 0x40 + [7].length ≤ g.old + g.size ∧
    g.new + g.size ≤ 2 ^ 45 ∧ s.memoryWf = true ∧
    leased.pageLeased 0 0x200000 = true ∧ s.pageLeased 0 0x200000 = false ∧ g.dirty ≠ [] ∧ 4 ≤ g.round ∧
    g.old % 2 ^ 16 = 0 ∧ g.new % 2 ^ 16 = 0 ∧ g.size % 2 ^ 16 = 0 ∧ rangesMeet g.old g.size g.new g.size = false ∧
    s.reserved 2 = false ∧ ({ s with dies := [(0, { Die.empty with phase := .draining, inPt := 2 })] } : State).reserved 2 = true ∧
    (s.pt 2).role = .spare ∧ (s.pt 0).role ≠ .spare ∧ s.configured 99 = true ∧
    (({ s with pts := [(3, { Pt.spare 3 with role := .replica 0 })] } : State).pt 3).role = .replica 0 ∧
    ((0x8000000000001002 : Word).extractLsb' 12 4 = 1 ∧ ((0x8000000000001002 : Word).extractLsb' 0 12).toNat = 2) := by
  decide +kernel
/-- An image signed by the holder of the key of no bytes, which fills the whole firmware memory or is empty. -/
def signedImage (body : List Byte) : FwImage :=
  let i : FwImage := { FwImage.empty with length := body.length, rollback := 2, body := body }
  { i with signature := Config.imageSignature [] (Config.digest i.signedBytes) }
/-- O50: a panel that is on, a core of group 3; a stopped firmware core before and at its last reset, with an image that its
panel accepts and one whose rollback counter is below the fused one. -/
theorem witness_HaltsAndFirmwareResets :
    let f (n : Nat) : State := { firm (fwAct []) with
      fws := [(0, { FwCore.empty with stopped := true, resets := n, image := signedImage [1] })] }
    let h := onTile (act []) { tile0 with comp := { tile0.comp with halt := ⟨3, true, false, false⟩ } }
    (h.panel 0).state ≠ .off ∧ (h.core 0 false).halt.member = true ∧ (h.core 0 false).halt.group.toNat = 3 ∧
    (tabFind (f 1).fws 0).isSome = true ∧ ((f 1).fwCore 0).stopped = true ∧ ((f 1).fwCore 0).resets < 2 ∧
    2 ≤ ((f 2).fwCore 0).resets ∧ ((f 2).fwCore 0).excluded = false ∧ (f 1).memoryWf = true ∧
    (f 1).storedImage 0 = signedImage [1] ∧
    accepts { Panel.empty with fusedKey := Config.digest [], fused := 2 } (signedImage [1]) ∧
    ¬ accepts { Panel.empty with fusedKey := Config.digest [], fused := 3 } (signedImage [1]) :=
  ⟨by decide +kernel, rfl, rfl, rfl, rfl, by decide +kernel, by decide +kernel, rfl, by decide +kernel, rfl,
    ⟨rfl, rfl, Nat.le_refl 2⟩, fun h => absurd h.2.2 (by decide +kernel)⟩
/-- O51: a link whose ends are up, panel 0's port 27 and panel 7's port 3, with flits kept at both: the one expected, one
delivered, a replay asked, a full buffer; parcels that wait for the port and for another; one port that retrains with a spare
lane and with none, beside one that is up. -/
theorem witness_FabricPorts :
    let tr (p n : Nat) : Transit := ⟨p, 3, .msg n⟩
    let x : Port := { Port.empty with state := 2, expect := 5, next := 9, buffer := [⟨7, tr 7 1⟩, ⟨8, tr 7 2⟩] }
    let y : Port := { Port.empty with state := 2, expect := 8, next := 7, buffer := [⟨4, tr 0 3⟩, ⟨5, tr 0 4⟩, ⟨6, tr 1 5⟩], asked := true }
    let s (x y : Port) (out : List Transit) : State :=
      let u := ((node (act [])).setPort 0 27 x).setPort 7 3 y
      u.setPanel 0 { u.panel 0 with outbound := out }
    let st := s x y [⟨7, 0, .msg 8⟩, tr 7 9]
    portPeer 0 27 = some 7 ∧ peerPort 27 = 3 ∧ portPeer 0 28 = none ∧ (st.port 0 27) = x ∧ st.port 7 3 = y ∧
    keepsFlit y.buffer x.expect ⟨5, tr 0 4⟩ [⟨6, tr 1 5⟩] ∧ keepsFlit x.buffer (y.expect - 1) ⟨7, tr 7 1⟩ [⟨8, tr 7 2⟩] ∧
    keepsFlit y.buffer (x.expect - 1) ⟨4, tr 0 3⟩ [⟨5, tr 0 4⟩, ⟨6, tr 1 5⟩] ∧
    (x.expect - 1 - 4).toNat < 4096 ∧ (y.expect - 1 - 7).toNat < 4096 ∧ (∀ g ∈ x.buffer, g.seq ≠ 6) ∧
    (st.panel 0).outbound = [⟨7, 0, .msg 8⟩] ++ tr 7 9 :: [] ∧
    st.portFor 0 (tr 7 9) = 27 ∧ (∀ z ∈ [(⟨7, 0, .msg 8⟩ : Transit)], st.portFor 0 z ≠ 27) ∧ tr 7 9 ∉ [(⟨7, 0, .msg 8⟩ : Transit)] ∧
    x.buffer.length < 4096 ∧ 4096 ≤ (List.replicate 4096 (⟨0, tr 7 1⟩ : Flit)).length ∧
    (let r (sp : BitVec 4) : State := (s { Port.empty with state := 1, spared := sp, failing := some 3 } y []).setPort 0 26
      { Port.empty with state := 2 }
     ((r 15).port 0 27).state = 1 ∧ ((r 15).port 0 27).spared = 15 ∧ ((r 15).port 0 27).lanes = 8 ∧ ((r 2).port 0 27).spared ≠ 15 ∧
     26 ∈ pairPorts 27 ∧ ((r 15).port 0 26).state = 2 ∧ (∀ j ∈ pairPorts 27, j < 26 → j ≠ 27 → ((r 15).port 0 j).state ≠ 2) ∧
     (tabFind ((r 15).panel 0).routes 27).getD 27 = 27) := by
  refine ⟨rfl, rfl, rfl, by decide +kernel, by decide +kernel, ⟨[⟨4, ⟨0, 3, .msg 3⟩⟩], rfl, rfl, by decide⟩, ⟨[], rfl, rfl, by decide⟩,
    ⟨[], rfl, rfl, by decide⟩, by decide, by decide, by decide, by decide +kernel, by decide +kernel, by decide +kernel, by decide,
    by decide, Nat.le_of_eq List.length_replicate.symm, ?_⟩
  · decide +kernel
/-- O52: the stages of a shrink; a panel that is off, and one in service-only mode, with no record of failures and an image
that it accepts; images that it does not accept, the second one accepted. -/
theorem witness_PanelLifeCycle :
    let s (st : PanelState) (dom safe : Bool) : State :=
      { node (act []) with graphs := [], panels := [(0, { Panel.empty with state := st, inDomain := dom, safe := safe, vts := 100 })] }
    let rep : BootReport :=
      { image := 0, ioDies := true, hbmSlow := [], excluded := [], unloaded := [], failed := [], portsSlow := [], portsOut := [],
        cxl := true, cxlSlow := false, join := 1, binding := [] }
    ((s .ready true false).panel 0).state = .ready ∧ (s .shrunk true false).graphsOn 0 = false ∧
    (s .shrunk false false).trafficOf 0 = false ∧
    (∀ e ∈ ((s .shrunk false false).panel 0).ports, e.2.buffer = [] ∧ e.2.state ≠ 1) ∧
    ((s .shrunk false true).panel 0).safe = true ∧ 0 < ((s .shrunk false false).panel 0).vts ∧
    (State.reset.panel 7).state = .off ∧ 7 < 8 ∧ rep.image = 0 ∧ (State.reset.panel 7).failedStep 1 = false ∧
    ((s .serviceOnly false false).panel 0).state = .serviceOnly ∧ ((s .serviceOnly false false).panel 0).failedStep 1 = false ∧
    (State.reset.panel 7).fieldLog = [] ∧ rep.join < 2 ∧ ({ rep with join := 0 } : BootReport).join < 2 := by decide +kernel
/-- A table with one value under every key. -/
theorem tabFind_same {α : Type} (v : α) (l : List Nat) (k : Nat) :
    tabFind (l.map (fun c => (c, v))) k = (tabFind (l.map (fun c => (c, ()))) k).map (fun _ => v) := by
  induction l with
  | nil => rfl
  | cons c l ih =>
    simp only [List.map_cons, tabFind]
    split <;> simp_all
/-- O52: a panel whose 176 firmware cores have images that it accepts; with none for the management controller, and a second
that it accepts. -/
theorem witness_PanelLifeCycle_images :
    let x : Panel := { Panel.empty with fusedKey := Config.digest [], fused := 2, second := signedImage [2] }
    let fw : FwCore := { FwCore.empty with image := signedImage [1] }
    let s : State := { State.reset with panels := [(7, x)], fws := ((List.range 176).map (1792 + ·)).map (fun c => (c, fw)) }
    let old : State := { s with fws := [] }
    s.panel 7 = x ∧ (∀ c, c < 176 → accepts x (s.fwCore (7 * 256 + c)).image ∧ (s.fwCore (7 * 256 + c)).excluded = false) ∧
    ¬ accepts x (old.fwCore (7 * 256 + 160)).image ∧ accepts x x.second := by
  intro x fw s old
  have found : ∀ c, c < 176 → s.fwCore (7 * 256 + c) = fw := fun c h => by
    have : ∀ c < 176, tabFind (((List.range 176).map (1792 + ·)).map (fun c => (c, ()))) (7 * 256 + c) = some () := by
      decide +kernel
    show (tabFind (((List.range 176).map (1792 + ·)).map (fun c => (c, fw))) (7 * 256 + c)).getD FwCore.empty = fw
    rw [tabFind_same, this c h]
    rfl
  refine ⟨rfl, fun c h => ?_, fun h => absurd h.2.2 (by decide +kernel), ⟨rfl, rfl, Nat.le_refl 2⟩⟩
  rw [found c h]
  exact ⟨⟨rfl, rfl, Nat.le_refl 2⟩, rfl⟩
/-- O53: a panel that is ready; bytes of HBM; queue 1023; a queue that is locked and one that is not. -/
theorem witness_HostAccesses :
    let s := node (act [])
    (s.panel 0).state ≠ .off ∧ (s.panel 0).state = .ready ∧ (s.panel 0).state ≠ .serviceOnly ∧ 1023 < 1024 ∧
      s.memoryWf = true ∧ s.backed 0 0x1000 = true ∧
    (s.panel 0).hostAddress 0x1000 = 0x1000 ∧ (∀ i < 2, s.backed 0 (0x1000 + i) = true) ∧
    (∀ l ∈ linesOf 0x1000 2, s.frozenAt (128 * l) = false) ∧
    ({ s with dies := [(0, { Die.empty with mig := [⟨0, 0x200000, 0x200000, 4, none, 0, [], true, false, true⟩] })] } : State).frozenAt 0x1000 = true ∧
    (s.queue 0 1023).lock = false ∧
    ((queued { Queue.empty with lock := true } [] []).queue 0 0).lock = true ∧
    (∀ r ∈ [((0x10000 : Nat), (0x10000 : Nat))], r.1 % 2 ^ 16 = 0 ∧ r.2 % 2 ^ 16 = 0) := by decide +kernel
/-- O54: `add` in slot 0 of the compute core of VT 0, whose turn it is; the same on firmware core 0; an event; a cycle. -/
theorem witness_StepRunsDecoded :
    let s : State := { coded (act [(5, 1)]) 0x100000 [0xC8214D00] with sched := [.issue 0 false] }
    let s0 : State := { s with sched := [] }
    let s2 : State := { s0 with cur := 5 }
    let s3 := fetched s2 0x100000 0xC8214D00 4
    let s4 := s3.needVectors (usedRegs 0xC8214D00 4 (.add 4 5 6 true))
    s.sched = .issue 0 false :: [] ∧ s0.mayRun 0 false = true ∧
    s0.paced 0 (s0.core 0 false).sinceIssue (s0.core 0 false).sinceBlock = true ∧ (s0.urgentStart 0 false).getD s0 = s0 ∧
    s0.chooseSlot 0 false = some (0, 5) ∧ s2.act? 5 = some (act [(5, 1)]) ∧ (act [(5, 1)]).spent = false ∧
    readsAt s2 0x100000 0xC8214D00 4 (.add 4 5 6 true) ∧ checkWindow257 s3 = .ok () ∧
    (match exec (.add 4 5 6 true) (issuing s4 (act [(5, 1)]) 0 0xC8214D00 4) with
      | .next t => t.retries 5 | _ => true) = false := by
  refine ⟨rfl, ?_, ?_, ?_, ?_, rfl, rfl, ⟨0xC821, rfl, .inl ⟨rfl, rfl, rfl, rfl⟩⟩, rfl, ?_⟩
  all_goals decide +kernel
theorem witness_StepRunsDecoded_compact : readsAt { coded (act []) 0x100000 [0x42230000] with cur := 5 } 0x100000 0x4223 2 (.cAdd 2 2 3) :=
  ⟨0x4223, rfl, .inr ⟨rfl, rfl, rfl, rfl⟩⟩
/-- O54: a firmware core under the brake whose last issue was 16 cycles ago; an event. -/
theorem witness_StepRunsDecoded_others :
    let x : Act := { fwAct [(5, 1)] with pc := BitVec.ofNat 64 (fwBase 0) }
    let t : State := firm x
    let s : State := { t with
      phys := words (fwBase 0) [0xC8214D00], sched := [.issueFw 0], fws := [(0, FwCore.empty)]
      panels := [(0, { t.panel 0 with swbrake := true })] }
    let s0 : State := { s with sched := [], cur := Config.fwKey }
    let s1 : State := s0.setFw 0 { s0.fwCore 0 with sinceIssue := 0 }
    s.sched = .issueFw 0 :: [] ∧ (s.panel 0).brake = true ∧ 16 ≤ (s0.fwCore 0).sinceIssue ∧ (s0.fwCore 0).halted = false ∧
      (s0.fwCore 0).idle = false ∧ (s0.fwCore 0).stopped = false ∧
    (s0.fwCore 0).excluded = false ∧ s0.act? Config.fwKey = some x ∧ s0.ready = true ∧
    readsAt s1 x.pc 0xC8214D00 4 (.add 4 5 6 true) ∧ encode (.epochTimer 0) = [] ∧ s1.eventOpen (.epochTimer 0) = true ∧
    (got (exec (.epochTimer 0) s1) (fun _ => true)) = some true := by
  refine ⟨rfl, rfl, by decide +kernel, rfl, rfl, rfl, rfl, rfl, by decide +kernel, ⟨0xC821, rfl, .inl ⟨rfl, rfl, rfl, rfl⟩⟩, rfl, rfl,
    by decide +kernel⟩
/-- O56: a well-formed instruction that has a word. -/
theorem witness_RoundTrip : (Instr.mma 3 23 4 10 true true true).wellFormed = true ∧
    encode (Instr.mma 3 23 4 10 true true true) ≠ [] := by decide
/-- O59: the invariant holds of a state with an activation, tokens of queues and code, and a step answers from it. -/
theorem witness_InvariantKept : Inv (coded (act []) 0x100000 [0xC8214D00]) ∧
    (got (step (coded (act []) 0x100000 [0xC8214D00])) (fun _ => true)) = some true := by
  refine ⟨⟨by decide +kernel, ?_, by decide +kernel⟩, by decide +kernel⟩
  intro e he
  simp only [coded, node, List.mem_singleton] at he
  subst he
  decide +kernel
/-- O60: an activation and a firmware core; a cause that parks and one that does not; an empty and a full queue. -/
theorem witness_ExceptionEntry :
    let s := node (act [])
    let full := onTile (act []) { tile0 with queues := tile0.queues.set 4 [0, 0, 0, 0] }
    s.act? 5 = some (act []) ∧ (act []).replica = false ∧ (act []).twin ≠ some 5 ∧ parks cTMISS = true ∧ parks cALIGN = false ∧
    (s.node 0 5).attempt.toNat + 1 ≤ (s.node 0 5).retry.toNat ∧ (act []).status.eff = false ∧ cALIGN ≠ cPOISON ∧
    checkQueues (act []) [16] [1] = .ok () ∧ queueOf 16 = some 0 ∧ (s.tile 0).visible 0 = 0 ∧
    checkQueues (act []) [1] [20] = .ok () ∧ queueOf 20 = some 4 ∧ 4 ≤ (full.tile 0).occupied 4 ∧
    (firm (fwAct [])).act? Config.fwKey = some (fwAct []) ∧ s.copying 0 5 = false ∧
    ((onTile (act []) { tile0 with stag := { tile0.stag with halted := true } }).tile 0).readerHalted 4 = true ∧
    queueNeeds [16] [1] ≠ [] := by
  and_intros <;> first | decide +kernel | rfl | exact ⟨rfl, rfl, rfl⟩

end Sys2Proof.Tests
end

section
/-! PROOF. Words that always trap (R35): what decoding and issuing do with them, from the decoder's reading of an
instruction's own encoding and from the outcome of a word whose checks fail. -/

namespace Sys2Proof

/-- A well-formed instruction of one 32-bit word is what the word decodes to. -/
theorem decodeWord_of_encode {i : Instr} {w : BitVec 32} (hs : Laws.Encodes.Statement i)
    (he : encode i = word32 w) (hwf : i.wellFormed = true) : decodeWord w = .ok i := by
  simp only [Laws.Encodes.Statement, he, word32, Laws.Encodes.halves_join] at hs
  obtain ⟨_, hword⟩ := hs
  simp [decodeWord, hword, hwf]

/-- A well-formed instruction of one halfword is what the halfword decodes to. -/
theorem decodeHalf_of_encode {i : Instr} {h : BitVec 16} (hs : Laws.Encodes.Statement i)
    (he : encode i = [h]) (hwf : i.wellFormed = true) : decodeHalf h = .ok i := by
  simp only [Laws.Encodes.Statement, he] at hs
  obtain ⟨_, hhalf⟩ := hs
  simp [decodeHalf, hhalf, hwf]

namespace Machine

variable {s : State} {a : Act}

/-- A context that has not stopped waits for nothing; tags on its registers do not matter here. -/
theorem Act.wait_of_runs (h : a.halting = false) : a.wait = .none := by
  simp only [Act.halting, Bool.or_eq_false_iff, bne_eq_false_iff_eq] at h
  obtain ⟨⟨hwait, _⟩, _⟩ := h
  exact hwait

/-- A word whose checks fail in a context that has not stopped takes its exception. -/
theorem issue_error (ha : s.act? s.cur = some a) (hr : a.halting = false) {f : State → Res State} {e : Trap}
    (hf : f s = .error e) : issue s f = .next (s.takeTrap s.cur e) := by
  have hretry : s.retrying a.wait = s := by rw [Act.wait_of_runs hr]; rfl
  simp [issue, ha, hretry, hf, State.finish]

end Machine

end Sys2Proof

open Sys2Proof Sys2Proof.Machine

/-- Settles O7: each word is the encoding of `udf` or `ill`, and the effect of either is the fault itself. -/
theorem undefinedWordsTrap : Obligations.UndefinedWordsTrap := by
  unfold Obligations.UndefinedWordsTrap
  intro y
  refine ⟨?decodesUdf, ?decodesIll, fun s x hx hruns => ⟨?execUdf, ?execIll⟩⟩
  case decodesUdf => exact decodeWord_of_encode (Laws.Encodes.udf y) rfl rfl
  case decodesIll => exact decodeHalf_of_encode Laws.Encodes.ill rfl rfl
  case execUdf => rw [exec_udf, execUdf, issue_error hx hruns rfl]
  case execIll => rw [exec_ill, execIll, issue_error hx hruns rfl]

end

section
/-! PROOF. Control transfers (R68 to R73): the words of major 0x02 and of the landing pad, the two outcomes of a transfer,
what a word read through the fetch path leaves, and the effects of jt, call and ret, each as what the issuing context
becomes or the exception it takes. -/

namespace Sys2Proof

open Sys2Proof.Machine Sys2Proof.Stated

/-! ### Words -/

/-- A word of major 0x02 is the branch of its condition in R70's table, or unassigned. -/
theorem word_branch (c : BitVec 4) (a b : BitVec 5) (off : BitVec 10) :
    Decode.word (0xC2#8 ++ c ++ a ++ b ++ off) = branchOps[c.toNat]?.map (fun p => p.1 a b off) := by
  have hword : Decode.word (0xC2#8 ++ c ++ a ++ b ++ off) = Decode.major02 (0xC2#8 ++ c ++ a ++ b ++ off) := by
    simp [Decode.word]
  rw [hword]
  simp only [Decode.major02, Laws.Encodes.extract_low, Laws.Encodes.extract_high, Nat.reduceAdd, Nat.reduceLeDiff,
    Nat.reduceSub, BitVec.extractLsb'_eq_self]
  match c.toNat with
  | 0 | 1 | 2 | 3 | 4 | 5 | 6 | 7 => rfl
  | _ + 8 => rfl

/-- The branches have no fields that a check refuses. -/
theorem branchOps_wellFormed {p} (hp : p ∈ branchOps) (a b : BitVec 5) (off : BitVec 10) :
    (p.1 a b off).wellFormed = true := by
  simp only [branchOps, List.mem_cons, List.not_mem_nil, or_false] at hp
  obtain rfl | rfl | rfl | rfl | rfl | rfl | rfl | rfl := hp <;> rfl

/-- A word of major 0x04 is the landing pad of its label, or unassigned. -/
theorem word_lpad (mid : BitVec 8) (lab : BitVec 16) :
    Decode.word (0xC4#8 ++ mid ++ lab) = if mid = 0 then some (.lpad lab) else none := by
  simp [Decode.word]

/-- A word without an instruction is refused. -/
theorem decodeWord_error {w : BitVec 32} (h : Decode.word w = none) : ∃ e, decodeWord w = .error e :=
  ⟨.unassigned32 w, by simp [decodeWord, h]⟩

/-- A word with a well-formed instruction is that instruction. -/
theorem decodeWord_ok {w : BitVec 32} {i : Instr} (h : Decode.word w = some i) (hwf : i.wellFormed = true) :
    decodeWord w = .ok i := by simp [decodeWord, h, hwf]

namespace Machine

variable {s : State} {x : Act}

/-! ### Transfers (R68 to R70) -/

@[simp] theorem State.finish_ok (s t : State) : s.finish (.ok t) = t := rfl
@[simp] theorem State.finish_error (s : State) (e : Trap) : s.finish (.error e) = s.takeTrap s.cur e := rfl

/-- A word of a context that has not stopped answers a next state, whatever tags its registers have. -/
theorem issue_runs (ha : s.act? s.cur = some x) (hr : x.halting = false) (f : State → Res State) :
    issue s f = .next (s.finish (f s)) := by
  have hretry : s.retrying x.wait = s := by rw [Act.wait_of_runs hr]; rfl
  simp only [issue, ha, hretry]

/-- The target of a branch is its PC plus twice its offset. -/
theorem branchTarget_eq (h : Issuing s x) (off : Word) : branchTarget s off = x.pc + off * 2 := by
  rw [branchTarget, h.here_eq, BitVec.shiftLeft_eq_mul_twoPow]
  rfl

/-- A check that holds lets an instruction go on. -/
theorem require_holds {b : Bool} (h : b = true) (code : BitVec 8) (v : Word) : require b code v = .ok () := by
  rw [require, if_pos h]

/-- A check that fails is the fault it names. -/
theorem require_fails {b : Bool} (h : b = false) (code : BitVec 8) (v : Word) :
    require b code v = .error (trapOf code v) := by simp [require, h]

theorem checkTransfer_canonical {target : Word} (h : target.toNat < 2 ^ 56) : checkTransfer target = .ok () :=
  require_holds (decide_eq_true h) _ _

theorem checkTransfer_noncanonical {target : Word} (h : 2 ^ 56 ≤ target.toNat) :
    checkTransfer target = .error (trapOf cNONCANON target) :=
  require_fails (decide_eq_false (Nat.not_lt.mpr h)) _ _

/-- The issuing context at another PC. -/
theorem State.goto_eq (h : s.act? s.cur = some x) (target : Word) :
    s.goto target = s.setAct s.cur { x with pc := target } := State.updHere_eq h _

/-- An unconditional transfer has the two outcomes of R68. -/
theorem goesTo_transfer (h : Issuing s x) (target : Word) : goesTo (.next (s.finish (transfer target s))) s x target := by
  constructor
  · intro hc
    simp [transfer, checkTransfer_canonical hc, State.goto_eq h.here, bind, Except.bind, pure, Except.pure]
  · intro hc
    simp [transfer, checkTransfer_noncanonical hc, bind, Except.bind]

/-- A branch whose condition holds is a transfer. -/
theorem goesTo_branchIf (h : Issuing s x) {cond : State → Bool} (hc : cond s = true) (off n : Word) :
    goesTo (.next (s.finish (branchIf cond off n s))) s x (x.pc + off * 2) := by
  rw [branchIf, if_pos hc, branchTarget_eq h]
  exact goesTo_transfer h _

/-- A branch whose condition fails goes on, whatever its target. -/
theorem finish_branchIf_fails (h : Issuing s x) {cond : State → Bool} (hc : cond s = false) (off n : Word) :
    s.finish (branchIf cond off n s) = s.after x n := by
  simp [branchIf, hc, State.advance, State.updHere_eq h.here, State.after]

/-- Each entry of R70's table is the branch on its condition. -/
theorem exec_branchOps {p} (hp : p ∈ branchOps) (a b : BitVec 5) (off : BitVec 10) (s : State) :
    exec (p.1 a b off) s = branchRR a b p.2 off s := by
  simp only [branchOps, List.mem_cons, List.not_mem_nil, or_false] at hp
  obtain rfl | rfl | rfl | rfl | rfl | rfl | rfl | rfl := hp
  · rfl
  · rfl
  · rfl
  · simp only [exec_bge, execBge, BitVec.sle_eq_not_slt]
  · rfl
  · simp only [exec_bgeu, execBgeu, BitVec.ule_eq_not_ult]
  · rfl
  · rfl

/-- A conditional branch on two registers of an issuing context. -/
theorem branchRR_eq (h : Issuing s x) (a b : BitVec 5) (cond : Word → Word → Bool) (off : BitVec 10) :
    branchRR a b cond off s =
      .next (s.finish (branchIf (fun s => cond (s.w a) (s.w b)) (off.signExtend 64) 4 s)) := by
  simp only [branchRR, issue_issuing h, withRegs_untagged h.untagged]

/-- br of an issuing context. -/
theorem execBr_eq (h : Issuing s x) (imm : BitVec 24) :
    execBr imm s = .next (s.finish (transfer (x.pc + imm.signExtend 64 * 2) s)) := by
  simp only [execBr, issue_issuing h, branchTarget_eq h]

/-- c.br of an issuing context. -/
theorem execCBr_eq (h : Issuing s x) (off : BitVec 12) :
    execCBr off s = .next (s.finish (transfer (x.pc + off.signExtend 64 * 2) s)) := by
  simp only [execCBr, issue_issuing h, branchTarget_eq h]

/-- c.beqz of an issuing context. -/
theorem execCBeqz_eq (h : Issuing s x) (a : BitVec 4) (off : BitVec 8) :
    execCBeqz a off s =
      .next (s.finish (branchIf (fun s => s.w (a.setWidth 5) == 0) (off.signExtend 64) 2 s)) := by
  simp only [execCBeqz, issue_issuing h, withRegs_untagged h.untagged]

/-- c.bnez of an issuing context. -/
theorem execCBnez_eq (h : Issuing s x) (a : BitVec 4) (off : BitVec 8) :
    execCBnez a off s =
      .next (s.finish (branchIf (fun s => s.w (a.setWidth 5) != 0) (off.signExtend 64) 2 s)) := by
  simp only [execCBnez, issue_issuing h, withRegs_untagged h.untagged]

/-! ### Words read through the fetch path (R63, R73) -/

/-- Filling an L1 TLB changes no activation. -/
theorem State.touchTlb_acts (s : State) (va : Nat) : (s.touchTlb va).acts = s.acts ∧ (s.touchTlb va).cur = s.cur := by
  simp only [State.touchTlb]
  split
  · exact ⟨rfl, rfl⟩
  · split <;> exact ⟨rfl, rfl⟩

/-- Filling an instruction cache changes no activation. -/
theorem State.fillCode_acts (s : State) (pc : Word) (hs : List (BitVec 16)) :
    (s.fillCode pc hs).acts = s.acts ∧ (s.fillCode pc hs).cur = s.cur := by
  simp only [State.fillCode]
  split <;> exact ⟨rfl, rfl⟩

theorem State.tookWord_acts (s : State) (pc : Word) (w : BitVec 32) : (s.tookWord pc w).acts = s.acts := by
  simp only [State.tookWord, State.fillCode_acts, State.touchTlb_acts]

theorem State.tookWord_cur (s : State) (pc : Word) (w : BitVec 32) : (s.tookWord pc w).cur = s.cur := by
  simp only [State.tookWord, State.fillCode_acts, State.touchTlb_acts]

/-- Reading a word leaves the issuing context. -/
theorem State.tookWord_here (h : s.act? s.cur = some x) (pc : Word) (w : BitVec 32) :
    (s.tookWord pc w).act? (s.tookWord pc w).cur = some x := by
  rw [State.act?, State.tookWord_acts, State.tookWord_cur]
  exact h

/-- A word of a table at a canonical address that the fetch path reads. -/
theorem tableWord_ok {at0 : Word} {w : BitVec 32} (hc : at0.toNat < 2 ^ 56) (hf : fetchWord s at0 = .ok w) :
    tableWord s at0 = .ok (w, s.tookWord at0 w) := by
  simp [tableWord, checkTransfer_canonical hc, hf, bind, Except.bind, pure, Except.pure]

/-! ### Jump tables (R73) -/

section JumpTable

variable {a : BitVec 5} {imm : BitVec 14} {tab target : Word} {hdr disp w : BitVec 32}

/-- The checks of a jt after the words of its table (`jumpTable_entry`): the target's, and the landing pad's. -/
def landAt (target : Word) (label : BitVec 16) (s : State) : Res State := do
  checkTransfer target
  require (!target.getLsbD 0) cLANDING target
  let w ← fetchWord s target
  require (w == (0xC400#16 ++ label)) cLANDING target
  return (s.tookWord target w).goto target

theorem landAt_odd (hc : target.toNat < 2 ^ 56) (ho : target.getLsbD 0 = true) (label : BitVec 16) (s : State) :
    landAt target label s = .error (trapOf cLANDING target) := by
  rw [landAt, checkTransfer_canonical hc, require_fails (by rw [ho]; rfl)]
  rfl

theorem landAt_noPad (hc : target.toNat < 2 ^ 56) (he : target.getLsbD 0 = false) (hf : fetchWord s target = .ok w)
    {label : BitVec 16} (hw : w ≠ 0xC400#16 ++ label) : landAt target label s = .error (trapOf cLANDING target) := by
  rw [landAt, checkTransfer_canonical hc, require_holds (by rw [he]; rfl), hf]
  simp [require_fails (beq_false_of_ne hw), bind, Except.bind]

theorem landAt_pad (h : s.act? s.cur = some x) (hc : target.toNat < 2 ^ 56) (he : target.getLsbD 0 = false)
    (hf : fetchWord s target = .ok w) {label : BitVec 16} (hw : w = 0xC400#16 ++ label) :
    landAt target label s = .ok ((s.tookWord target w).setAct s.cur { x with pc := target }) := by
  rw [landAt, checkTransfer_canonical hc, require_holds (by rw [he]; rfl), hf]
  simp [require_holds (beq_iff_eq.mpr hw), bind, Except.bind, pure, Except.pure,
    State.goto_eq (State.tookWord_here h target w), State.tookWord_cur]

/-- A jt of an issuing context is its effect alone. -/
theorem execJt_eq (h : Issuing s x) (a : BitVec 5) (imm : BitVec 14) :
    execJt a imm s = .next (s.finish (jumpTable a imm s)) := by
  simp only [execJt, issue_issuing h, withRegs_untagged h.untagged]

/-- An index past the count of the table. -/
theorem jumpTable_pastCount (h : Issuing s x) (htab : x.pc + imm.signExtend 64 * 2 = tab) (hc : tab.toNat < 2 ^ 56)
    (hf : fetchWord s tab = .ok hdr) (hi : (hdr.extractLsb' 16 16).toNat ≤ (x.wreg a).toNat) :
    jumpTable a imm s = .error (trapOf cBOUNDS (x.wreg a)) := by
  have ht : s.here.pc + (imm.signExtend 64 <<< 1) = tab := (branchTarget_eq h _).trans htab
  have hw : (s.tookWord tab hdr).w a = x.wreg a := State.w_eq (State.tookWord_here h.here tab hdr) a
  simp only [jumpTable, ht, tableWord_ok hc hf, hw, require_fails (decide_eq_false (Nat.not_lt.mpr hi)), bind, Except.bind]

/-- An index that the table has: the header and the entry are read, and the target's checks follow. -/
theorem jumpTable_entry (h : Issuing s x) (htab : x.pc + imm.signExtend 64 * 2 = tab) (hc : tab.toNat < 2 ^ 56)
    (hf : fetchWord s tab = .ok hdr) (hi : (x.wreg a).toNat < (hdr.extractLsb' 16 16).toNat)
    (hce : (tab + 4 + x.wreg a * 4).toNat < 2 ^ 56)
    (hfe : fetchWord (s.tookWord tab hdr) (tab + 4 + x.wreg a * 4) = .ok disp) :
    jumpTable a imm s = landAt (tab + disp.signExtend 64) (hdr.extractLsb' 0 16)
      ((s.tookWord tab hdr).tookWord (tab + 4 + x.wreg a * 4) disp) := by
  have ht : s.here.pc + (imm.signExtend 64 <<< 1) = tab := (branchTarget_eq h _).trans htab
  have hw : (s.tookWord tab hdr).w a = x.wreg a := State.w_eq (State.tookWord_here h.here tab hdr) a
  have hentry : tab + 4 + (x.wreg a <<< 2) = tab + 4 + x.wreg a * 4 :=
    congrArg (tab + 4 + ·) (BitVec.shiftLeft_eq_mul_twoPow _ _)
  simp only [jumpTable, ht, tableWord_ok hc hf, hw, hentry, require_holds (decide_eq_true hi), tableWord_ok hce hfe,
    landAt, bind, Except.bind]

end JumpTable

/-! ### Calls and returns (R69, R71) -/

theorem callTo_noncanonical {target : Word} (hc : 2 ^ 56 ≤ target.toNat) (s : State) :
    callTo target s = .error (trapOf cNONCANON target) := by
  rw [callTo, checkTransfer_noncanonical hc]
  rfl

theorem callTo_full (h : Issuing s x) {target : Word} (hc : target.toNat < 2 ^ 56) (hd : 8 ≤ x.status.cdepth.toNat) :
    callTo target s = .error (trapOf cCALLDEPTH target) := by
  rw [callTo, checkTransfer_canonical hc, h.here_eq]
  simp only [require_fails (decide_eq_false (Nat.not_lt.mpr hd)), bind, Except.bind]

theorem callTo_pushes (h : Issuing s x) {target : Word} (hc : target.toNat < 2 ^ 56) (hd : x.status.cdepth.toNat < 8) :
    callTo target s = .ok (s.setAct s.cur
      { (x.setW 31 (x.pc + 4)) with
        shadow := x.shadow.set x.status.cdepth.toNat (x.pc + 4) hd
        status := { x.status with cdepth := x.status.cdepth + 1 }
        pc := target }) := by
  rw [callTo, checkTransfer_canonical hc, h.here_eq]
  simp only [require_holds (decide_eq_true hd), State.updHere_eq h.here, Nat.mod_eq_of_lt hd, bind, Except.bind, pure,
    Except.pure]

/-- A call of an issuing context is its effect alone. -/
theorem execCall_eq (h : Issuing s x) (imm : BitVec 24) :
    execCall imm s = .next (s.finish (callTo (x.pc + imm.signExtend 64 * 2) s)) := by
  simp only [execCall, issue_issuing h, withRegs_untagged h.untagged, branchTarget_eq h]

/-- Both forms of a return of an issuing context are their effect alone. -/
theorem exec_returns (h : Issuing s x) {i : Instr} (hi : i ∈ [Instr.ret, Instr.cRet]) :
    exec i s = .next (s.finish (returnFrom s)) := by
  have hbody : issue s (withRegs [31] [] returnFrom) = .next (s.finish (returnFrom s)) := by
    rw [issue_issuing h, withRegs_untagged h.untagged]
  simp only [List.mem_cons, List.not_mem_nil, or_false] at hi
  obtain rfl | rfl := hi
  · exact hbody
  · exact hbody

theorem returnFrom_empty (h : Issuing s x) (hd : x.status.cdepth.toNat = 0) :
    returnFrom s = .error (trapOf cRETMISMATCH (x.wreg 31)) := by
  have hempty : decide (x.status.cdepth ≠ 0) = false := decide_eq_false (fun hne => hne (BitVec.eq_of_toNat_eq hd))
  simp only [returnFrom, h.here_eq, require_fails hempty, bind, Except.bind]

/-- The top entry of a shadow stack that is not empty, as the model counts modulo its eight entries. -/
theorem shadow_top {d : Nat} (hd : 0 < d ∧ d ≤ 8) : (d + 7) % 8 = d - 1 := by omega

theorem cdepth_ne_zero (hd : 0 < x.status.cdepth.toNat) : x.status.cdepth ≠ 0 := by
  intro h0
  simp [h0] at hd

theorem returnFrom_mismatch (h : Issuing s x) (hd : 0 < x.status.cdepth.toNat ∧ x.status.cdepth.toNat ≤ 8)
    (hne : x.shadow[x.status.cdepth.toNat - 1]'(by omega) ≠ x.wreg 31) :
    returnFrom s = .error (trapOf cRETMISMATCH (x.wreg 31)) := by
  simp only [returnFrom, h.here_eq, require_holds (decide_eq_true (cdepth_ne_zero hd.1)), shadow_top hd,
    require_fails (decide_eq_false hne), bind, Except.bind]

theorem returnFrom_pops (h : Issuing s x) (hd : 0 < x.status.cdepth.toNat ∧ x.status.cdepth.toNat ≤ 8)
    (heq : x.shadow[x.status.cdepth.toNat - 1]'(by omega) = x.wreg 31) :
    returnFrom s = .ok (s.setAct s.cur
      { x with status := { x.status with cdepth := x.status.cdepth - 1 }, pc := evenPc (x.wreg 31) }) := by
  simp only [returnFrom, h.here_eq, require_holds (decide_eq_true (cdepth_ne_zero hd.1)), shadow_top hd, heq, decide_true,
    require_holds rfl, State.updHere_eq h.here, bind, Except.bind, pure, Except.pure]

/-- The PC keeps every bit of a value put into it but bit 0, which it drops (log 65). -/
theorem evenPc_getLsbD (v : Word) (k : Nat) : (evenPc v).getLsbD k = (decide (0 < k) && v.getLsbD k) := by
  by_cases hk : k < 64
  · cases k with
    | zero => simp [evenPc, -BitVec.getLsbD_eq_getElem]
    | succ k => simp [evenPc, hk, -BitVec.getLsbD_eq_getElem, -BitVec.reduceNot]
  · simp [BitVec.getLsbD_of_ge _ _ (Nat.not_lt.mp hk)]

theorem evenPc_even {v : Word} (h : v.getLsbD 0 = false) : evenPc v = v := by
  apply BitVec.eq_of_getLsbD_eq
  intro k _
  rw [evenPc_getLsbD]
  cases k with
  | zero => simp only [h, Bool.and_false]
  | succ k => simp

theorem evenPc_odd {v : Word} (h : v.getLsbD 0 = true) : evenPc v = v - 1 := by
  have hdisj : evenPc v &&& 1#64 = 0#64 := by
    rw [evenPc, BitVec.and_assoc]
    simp
  have hor : evenPc v ||| 1#64 = v := by
    apply BitVec.eq_of_getLsbD_eq
    intro k _
    rw [BitVec.getLsbD_or, evenPc_getLsbD]
    cases k with
    | zero => rw [h]; rfl
    | succ k => simp
  have hsum : evenPc v + 1#64 = v := (BitVec.add_eq_or_of_and_eq_zero _ _ hdisj).trans hor
  exact BitVec.eq_sub_iff_add_eq.mpr hsum

end Machine

end Sys2Proof

open Sys2Proof Sys2Proof.Machine Sys2Proof.Stated

/-- Settles O5: the landing pad's word by the decoder's reading of major 0x04; its effect is the advance of the PC. -/
theorem landingPad : Obligations.LandingPad := by
  unfold Obligations.LandingPad
  intro lab mid
  refine ⟨?decodes, fun hmid => ?illegal, fun s x hx hruns => ?effect⟩
  case decodes => exact decodeWord_ok (word_lpad 0 lab) rfl
  case illegal => exact decodeWord_error (by rw [word_lpad, if_neg hmid])
  case effect => rw [exec_lpad, execLpad, issue_runs hx hruns, State.finish_ok, State.done_runs hx hruns]

/-- Settles O4: the words by R70's table, each transfer by its two outcomes, jt by what its table's words lead to, and calls
and returns by their effects at each depth of the shadow stack; `evenPc_odd` is the clause of log 65. -/
theorem controlTransfers : Obligations.ControlTransfers := by
  unfold Obligations.ControlTransfers
  refine ⟨fun a b off => ⟨fun c => ⟨fun p hp => ?assigned, fun hc => ?illegal⟩, fun p hp s x h => ?branch⟩,
    fun s x h imm a off8 off12 => ?offsets,
    fun s x h a imm hdr disp w => ?table,
    fun s x h imm => ⟨fun hc => ?callNoncanonical, fun hc hd => ?callFull, fun hc hd => ?callPushes,
      fun i hi => ⟨fun hd => ?returnEmpty, fun hd => ⟨fun hne => ?returnMismatch, fun heq => ?returnPops⟩⟩⟩⟩
  case assigned =>
    exact decodeWord_ok (by rw [word_branch, hp]; rfl) (branchOps_wellFormed (List.mem_of_getElem? hp) a b off)
  case illegal => exact decodeWord_error (by rw [word_branch, List.getElem?_eq_none hc]; rfl)
  case branch =>
    rw [exec_branchOps hp, branchRR_eq h]
    refine ⟨fun hcond => ?fails, fun hcond => ?holds⟩
    case fails => rw [finish_branchIf_fails h (by rw [State.w_eq h.here, State.w_eq h.here, hcond])]
    case holds => exact goesTo_branchIf h (by rw [State.w_eq h.here, State.w_eq h.here, hcond]) _ _
  case offsets =>
    rw [exec_br, execBr_eq h, exec_cBr, execCBr_eq h, exec_cBeqz, execCBeqz_eq h, exec_cBnez, execCBnez_eq h]
    refine ⟨goesTo_transfer h _, goesTo_transfer h _, fun hzero => ⟨?_, ?_⟩, fun hnonzero => ⟨?_, ?_⟩⟩
    · exact goesTo_branchIf h (by rw [State.w_eq h.here, hzero]; rfl) _ _
    · rw [finish_branchIf_fails h (by rw [State.w_eq h.here, hzero]; rfl)]
    · exact goesTo_branchIf h (by rw [State.w_eq h.here]; exact bne_iff_ne.mpr hnonzero) _ _
    · rw [finish_branchIf_fails h (by rw [State.w_eq h.here]; exact beq_false_of_ne hnonzero)]
  case table =>
    intro tab entry target r1 r2 hctab hhdr
    rw [exec_jt, execJt_eq h]
    refine ⟨fun hi => ?pastCount, fun hi hcentry hdisp hctarget => ?inTable⟩
    case pastCount => rw [jumpTable_pastCount h rfl hctab hhdr hi, State.finish_error]
    case inTable =>
      have hr2 : r2.act? r2.cur = some x := State.tookWord_here (State.tookWord_here h.here tab hdr) entry disp
      have hcur : r2.cur = s.cur := (r1.tookWord_cur entry disp).trans (s.tookWord_cur tab hdr)
      rw [jumpTable_entry h rfl hctab hhdr hi hcentry hdisp]
      refine ⟨fun hodd => ?odd, fun heven hw => ⟨fun hne => ?noPad, fun heq => ?pad⟩⟩
      case odd => rw [landAt_odd hctarget hodd, State.finish_error]
      case noPad => rw [landAt_noPad hctarget heven hw hne, State.finish_error]
      case pad => rw [landAt_pad hr2 hctarget heven hw heq, State.finish_ok, hcur]
  case callNoncanonical => rw [exec_call, execCall_eq h, callTo_noncanonical hc, State.finish_error]
  case callFull => rw [exec_call, execCall_eq h, callTo_full h hc hd, State.finish_error]
  case callPushes => rw [exec_call, execCall_eq h, callTo_pushes h hc hd, State.finish_ok]
  case returnEmpty => rw [exec_returns h hi, returnFrom_empty h hd, State.finish_error]
  case returnMismatch => rw [exec_returns h hi, returnFrom_mismatch h hd hne, State.finish_error]
  case returnPops =>
    rw [exec_returns h hi, returnFrom_pops h hd heq, State.finish_ok]
    refine ⟨fun heven => ?even, fun hodd => ?odd⟩
    case even => rw [evenPc_even heven]
    case odd => rw [evenPc_odd hodd]

end

section
/-! PROOF. The beam instructions (R192 to R198): what a context that blocks keeps, then each beam instruction by the cases
of R198's table, with the group checks of R192 before them. -/

namespace Sys2Proof

open Sys2Proof.Machine Sys2Proof.Stated

namespace Machine

variable {s t u : State} {x y : Act} {w : Waiting} {code : BitVec 3}

/-! ### Blocking (R62, R80, R183)

An urgent context that blocks gives its slot back and others move into the free slots; none of this touches its wait, its
PC or its registers. -/

/-- `y` waits as `w` with the PC and the registers of `x`. -/
structure Act.WaitsAs (y x : Act) (w : Waiting) (code : BitVec 3) : Prop where
  wait   : y.wait = w
  reason : y.status.wait = code
  pc     : y.pc = x.pc
  regs   : y.w = x.w ∧ y.v = x.v ∧ y.m = x.m ∧ y.e = x.e

/-- In `t` the issuing context of `s` waits as `w` with the PC and the registers of `x`, and the memory is that of `s`. -/
structure State.Waits (t s : State) (x : Act) (w : Waiting) (code : BitVec 3) : Prop where
  context : ∃ y, t.act? s.cur = some y ∧ y.WaitsAs x w code
  cur     : t.cur = s.cur
  phys    : t.phys = s.phys

theorem State.act?_updAct_same {k : Nat} (h : s.act? k = some x) (f : Act → Act) :
    (s.updAct k f).act? k = some (f x) := by simp [State.updAct, h]

theorem State.act?_updAct_ne (s : State) {k j : Nat} (h : j ≠ k) (f : Act → Act) : (s.updAct k f).act? j = s.act? j := by
  unfold State.updAct
  split
  case h_1 => exact State.act?_setAct_ne s _ h
  case h_2 => rfl

@[simp] theorem State.updAct_cur (s : State) (k : Nat) (f : Act → Act) : (s.updAct k f).cur = s.cur := by
  unfold State.updAct; split <;> rfl

@[simp] theorem State.updAct_phys (s : State) (k : Nat) (f : Act → Act) : (s.updAct k f).phys = s.phys := by
  unfold State.updAct; split <;> rfl

/-- A change of activations that keeps the wait, the PC and the registers of one that waits so. -/
theorem State.Waits.updAct (h : t.Waits s x w code) (k : Nat) {f : Act → Act}
    (hf : ∀ y, y.WaitsAs x w code → (f y).WaitsAs x w code) : (t.updAct k f).Waits s x w code := by
  obtain ⟨⟨y, hy, hwaits⟩, hcur, hphys⟩ := h
  refine ⟨?_, by simpa using hcur, by simpa using hphys⟩
  by_cases hk : s.cur = k
  · exact ⟨f y, hk ▸ State.act?_updAct_same hy f, hf y hwaits⟩
  · exact ⟨y, (t.act?_updAct_ne hk f).trans hy, hwaits⟩

/-- A change of a core changes no activation. -/
theorem State.Waits.updCore (h : t.Waits s x w code) (tile : Nat) (stg : Bool) (f : Core → Core) :
    (t.updCore tile stg f).Waits s x w code := ⟨h.context, h.cur, h.phys⟩

theorem State.Waits.leaveSlot (h : t.Waits s x w code) (k : Nat) : (t.leaveSlot k).Waits s x w code := by
  simp only [State.leaveSlot]
  exact h.updCore _ _ _

theorem State.Waits.putInSlot (h : t.Waits s x w code) (hw : w ≠ .none) (tile : Nat) (stg : Bool) (n : BitVec 2) (k : Nat) :
    (t.putInSlot tile stg n k).Waits s x w code := by
  refine (h.updCore tile stg _).updAct k (fun y hy => ⟨hy.wait, ?_, hy.pc, hy.regs⟩)
  simp [hy.wait, hy.reason, hw]

theorem State.Waits.refillOnce (h : t.Waits s x w code) (hw : w ≠ .none) (tile : Nat) (stg : Bool) :
    (t.refillOnce tile stg).Waits s x w code := by
  simp only [State.refillOnce]
  split
  case h_1 => exact (h.updCore _ _ _).putInSlot hw _ _ _ _
  case h_2 => exact (h.updCore _ _ _).putInSlot hw _ _ _ _
  case h_3 => exact h

theorem State.Waits.refill (h : t.Waits s x w code) (hw : w ≠ .none) (tile : Nat) (stg : Bool) :
    (t.refill tile stg).Waits s x w code :=
  (((h.refillOnce hw _ _).refillOnce hw _ _).refillOnce hw _ _).refillOnce hw _ _

/-- The issuing context begins to wait. -/
theorem State.waits_updAct (hx : u.act? s.cur = some x) (hcur : u.cur = s.cur) (hphys : u.phys = s.phys) {f : Act → Act}
    (hf : (f x).WaitsAs x w code) : (u.updAct s.cur f).Waits s x w code :=
  ⟨⟨f x, State.act?_updAct_same hx f, hf⟩, (u.updAct_cur _ f).trans hcur, (u.updAct_phys _ f).trans hphys⟩

/-- The issuing context blocks, in a state that differs from the first in neither it nor the memory. -/
theorem State.waits_block (hx : u.act? s.cur = some x) (hcur : u.cur = s.cur) (hphys : u.phys = s.phys) (hw : w ≠ .none)
    (code wq : BitVec 3) : (u.block s.cur w code wq).Waits s x w code := by
  unfold State.block
  extract_lets v b vl
  have hv : v.Waits s x w code := State.waits_updAct hx hcur hphys ⟨rfl, rfl, rfl, rfl, rfl, rfl, rfl⟩
  split
  case isTrue =>
    refine State.Waits.refill ?_ hw _ _
    exact (hv.leaveSlot s.cur).updAct _ (fun y hy => ⟨hy.wait, hy.reason, hy.pc, hy.regs⟩)
  case isFalse => exact hv

/-- A word whose effect ends in a wait of its context blocks it: the PC does not move. -/
theorem plainInstr_blocks (h : Issuing s x) {f : State → Res State} {wq : BitVec 3}
    (hf : f s = .ok (u.block s.cur w code wq)) (hx : u.act? s.cur = some x) (hcur : u.cur = s.cur) (hphys : u.phys = s.phys)
    (hw : w ≠ .none) (r l : List Nat) : blocks (plainInstr r l f s) s x w code := by
  obtain ⟨⟨y, hy, hwait, hcode, hpc, hrw, hrv, hrm, hre⟩, htcur, htphys⟩ := State.waits_block hx hcur hphys hw code wq
  have hhalts : y.halting = true := by simp [Act.halting, hwait, hw]
  have hdone := State.done_halts (n := 4) (by rw [htcur, hy]) hhalts
  exact ⟨_, y, by rw [plainInstr_ok h hf, hdone], hy, hwait, hcode, hpc, hrw, hrv, hrm, hre, htphys⟩

/-! ### Words of one effect -/

/-- A word that leaves its context going on. -/
theorem plainInstr_after (h : Issuing s x) {f : State → Res State} (hf : f s = .ok t) (hy : t.act? t.cur = some y)
    (hruns : y.halting = false) (r l : List Nat) : plainInstr r l f s = .next (t.after y 4) := by
  rw [plainInstr_ok h hf, State.done_runs hy hruns]

/-- A context that is no replica runs the instruction itself (R353). -/
theorem originalOnly_eq (h : s.act? s.cur = some x) (hr : x.replica = false) (f : State → Res State) :
    originalOnly f s = f s := by simp [originalOnly, State.here_eq h, hr]

theorem plainInstr_original (h : Issuing s x) (hr : x.replica = false) (f : State → Res State) (r l : List Nat) :
    plainInstr r l (originalOnly f) s = plainInstr r l f s := by
  simp only [plainInstr, issue_issuing h, withRegs_untagged h.untagged, originalOnly_eq h.here hr]

/-! ### The group of a beam instruction (R192) -/

section Group

variable (h : Issuing s x) (hfw : x.fw = false) {g : Word}
include h hfw

theorem nodeOnly_ok : nodeOnly s = .ok () := require_holds (by rw [h.here_eq, hfw]; rfl) _ _

theorem checkGroup_ok (hg : groupOk s x g) : checkGroup s g = .ok g.toNat := by
  obtain ⟨hlt, hasid⟩ := hg
  rw [checkGroup, nodeOnly_ok h hfw, require_holds (decide_eq_true hlt), h.here_eq, require_holds (decide_eq_true hasid)]
  rfl

theorem checkGroup_bounds (hg : 16 ≤ g.toNat) : checkGroup s g = .error (trapOf cBOUNDS g) := by
  rw [checkGroup, nodeOnly_ok h hfw, require_fails (decide_eq_false (Nat.not_lt.mpr hg))]
  rfl

theorem checkGroup_perm (hlt : g.toNat < 16) (hasid : (s.group (x.dt / 4096) g.toNat).asid ≠ some x.asid) :
    checkGroup s g = .error (trapOf cPERM g) := by
  rw [checkGroup, nodeOnly_ok h hfw, require_holds (decide_eq_true hlt), h.here_eq, require_fails (decide_eq_false hasid)]
  rfl

end Group

/-- Every beam instruction takes the fault of its group's checks. -/
theorem exec_beam_error (h : Issuing s x) (hr : x.replica = false) {d a b : BitVec 5} {e : Trap}
    (he : checkGroup s (x.wreg a) = .error e) {i : Instr}
    (hi : i ∈ [Instr.bmjoin a b, .bmarr a, .bmwait a, .bmq d a, .bmleave a]) :
    exec i s = .next (s.takeTrap s.cur e) := by
  have hgroup : checkGroup s (s.w a) = .error e := by rw [State.w_eq h.here, he]
  simp only [List.mem_cons, List.not_mem_nil, or_false] at hi
  obtain rfl | rfl | rfl | rfl | rfl := hi
  · rw [exec_bmjoin, execBmjoin, plainInstr_original h hr, plainInstr_error h (by rw [beamJoin, hgroup]; rfl)]
  · rw [exec_bmarr, execBmarr, plainInstr_original h hr, plainInstr_error h (by rw [beamArrive, hgroup]; rfl)]
  · rw [exec_bmwait, execBmwait, plainInstr_original h hr, plainInstr_error h (by rw [beamWait, hgroup]; rfl)]
  · rw [exec_bmq, execBmq, plainInstr_original h hr, plainInstr_error h (by rw [beamQuery, hgroup]; rfl)]
  · rw [exec_bmleave, execBmleave, plainInstr_original h hr, plainInstr_error h (by rw [beamLeave, hgroup]; rfl)]

/-! ### The beam instructions in a group that the context may use (R198) -/

@[simp] theorem State.act?_setLeaf (s : State) (dt g k : Nat) (l : Leaf) : (s.setLeaf dt g l).act? k = s.act? k := rfl
@[simp] theorem State.setLeaf_cur (s : State) (dt g : Nat) (l : Leaf) : (s.setLeaf dt g l).cur = s.cur := rfl
@[simp] theorem State.setLeaf_phys (s : State) (dt g : Nat) (l : Leaf) : (s.setLeaf dt g l).phys = s.phys := rfl

/-- A leaf's change and an activation's are of different parts of the state. -/
theorem State.setLeaf_setAct (s : State) (k dt g : Nat) (x : Act) (l : Leaf) :
    (s.setAct k x).setLeaf dt g l = (s.setLeaf dt g l).setAct k x := rfl

section Beam

variable {a : BitVec 5} {g : Nat} {l : Leaf} (h : Issuing s x) (hgroup : checkGroup s (x.wreg a) = .ok g)
include h hgroup

/-- bmjoin with a count that no membership has. -/
theorem beamJoin_bounds {b : BitVec 5} (hn : ¬ (x.wreg b ≠ 0 ∧ (x.wreg b).toNat ≤ 255)) :
    beamJoin a b s = .error (trapOf cBOUNDS (x.wreg b)) := by
  simp only [beamJoin, State.w_eq h.here, hgroup, require_fails (decide_eq_false hn), bind, Except.bind]

/-- bmq of a leaf. -/
theorem beamQuery_eq (hl : (s.tile x.dt).leaf g = l) (d : BitVec 5) : beamQuery d a s = .ok (s.setW d l.toWord) := by
  simp only [beamQuery, State.w_eq h.here, hgroup, h.here_eq, hl, bind, Except.bind, pure, Except.pure]

/-- bmwait in another phase than that of the arrival record. -/
theorem beamWait_passed {gen : BitVec 8} (hrec : x.beamRec = some (g, gen)) (hgen : ((s.tile x.dt).leaf g).gen ≠ gen) :
    beamWait a s = .ok (s.acquire s.cur) := by
  simp only [beamWait, State.w_eq h.here, hgroup, h.here_eq, hrec, if_pos hgen, bind, Except.bind, pure, Except.pure, if_true]

/-- bmwait in the phase of the arrival record. -/
theorem beamWait_current {gen : BitVec 8} (hrec : x.beamRec = some (g, gen)) (hgen : ((s.tile x.dt).leaf g).gen = gen) :
    beamWait a s = .ok (s.block s.cur (.beamGen g gen) 5 0) := by
  simp only [beamWait, State.w_eq h.here, hgroup, h.here_eq, hrec, hgen, bind, Except.bind, pure, Except.pure, if_true,
    ne_eq, not_true_eq_false, if_false]

/-- bmwait without an arrival record of the group. -/
theorem beamWait_none (hrec : ∀ gen, x.beamRec ≠ some (g, gen)) : beamWait a s = .ok s := by
  simp only [beamWait, State.w_eq h.here, hgroup, h.here_eq, bind, Except.bind, pure, Except.pure]
  split
  case h_1 j gen hj =>
    have hother : j ≠ g := fun heq => hrec gen (heq ▸ hj)
    exact if_neg hother
  case h_2 => rfl

section Member

variable (hl : (s.tile x.dt).leaf g = l) (hm : l.member = true)
include hl hm

/-- bmjoin of a member sets its count. -/
theorem beamJoin_member {b : BitVec 5} (hn : x.wreg b ≠ 0 ∧ (x.wreg b).toNat ≤ 255) :
    beamJoin a b s = .ok (s.setLeaf x.dt g
      { l with n := (x.wreg b).toNat, up := l.up || decide ((x.wreg b).toNat ≤ l.arr) }) := by
  simp only [beamJoin, State.w_eq h.here, hgroup, h.here_eq, hl, hm, require_holds (decide_eq_true hn), bind, Except.bind,
    pure, Except.pure, if_true]

/-- bmarr in a phase in which the tile has arrived. -/
theorem beamArrive_up (hup : l.up = true) : beamArrive a s = .ok (s.block s.cur (.beamArrive g) 5 0) := by
  simp only [beamArrive, State.w_eq h.here, hgroup, h.here_eq, hl, require_holds hm, hup, bind, Except.bind, pure,
    Except.pure, if_true]

/-- bmarr that counts. -/
theorem beamArrive_counts (hup : l.up = false) :
    beamArrive a s = .ok ((s.setLeaf x.dt g { l with arr := l.arr + 1, up := decide (l.arr + 1 = l.n) }).setAct s.cur
      { x with beamRec := some (g, l.gen) }) := by
  simp only [beamArrive, State.w_eq h.here, hgroup, h.here_eq, hl, require_holds hm, hup, bind, Except.bind, pure, Except.pure,
    Bool.false_eq_true, if_false, State.updHere_eq h.here, State.setLeaf_setAct, Bool.false_or]

/-- bmleave of a tile with arrivals in the phase. -/
theorem beamLeave_arrived (harr : 0 < l.arr) :
    beamLeave a s = .ok ((s.setLeaf x.dt g { l with up := true }).block s.cur (.beamLeave g) 5 0) := by
  simp only [beamLeave, State.w_eq h.here, hgroup, h.here_eq, hl, hm, if_pos harr, bind, Except.bind, pure, Except.pure,
    if_true]

/-- bmleave of a tile without arrivals in the phase. -/
theorem beamLeave_idle (harr : l.arr = 0) :
    beamLeave a s = .ok ((s.setLeaf x.dt g { l with member := false, arr := 0, up := false }).checkPhase
      (x.dt / 4096) g) := by
  simp only [beamLeave, State.w_eq h.here, hgroup, h.here_eq, hl, hm, harr, Nat.lt_irrefl, bind, Except.bind, pure,
    Except.pure, if_true, if_false]

end Member

section Outsider

variable (hl : (s.tile x.dt).leaf g = l) (hm : l.member = false)
include hl hm

/-- bmjoin of a new member. -/
theorem beamJoin_outsider {b : BitVec 5} (hn : x.wreg b ≠ 0 ∧ (x.wreg b).toNat ≤ 255) {grp : BeamGroup}
    (hgrp : s.group (x.dt / 4096) g = grp) :
    beamJoin a b s = .ok (((s.setGroup (x.dt / 4096) g { grp with
        pending := grp.pending.filter (· != x.dt)
        raised := grp.raised.filter (· != x.dt) }).setLeaf x.dt g
      { l with member := true, n := (x.wreg b).toNat, arr := 0, up := false, gen := grp.gen }).wakeBeam x.dt g) := by
  simp only [beamJoin, State.w_eq h.here, hgroup, h.here_eq, hl, hm, hgrp, require_holds (decide_eq_true hn), bind,
    Except.bind, pure, Except.pure, Bool.false_eq_true, if_false]

theorem beamArrive_outsider : beamArrive a s = .error (trapOf cBOUNDS (BitVec.ofNat 64 g)) := by
  simp only [beamArrive, State.w_eq h.here, hgroup, h.here_eq, hl, require_fails hm, bind, Except.bind]

theorem beamLeave_outsider : beamLeave a s = .ok s := by
  simp only [beamLeave, State.w_eq h.here, hgroup, h.here_eq, hl, hm, bind, Except.bind, pure, Except.pure,
    Bool.false_eq_true, if_false]

end Outsider

end Beam

/-- An acquire of the issuing context comes to the same before and after its PC moves. -/
theorem State.acquire_after (h : s.act? s.cur = some x) (n : Word) :
    (s.acquire s.cur).after x n = (s.after x n).acquire s.cur := by
  have hact : s.act s.cur = x := State.here_eq h
  simp only [State.acquire, hact, State.after, State.act_setAct_same]
  split <;> rfl

theorem State.acquire_cur (s : State) (k : Nat) : (s.acquire k).cur = s.cur := by
  simp only [State.acquire]; split <;> rfl

theorem State.act?_acquire (s : State) (k j : Nat) : (s.acquire k).act? j = s.act? j := by
  simp only [State.acquire]; split <;> rfl

end Machine

end Sys2Proof

open Sys2Proof Sys2Proof.Machine Sys2Proof.Stated

/-- Settles O19: the faults of R192 by its checks, each beam instruction by the cases of R198's table. -/
theorem beamInstructions : Obligations.BeamInstructions := by
  unfold Obligations.BeamInstructions
  refine ⟨fun s x h hfw hr d a b i hi => ⟨fun hge => ?groupBounds, fun hlt hasid => ?groupPerm⟩,
    fun s x h hfw hr d a b hg => ?_⟩
  case groupBounds => exact exec_beam_error h hr (checkGroup_bounds h hfw hge) hi
  case groupPerm => exact exec_beam_error h hr (checkGroup_perm h hfw hlt hasid) hi
  have hgroup := checkGroup_ok h hfw hg
  intro g n l grp
  rw [exec_bmjoin, execBmjoin, exec_bmarr, execBmarr, exec_bmwait, execBmwait, exec_bmq, execBmq, exec_bmleave, execBmleave]
  simp only [plainInstr_original h hr]
  refine ⟨fun hn => ?joinBounds, fun hne hle => ⟨fun hm => ?joinMember, fun hm => ?joinOutsider⟩,
    fun hm => ?arriveOutsider, fun hm => ⟨fun hup => ?arriveUp, fun hup => ?arriveCounts⟩,
    fun gen hrec => ⟨fun hgen => ?waitPassed, fun hgen => ?waitCurrent⟩, fun hrec => ?waitNone, ?query,
    fun hm => ?leaveOutsider, fun hm harr => ?leaveArrived, fun hm harr => ?leaveIdle⟩
  case joinBounds =>
    have hbad : ¬ (n ≠ 0 ∧ n.toNat ≤ 255) := fun hok => hn.elim hok.1 (Nat.not_lt.mpr hok.2)
    exact plainInstr_error h (beamJoin_bounds h hgroup hbad) _ _
  case joinMember => exact plainInstr_after h (beamJoin_member h hgroup rfl hm ⟨hne, hle⟩) h.here h.runs _ _
  case joinOutsider => exact plainInstr_ok h (beamJoin_outsider h hgroup rfl hm ⟨hne, hle⟩ rfl) _ _
  case arriveOutsider =>
    rw [plainInstr_error h (beamArrive_outsider h hgroup rfl hm), BitVec.ofNat_toNat, BitVec.setWidth_eq]
  case arriveUp =>
    exact plainInstr_blocks h (beamArrive_up h hgroup rfl hm hup) h.here rfl rfl (by nofun) _ _
  case arriveCounts =>
    rw [plainInstr_after h (beamArrive_counts h hgroup rfl hm hup) (State.act?_setAct_same _ _ _) h.runs]
    simp only [State.after, State.setAct_cur, State.setLeaf_cur, State.setAct_setAct, g, l]
  case waitPassed =>
    have hx : (s.acquire s.cur).act? (s.acquire s.cur).cur = some x := by
      rw [State.acquire_cur, State.act?_acquire, h.here]
    rw [plainInstr_after h (beamWait_passed h hgroup hrec hgen) hx h.runs, State.acquire_after h.here]
  case waitCurrent =>
    exact plainInstr_blocks h (beamWait_current h hgroup hrec hgen) h.here rfl rfl (by nofun) _ _
  case waitNone => exact plainInstr_after h (beamWait_none h hgroup hrec) h.here h.runs _ _
  case query => exact plainInstr_setW h (beamQuery_eq h hgroup rfl d) _ _
  case leaveOutsider => exact plainInstr_after h (beamLeave_outsider h hgroup rfl hm) h.here h.runs _ _
  case leaveArrived =>
    exact plainInstr_blocks h (beamLeave_arrived h hgroup rfl hm harr) h.here rfl rfl (by nofun) _ _
  case leaveIdle => exact plainInstr_ok h (beamLeave_idle h hgroup rfl hm harr) _ _

end

section
/-! PROOF. The vector moves, permutes, extracts and inserts (R275, R276): the elements of a packed result, vector operands
that are all registers, what a destination field's write leaves of the issuing context, then each instruction by its
effect. -/

namespace Sys2Proof

open Sys2Proof.Machine Sys2Proof.Stated

/-! ### Elements of vectors (R261, R262) -/

/-- An element is what the model reads of a vector at its index. -/
@[simp] theorem toNat_element (W : Nat) (v : Vec) (k : Nat) : (element W v k).toNat = elemOf W v k := by
  simp [element, elemOf]

@[simp] theorem ofNat_elemOf (W : Nat) (v : Vec) (k : Nat) : BitVec.ofNat W (elemOf W v k) = element W v k :=
  BitVec.eq_of_toNat_eq (by rw [← toNat_element, BitVec.ofNat_toNat, BitVec.setWidth_eq])

theorem ofNat_mod_width (W n : Nat) : BitVec.ofNat W (n % 2 ^ W) = BitVec.ofNat W n :=
  BitVec.eq_of_toNat_eq (by simp)

/-- The number of elements of a format is 256 bytes over the bytes of one. -/
theorem elemCount_width (esz : BitVec 2) : elemCount (8 * 2 ^ esz.toNat) = 256 / 2 ^ esz.toNat := by
  rw [elemCount, ← Nat.div_div_eq_div_mul]

/-- The elements of a width fit a vector. -/
theorem width_mul_elemCount_le (W : Nat) : W * elemCount W ≤ 2048 := Nat.mul_div_le 2048 W

/-- An element of packed results is the result of its index. -/
theorem element_packElems (W : Nat) (f : Nat → Nat) {k : Nat} (hk : k < elemCount W) :
    element W (BitVec.ofNat 2048 (packElems W ((List.range (elemCount W)).map f))) k = BitVec.ofNat W (f k) := by
  have hfits : W * ((List.range (elemCount W)).map f).length ≤ 2048 := by simpa using width_mul_elemCount_le W
  rw [← ofNat_elemOf, elemOf_packElems W _ hfits k (by simpa using hk), ofNat_mod_width]
  simp

/-- An element of packed masked results: a new one where it is active, the old one elsewhere. -/
theorem element_mapElems (W : Nat) (mask : Word) (old : Vec) (f : Nat → Nat × Flags) {k : Nat} (hk : k < elemCount W) :
    element W (BitVec.ofNat 2048 (packElems W ((mapElems W mask old f).map (·.1)))) k =
      if isActive W mask k then BitVec.ofNat W (f k).1 else element W old k := by
  rw [mapElems, List.map_map, element_packElems W _ hk]
  simp only [Function.comp_apply]
  split
  · rfl
  · exact ofNat_elemOf W old k

/-- Every element of a format is active under all ones. -/
theorem isActive_allOnes (esz : BitVec 2) {k : Nat} (hk : k < elemCount (8 * 2 ^ esz.toNat)) :
    isActive (8 * 2 ^ esz.toNat) (BitVec.allOnes 64) k = true := by
  have hbits : (8 * 2 ^ esz.toNat) * k < 2048 :=
    Nat.lt_of_lt_of_le (Nat.mul_lt_mul_of_pos_left hk (Nat.mul_pos (by decide) (Nat.two_pow_pos _))) (width_mul_elemCount_le _)
  generalize 8 * 2 ^ esz.toNat = W at hbits
  rw [isActive, BitVec.getLsbD_allOnes, decide_eq_true_eq]
  split
  case isTrue hW => rw [hW] at hbits; omega
  case isFalse => rw [Nat.mul_comm k W]; omega

namespace Machine

variable {s s1 : State} {x : Act} {e : Trap}

/-! ### Vector fields (R107, R108) -/

/-- A field below 16 names a register. -/
theorem queueOf_register {f : BitVec 5} (h : f.toNat < 16) : queueOf f = none :=
  if_neg (fun hq => Nat.not_lt.mpr hq.1 h)

/-- An instruction whose vector fields all name registers needs no queue. -/
theorem queueNeeds_registers {srcs dsts : List (BitVec 5)} (hsrcs : ∀ f ∈ srcs, queueOf f = none)
    (hdsts : ∀ f ∈ dsts, queueOf f = none) : queueNeeds srcs dsts = [] := by
  have hnone (l : List (BitVec 5)) (hl : ∀ f ∈ l, queueOf f = none) (q : Fin 8) :
      l.filter (fun f => queueOf f == some q) = [] :=
    List.filter_eq_nil_iff.mpr (fun f hf => by simp [hl f hf])
  simp [queueNeeds, hnone srcs hsrcs, hnone dsts hdsts]

theorem checkQueues_registers {srcs dsts : List (BitVec 5)} (hsrcs : ∀ f ∈ srcs, queueOf f = none)
    (hdsts : ∀ f ∈ dsts, queueOf f = none) (x : Act) : checkQueues x srcs dsts = .ok () := by
  have hnone (l : List (BitVec 5)) (hl : ∀ f ∈ l, queueOf f = none) (g : Fin 8 → Option Nat) :
      l.filterMap (fun f => (queueOf f).bind g) = [] :=
    List.filterMap_eq_nil_iff.mpr (fun f hf => by rw [hl f hf, Option.bind_none])
  simp only [checkQueues, hnone srcs hsrcs, hnone dsts hdsts, List.append_nil]

/-- Operands that all are registers are at hand. -/
theorem vectorReady_registers {srcs dsts : List (BitVec 5)} (hsrcs : ∀ f ∈ srcs, queueOf f = none)
    (hdsts : ∀ f ∈ dsts, queueOf f = none) (s : State) (x : Act) : VectorReady s x srcs dsts where
  allowed := checkQueues_registers hsrcs hdsts x
  original := by
    have hregs : (srcs ++ dsts).any (fun f => (queueOf f).isSome) = false :=
      List.any_eq_false.mpr (fun f hf => by
        simp [(List.mem_append.mp hf).elim (hsrcs f) (hdsts f)])
    rw [hregs, Bool.and_false]
  ready := by rw [queueWait, queueNeeds_registers hsrcs hdsts, List.find?_nil]

/-- A check of scalars that fails is the outcome, whether the queues hold entries or not: it comes before any pop. -/
theorem vectorInstr_scalarFault (hx : s.here = x) {srcs dsts : List (BitVec 5)} (hallowed : checkQueues x srcs dsts = .ok ())
    (horiginal : (x.replica && (srcs ++ dsts).any (fun f => (queueOf f).isSome)) = false) {pre : State → Res Unit}
    (hpre : pre s = .error e) (f : List Vec → State → Res State) : vectorInstr srcs dsts pre f s = .error e := by
  simp only [vectorInstr, hx, hallowed, horiginal, hpre, bind, Except.bind]
  rfl

/-- The context that issues, after its sources were read. -/
theorem State.act?_of_readFields (h : Issuing s x) {l : List (BitVec 5)} {xs : List Vec}
    (hread : s.readFields l = (xs, s1)) : s1.act? s1.cur = some x := by
  have hs1 : (s.readFields l).2 = s1 := congrArg Prod.snd hread
  rw [← hs1, readFields_act?, (readFields_acts s l).2, h.here]

/-- A result written leaves the issuing context going on. -/
theorem State.writeField_runs (hx : s.act? s.cur = some x) (hruns : x.halting = false) (d : BitVec 5) (v : Vec) :
    ∃ y, (s.writeField d v).act? (s.writeField d v).cur = some y ∧ y.halting = false := by
  rw [State.writeField]
  split
  case h_1 => exact ⟨x, hx, hruns⟩
  case h_2 =>
    rw [State.updHere_eq hx]
    exact ⟨_, State.act?_setAct_same s s.cur _, hruns⟩

theorem State.done_writeField (hx : s.act? s.cur = some x) (hruns : x.halting = false) (d : BitVec 5) (v : Vec) (n : Word) :
    (s.writeField d v).done n = (s.writeField d v).advance n := by
  obtain ⟨y, hy, hyruns⟩ := State.writeField_runs hx hruns d v
  rw [State.done_runs hy hyruns, State.advance, State.updHere_eq hy, State.after]

/-! ### Moves and permutes (R275) -/

section Moves

variable {op : VMovOp} {d a b : BitVec 5} {m : BitVec 3} {esz : BitVec 2} {xs : List Vec} {k : Nat}

/-- The value of element k of a move or permute of a context, from the vectors it read. -/
def movedElement (op : VMovOp) (W : Nat) (x : Act) (xs : List Vec) (b : BitVec 5) (m : BitVec 3) (k : Nat) : BitVec W :=
  BitVec.ofNat W (vmovResult op W (xs.headD 0) (xs.getD 1 0) (x.wreg b) (isActive W (x.mreg m) k) k)

/-- What a move or permute of a context writes to its destination. -/
def movedVec (op : VMovOp) (x : Act) (xs : List Vec) (d b : BitVec 5) (m : BitVec 3) (esz : BitVec 2) : Vec :=
  let W := 8 * 2 ^ esz.toNat
  let mask := if op = .sel then BitVec.allOnes 64 else x.mreg m
  BitVec.ofNat 2048 (packElems W ((mapElems W mask (x.vfield d) (fun k =>
    (vmovResult op W (xs.headD 0) (xs.getD 1 0) (x.wreg b) (isActive W (x.mreg m) k) k, 0))).map (·.1)))

/-- A move or permute whose operands are at hand completes. -/
theorem pureInstr_vmov (h : Issuing s x) (hv : VectorReady s x (op.sources a b) [d])
    (hread : s.readFields (op.sources a b) = (xs, s1)) :
    pureInstr (.vmov op d a b m esz) s = .next ((s1.writeField d (movedVec op x xs d b m esz)).advance 4) := by
  have hx := State.act?_of_readFields h hread
  have heffect : vmovVec op d a b m esz s = .ok (s1.writeField d (movedVec op x xs d b m esz)) := by
    refine vectorInstr_ready h.here_eq hv rfl ?_
    rw [hread, State.here_eq hx, State.w_eq hx]
    rfl
  rw [pureInstr_ok (op := .vmov op d a b m esz) h heffect, State.done_writeField hx h.runs]

/-- vsel writes every element. -/
theorem element_movedVec_sel (hk : k < elemCount (8 * 2 ^ esz.toNat)) :
    element (8 * 2 ^ esz.toNat) (movedVec .sel x xs d b m esz) k = movedElement .sel _ x xs b m k := by
  rw [movedVec, if_pos rfl, element_mapElems _ _ _ _ hk, if_pos (isActive_allOnes esz hk), movedElement]

/-- The other moves and permutes write the active elements. -/
theorem elements_movedVec (hop : op ≠ .sel) :
    elements (8 * 2 ^ esz.toNat) x m d (movedVec op x xs d b m esz) (movedElement op _ x xs b m) := by
  intro k hk
  rw [movedVec, if_neg hop, element_mapElems _ _ _ _ hk]
  rfl

/-- A move or permute but vsel completes with the results of R275's table. -/
theorem pureInstr_vmov_elements (h : Issuing s x) (hop : op ≠ .sel) {f : Nat → BitVec (8 * 2 ^ esz.toNat)}
    (hf : movedElement op _ x xs b m = f) (hv : VectorReady s x (op.sources a b) [d])
    (hread : s.readFields (op.sources a b) = (xs, s1)) :
    ∃ v : Vec, pureInstr (.vmov op d a b m esz) s = .next ((s1.writeField d v).advance 4) ∧
      elements (8 * 2 ^ esz.toNat) x m d v f :=
  ⟨_, pureInstr_vmov h hv hread, hf ▸ elements_movedVec hop⟩

section Elements

variable (W : Nat) (x : Act) (xs : List Vec) (b : BitVec 5) (m : BitVec 3)

theorem movedElement_mov : movedElement .mov W x xs b m = element W (xs.headD 0) := by
  funext k
  simp [movedElement, vmovResult]

theorem movedElement_bcst : movedElement .bcst W x xs b m = fun _ => (x.wreg b).setWidth W := by
  funext k
  exact BitVec.eq_of_toNat_eq (by simp [movedElement, vmovResult])

theorem movedElement_sel (k : Nat) : movedElement .sel W x xs b m k =
    if isActive W (x.mreg m) k then element W (xs.headD 0) k else element W (xs.getD 1 0) k := by
  simp only [movedElement, vmovResult, apply_ite (BitVec.ofNat W), ofNat_elemOf]

theorem movedElement_perm : movedElement .perm W x xs b m =
    fun k => element W (xs.headD 0) ((element W (xs.getD 1 0) k).toNat % (2048 / W)) := by
  funext k
  simp only [movedElement, vmovResult, elemCount, ofNat_elemOf, toNat_element]

theorem movedElement_rot : movedElement .rot W x xs b m =
    fun k => element W (xs.headD 0) ((k + (x.wreg b).toNat) % (2048 / W)) := by
  funext k
  simp only [movedElement, vmovResult, elemCount, ofNat_elemOf]

theorem movedElement_zip : movedElement .zip W x xs b m =
    fun k => if k % 2 = 0 then element W (xs.headD 0) (k / 2) else element W (xs.getD 1 0) ((k - 1) / 2) := by
  funext k
  simp only [movedElement, vmovResult, apply_ite (BitVec.ofNat W), ofNat_elemOf]

theorem movedElement_unzip : movedElement .unzip W x xs b m =
    fun k => if k < 2048 / W / 2 then element W (xs.headD 0) (2 * k) else element W (xs.getD 1 0) (2 * k - 2048 / W) := by
  funext k
  rw [movedElement, vmovResult, apply_ite (BitVec.ofNat W), ofNat_elemOf, ofNat_elemOf]
  rfl

theorem movedElement_iota : movedElement .iota W x xs b m = BitVec.ofNat W := rfl

end Elements

end Moves

/-! ### Extracts and inserts (R276) -/

section Index

variable {d a b : BitVec 5} {esz : BitVec 2}

theorem checkIndex_below (h : s.act? s.cur = some x) (hj : (x.wreg b).toNat < elemCount (8 * 2 ^ esz.toNat)) :
    checkIndex b esz s = .ok () := by
  rw [checkIndex, State.w_eq h, ← elemCount_width, require_holds (decide_eq_true hj)]

theorem checkIndex_beyond (h : s.act? s.cur = some x) (hj : elemCount (8 * 2 ^ esz.toNat) ≤ (x.wreg b).toNat) :
    checkIndex b esz s = .error (trapOf cBOUNDS (x.wreg b)) := by
  rw [checkIndex, State.w_eq h, ← elemCount_width, require_fails (decide_eq_false (Nat.not_lt.mpr hj))]

/-- vext with an index past the elements, with or without an entry in the queue of its source. -/
theorem pureInstr_vext_beyond (h : Issuing s x) (hallowed : checkQueues x [a] [] = .ok ())
    (horiginal : (x.replica && (queueOf a).isSome) = false) (hj : elemCount (8 * 2 ^ esz.toNat) ≤ (x.wreg b).toNat) :
    pureInstr (.vext d a b esz) s = .next (s.takeTrap s.cur (trapOf cBOUNDS (x.wreg b))) := by
  have hfault : vextOp d a b esz s = .error (trapOf cBOUNDS (x.wreg b)) :=
    vectorInstr_scalarFault h.here_eq hallowed (by simpa using horiginal) (checkIndex_beyond h.here hj) _
  exact pureInstr_error h hfault

theorem pureInstr_vext_below (h : Issuing s x) {v : Vec} (hv : VectorReady s x [a] [])
    (hread : s.readFields [a] = ([v], s1)) (hj : (x.wreg b).toNat < elemCount (8 * 2 ^ esz.toNat)) :
    pureInstr (.vext d a b esz) s =
      .next (s1.after (x.setW d ((element (8 * 2 ^ esz.toNat) v (x.wreg b).toNat).setWidth 64)) 4) := by
  have hx := State.act?_of_readFields h hread
  have heffect : vextOp d a b esz s =
      .ok (s1.setW d ((element (8 * 2 ^ esz.toNat) v (x.wreg b).toNat).setWidth 64)) := by
    refine vectorInstr_ready h.here_eq hv (checkIndex_below h.here hj) ?_
    rw [hread, State.w_eq hx, ← toNat_element, BitVec.ofNat_toNat]
    rfl
  rw [pureInstr_ok (op := .vext d a b esz) h heffect, State.setW_eq hx,
    State.done_runs (State.act?_setAct_same _ _ _) ((Act.halting_setW _ _ _).trans h.runs)]
  simp only [State.after, State.setAct_cur, State.setAct_setAct]

/-- What vins leaves in its destination: wa in element j, the old elements elsewhere. -/
def insertedVec (x : Act) (d a b : BitVec 5) (esz : BitVec 2) : Vec :=
  let W := 8 * 2 ^ esz.toNat
  BitVec.ofNat 2048 (packElems W ((List.range (elemCount W)).map (fun k =>
    if k = (x.wreg b).toNat then (x.wreg a).toNat % 2 ^ W else elemOf W (x.vfield d) k)))

theorem element_insertedVec {k : Nat} (hk : k < elemCount (8 * 2 ^ esz.toNat)) :
    element (8 * 2 ^ esz.toNat) (insertedVec x d a b esz) k =
      if k = (x.wreg b).toNat then (x.wreg a).setWidth _ else element _ (x.vreg (d.setWidth 4)) k := by
  rw [insertedVec, element_packElems _ _ hk, apply_ite (BitVec.ofNat _), ofNat_elemOf, ofNat_mod_width, BitVec.ofNat_toNat]
  rfl

theorem pureInstr_vins_beyond (h : Issuing s x) (hd : d.toNat < 16)
    (hj : elemCount (8 * 2 ^ esz.toNat) ≤ (x.wreg b).toNat) :
    pureInstr (.vins d a b esz) s = .next (s.takeTrap s.cur (trapOf cBOUNDS (x.wreg b))) := by
  have hv : VectorReady s x [] [d] := vectorReady_registers (by simp) (by simpa using queueOf_register hd) s x
  have hfault : vinsOp d a b esz s = .error (trapOf cBOUNDS (x.wreg b)) :=
    vectorInstr_scalarFault h.here_eq hv.allowed hv.original (checkIndex_beyond h.here hj) _
  exact pureInstr_error h hfault

theorem pureInstr_vins_below (h : Issuing s x) (hd : d.toNat < 16)
    (hj : (x.wreg b).toNat < elemCount (8 * 2 ^ esz.toNat)) :
    pureInstr (.vins d a b esz) s = .next (s.after (x.setV (d.setWidth 4) (insertedVec x d a b esz)) 4) := by
  have hreg : queueOf d = none := queueOf_register hd
  have hv : VectorReady s x [] [d] := vectorReady_registers (by simp) (by simpa using hreg) s x
  have heffect : vinsOp d a b esz s =
      .ok (s.setAct s.cur (x.setV (d.setWidth 4) (insertedVec x d a b esz))) := by
    refine vectorInstr_ready h.here_eq hv (checkIndex_below h.here hj) ?_
    simp only [State.readFields, State.writeField, hreg, State.updHere_eq h.here, h.here_eq, State.w_eq h.here]
    rfl
  exact pureInstr_act h heffect ((Act.halting_setV _ _ _).trans h.runs)

end Index

end Machine

end Sys2Proof

open Sys2Proof Sys2Proof.Machine Sys2Proof.Stated

/-- Settles O24: each move and permute by the element that R275's table gives it, vext and vins by the two outcomes of
R276's check of their index. -/
theorem moveAndPermuteResults : Obligations.MoveAndPermuteResults := by
  unfold Obligations.MoveAndPermuteResults
  refine ⟨fun s x h d a b m esz xs s1 => ⟨fun p hp hv hread => ?moves, fun hv hread => ?vsel⟩, ?decodes,
    fun s x h d a b m esz => ⟨fun hallowed horiginal hj => ?vextBeyond, fun hd hj => ?vinsBeyond,
      fun v s1 hv hread hj => ?vextBelow, fun hd hj => ?vinsBelow, fun xs s1 hv hread => ?vrot,
      fun xs s1 hv hread => ?vperm⟩⟩
  case moves =>
    simp only [List.mem_cons, List.not_mem_nil, or_false] at hp
    obtain rfl | rfl | rfl | rfl | rfl | rfl | rfl := hp
    · exact pureInstr_vmov_elements h (by decide) (movedElement_mov _ x xs 0 m) hv hread
    · exact pureInstr_vmov_elements h (by decide) (movedElement_bcst _ x xs b m) hv hread
    · exact pureInstr_vmov_elements h (by decide) (movedElement_perm _ x xs b m) hv hread
    · exact pureInstr_vmov_elements h (by decide) (movedElement_rot _ x xs b m) hv hread
    · exact pureInstr_vmov_elements h (by decide) (movedElement_zip _ x xs b m) hv hread
    · exact pureInstr_vmov_elements h (by decide) (movedElement_unzip _ x xs b m) hv hread
    · exact pureInstr_vmov_elements h (by decide) (movedElement_iota _ x xs 0 m) hv hread
  case vsel =>
    refine ⟨_, pureInstr_vmov h hv hread, fun k hk => ?_⟩
    rw [element_movedVec_sel hk, movedElement_sel]
  case decodes => exact decodeWord_of_encode (Laws.Encodes.vext 3 5 4 2) rfl rfl
  case vextBeyond => exact pureInstr_vext_beyond h hallowed horiginal hj
  case vinsBeyond => exact pureInstr_vins_beyond h hd hj
  case vextBelow => exact pureInstr_vext_below h hv hread hj
  case vinsBelow => exact ⟨_, pureInstr_vins_below h hd hj, fun k hk => element_insertedVec hk⟩
  case vrot => exact ⟨_, pureInstr_vmov h hv hread⟩
  case vperm => exact ⟨_, pureInstr_vmov h hv hread⟩

end

section
/-! PROOF. The halt groups (R394 to R396): what a change of a table's entries under their keys leaves in it, what a trigger
or a release leaves of the panel's register and of its cores, and the effect of halt on a firmware core. -/

namespace Sys2Proof.Machine

variable {s : State} {x : Act} {a b : BitVec 5} {p g k : Nat} {on : Bool}

/-- An entry of a table whose entries changed under their keys. -/
theorem tabFind_map_of_keys {α : Type} {f : Nat × α → Nat × α} (hkeys : ∀ e, (f e).1 = e.1) (t : List (Nat × α)) (k : Nat) :
    tabFind (t.map f) k = (tabFind t k).map (fun y => (f (k, y)).2) := by
  induction t with
  | nil => rfl
  | cons e t ih =>
    obtain ⟨j, y⟩ := e
    simp only [List.map_cons, tabFind, hkeys (j, y), ih]
    split
    case isTrue hjk => rw [hjk, Option.map_some]
    case isFalse => rfl

/-! ### Triggers and releases (R394, R396) -/

@[simp] theorem State.act?_setHalt (s : State) (p g : Nat) (on : Bool) (k : Nat) : (s.setHalt p g on).act? k = s.act? k := rfl
@[simp] theorem State.setHalt_cur (s : State) (p g : Nat) (on : Bool) : (s.setHalt p g on).cur = s.cur := rfl

/-- A group is in its panel's register after a trigger and not after a release. -/
theorem State.mem_triggered_setHalt (s : State) (p g : Nat) (on : Bool) :
    g ∈ ((s.setHalt p g on).panel p).triggered ↔ on = true := by
  have hpanel : (s.setHalt p g on).panel p = (s.setPanel p { s.panel p with
      triggered := if on then g :: (s.panel p).triggered.filter (· != g) else (s.panel p).triggered.filter (· != g) }).panel p :=
    rfl
  rw [hpanel, State.panel_setPanel_same]
  cases on with
  | true => simp
  | false => simp

/-- A firmware core of the panel: a member of the group is halted or goes on, another stays as it was. -/
theorem State.fwCore_setHalt_halted {f : FwCore} (hf : tabFind s.fws k = some f) (hp : k / 256 = p) :
    ((s.setHalt p g on).fwCore k).halted = if f.halt.member = true ∧ f.halt.group.toNat = g then on else f.halted := by
  rw [State.fwCore, State.setHalt, tabFind_map_of_keys (fun e => by split <;> rfl)]
  simp [State.setPanel, hf, hp]

/-- A tile of the panel: the same of each of its two cores. -/
theorem State.tile_setHalt_halted {u : Tile} (hu : tabFind s.tiles k = some u) (hp : k / 4096 = p)
    (hk : k < Config.replicaBase) :
    ((s.setHalt p g on).tile k).comp.halted =
        (if u.comp.halt.member = true ∧ u.comp.halt.group.toNat = g then on else u.comp.halted) ∧
      ((s.setHalt p g on).tile k).stag.halted =
        (if u.stag.halt.member = true ∧ u.stag.halt.group.toNat = g then on else u.stag.halted) := by
  rw [State.tile, State.setHalt, tabFind_map_of_keys (fun e => by split <;> rfl)]
  simp [State.setPanel, hu, hp, hk]

/-! ### halt (R395) -/

/-- A privileged instruction of a firmware core is its effect (R372). -/
theorem sysInstr_firmware (h : Issuing s x) (hfw : x.fw = true) (word : BitVec 32) (r w : List Nat) (f : State → Res State) :
    sysInstr word r w f s = plainInstr r w f s := by
  have hpriv : privileged word s = .ok () := require_holds (by rw [h.here_eq, hfw]) _ _
  simp only [sysInstr, checkedInstr, plainInstr, issue_issuing h, hpriv, bind, Except.bind]

theorem haltGroup_bounds (h : Issuing s x) (hg : 16 ≤ (x.wreg a).toNat) :
    haltGroup a b s = .error (trapOf cBOUNDS (x.wreg a)) := by
  rw [haltGroup, State.w_eq h.here, require_fails (decide_eq_false (Nat.not_lt.mpr hg))]
  rfl

theorem haltGroup_ok (h : Issuing s x) (hg : (x.wreg a).toNat < 16) :
    haltGroup a b s = .ok (s.setHalt (s.fwHere / 256) (x.wreg a).toNat (!(x.wreg b).getLsbD 0)) := by
  rw [haltGroup, State.w_eq h.here, State.w_eq h.here, require_holds (decide_eq_true hg)]
  rfl

end Sys2Proof.Machine

open Sys2Proof Sys2Proof.Machine

/-- Settles O36: halt is its group's check and then the trigger or release, whose register and members' states are those of
`setHalt`; the advance of the PC after it changes no panel and no core. -/
theorem haltGroups : Obligations.HaltGroups := by
  unfold Obligations.HaltGroups
  intro s x h hfw a b g p stop judged
  rw [exec_halt, execHalt, sysInstr_firmware h hfw]
  refine ⟨fun hg => ?bounds, fun hg => ⟨(s.setHalt p g stop).after x 4, ?next, ?context, ?register, ?firmware, ?tiles⟩⟩
  case bounds => exact plainInstr_error h (haltGroup_bounds h hg) _ _
  case next => exact plainInstr_after h (haltGroup_ok h hg) h.here h.runs _ _
  case context => exact State.act?_setAct_same _ _ _
  case register => exact s.mem_triggered_setHalt p g stop
  case firmware => exact fun k f hf hp => State.fwCore_setHalt_halted hf hp
  case tiles => exact fun k u hu hp hk => State.tile_setHalt_halted hu hp hk

end
